-- ==== Sys2Proof/Machine/FaultId.lean ====
section
/-! DEFINITION. The faults of the TD96 by name: the code of R435 (group and row) and the class of every row of Tables 18.2, 06.5,
08.6, 09.6, 10.7, 11.11, 12.8, 13.3, 14.6, 15.13, 16.5 and 17.8. HM_META_CRC stands in two rows of Table 18.2 (one copy, both copies). -/
namespace Sys2Proof.Machine

/-- Fault classes (R439): corrected, contained, fatal. -/
inductive FClass where
  | ce | cc | ft
  deriving DecidableEq, Repr

/-- The rows of the fault tables (R435, R436). -/
inductive FaultId where
  | FC_REG_MISMATCH
  | SP_LOCKSTEP
  | SP_WDT
  | SP_SRAM_UNCORR
  | SVC_SRAM_CORR
  | SVC_SRAM_UNCORR
  | SC_WDT
  | ACC_REFUSED
  | CFG_VIOLATION
  | HM_ECC_CORR
  | HM_ECC_REREAD
  | HM_ECC_UNCORR
  | HM_CH_FENCE
  | HM_CH_CTRL
  | HM_DEGRADED
  | HM_META_CRC_ONE
  | HM_META_CRC_BOTH
  | GBC_MALFORMED
  | ADMIT_EXHAUSTED
  | PIPE_EMIT_LATE
  | PIPE_CL_PARITY
  | SC_LB_CORR
  | SC_LB_UNCORR
  | ADM_DUP
  | BEACON_RENDER
  | BEACON_GLYPH_REREAD
  | BEACON_GLYPH
  | BEACON_E2E_RETRY
  | BEACON_E2E
  | CLU_ATLAS_REREAD
  | CLU_ATLAS
  | DMA_RD_RETRY
  | DMA_BAD
  | DMA_SEAL_RETRY
  | DMA_SEAL
  | DMA_DESC_RETRY
  | DMA_DESC
  | DMA_STG_CORR
  | DEC_CACHE_REREAD
  | DEC_CACHE_CORR
  | DEC_HASH
  | DEC_TIMEOUT_RETRY
  | DEC_TIMEOUT
  | DEC_STATE_PAR
  | ENC_SRAM_CORR
  | ENC_SRAM_REREAD
  | ENC_TIMEOUT_RETRY
  | ENC_TIMEOUT
  | ENC_STATE_PAR
  | AK_REPLAY
  | AK_REPLAY_FAIL
  | AK_LANE_FENCE
  | AK_PROTOCOL
  | AK_UNEXP_CPL
  | AK_RB_CORR
  | AK_RB_UNCORR
  | AK_RXB_CORR
  | AK_RXB_UNCORR
  | AK_CLK_LOSS
  | AK_LINK_DOWN
  | CG_RETRAIN
  | CG_LINK_DOWN
  | CG_LINE_ERR
  | CG_LINE_THR
  | CG_BC_CRC
  | CG_BC_LOSS
  | CG_CAPS_MISMATCH
  | CG_FIFO_CORR
  | CG_FIFO_UNCORR
  | CLK_PIX_RELOCK
  | CLK_PIX_FAIL
  | CLK_GUARD_PIX
  | CLK_CG_RELOCK
  | CLK_CG_FAIL
  | CLK_CORE_LOSS
  | CLK_HM_LOSS
  | CLK_GUARD_INT
  | CLK_REF_LOSS
  | INTC_CFG_PAR
  | INTC_STACK_PAR
  | INTC_STACK_PAR_SP
  | INTC_REC_CORR
  | INTC_REC_UNCORR
  | OD_XFER_RETRY
  | OD_XFER
  | CAN_BUSOFF_RETRY
  | CAN_BUSOFF
  | CAN_RAM_CORR
  | CAN_RAM_UNCORR
  | MGMT_DATA_SKEW
  | OD_STORE_PAR
  | TH_SENSOR
  | TH_CRIT
  | AVS_BUS_RETRY
  | AVS_BUS
  | AVS_MARGIN
  | ARB_PAR
  | PWR_PGOOD_LOSS
  | KIN_FLASH_RETRY
  | KIN_ASSET
  deriving DecidableEq, Repr

/-- Every row of the fault tables, in the order of the codes. -/
def allFaults : List FaultId := [
  .FC_REG_MISMATCH, .SP_LOCKSTEP, .SP_WDT, .SP_SRAM_UNCORR, .SVC_SRAM_CORR,
  .SVC_SRAM_UNCORR, .SC_WDT, .ACC_REFUSED, .CFG_VIOLATION, .HM_ECC_CORR,
  .HM_ECC_REREAD, .HM_ECC_UNCORR, .HM_CH_FENCE, .HM_CH_CTRL, .HM_DEGRADED,
  .HM_META_CRC_ONE, .HM_META_CRC_BOTH, .GBC_MALFORMED, .ADMIT_EXHAUSTED, .PIPE_EMIT_LATE,
  .PIPE_CL_PARITY, .SC_LB_CORR, .SC_LB_UNCORR, .ADM_DUP, .BEACON_RENDER,
  .BEACON_GLYPH_REREAD, .BEACON_GLYPH, .BEACON_E2E_RETRY, .BEACON_E2E, .CLU_ATLAS_REREAD,
  .CLU_ATLAS, .DMA_RD_RETRY, .DMA_BAD, .DMA_SEAL_RETRY, .DMA_SEAL,
  .DMA_DESC_RETRY, .DMA_DESC, .DMA_STG_CORR, .DEC_CACHE_REREAD, .DEC_CACHE_CORR,
  .DEC_HASH, .DEC_TIMEOUT_RETRY, .DEC_TIMEOUT, .DEC_STATE_PAR, .ENC_SRAM_CORR,
  .ENC_SRAM_REREAD, .ENC_TIMEOUT_RETRY, .ENC_TIMEOUT, .ENC_STATE_PAR, .AK_REPLAY,
  .AK_REPLAY_FAIL, .AK_LANE_FENCE, .AK_PROTOCOL, .AK_UNEXP_CPL, .AK_RB_CORR,
  .AK_RB_UNCORR, .AK_RXB_CORR, .AK_RXB_UNCORR, .AK_CLK_LOSS, .AK_LINK_DOWN,
  .CG_RETRAIN, .CG_LINK_DOWN, .CG_LINE_ERR, .CG_LINE_THR, .CG_BC_CRC,
  .CG_BC_LOSS, .CG_CAPS_MISMATCH, .CG_FIFO_CORR, .CG_FIFO_UNCORR, .CLK_PIX_RELOCK,
  .CLK_PIX_FAIL, .CLK_GUARD_PIX, .CLK_CG_RELOCK, .CLK_CG_FAIL, .CLK_CORE_LOSS,
  .CLK_HM_LOSS, .CLK_GUARD_INT, .CLK_REF_LOSS, .INTC_CFG_PAR, .INTC_STACK_PAR,
  .INTC_STACK_PAR_SP, .INTC_REC_CORR, .INTC_REC_UNCORR, .OD_XFER_RETRY, .OD_XFER,
  .CAN_BUSOFF_RETRY, .CAN_BUSOFF, .CAN_RAM_CORR, .CAN_RAM_UNCORR, .MGMT_DATA_SKEW,
  .OD_STORE_PAR, .TH_SENSOR, .TH_CRIT, .AVS_BUS_RETRY, .AVS_BUS,
  .AVS_MARGIN, .ARB_PAR, .PWR_PGOOD_LOSS, .KIN_FLASH_RETRY, .KIN_ASSET]

/-- The 16-bit code of a fault (R435). -/
def FaultId.code : FaultId → Nat
  | .FC_REG_MISMATCH => 0x0101
  | .SP_LOCKSTEP => 0x0102
  | .SP_WDT => 0x0103
  | .SP_SRAM_UNCORR => 0x0104
  | .SVC_SRAM_CORR => 0x0105
  | .SVC_SRAM_UNCORR => 0x0106
  | .SC_WDT => 0x0107
  | .ACC_REFUSED => 0x0108
  | .CFG_VIOLATION => 0x0109
  | .HM_ECC_CORR => 0x0201
  | .HM_ECC_REREAD => 0x0202
  | .HM_ECC_UNCORR => 0x0203
  | .HM_CH_FENCE => 0x0204
  | .HM_CH_CTRL => 0x0205
  | .HM_DEGRADED => 0x0206
  | .HM_META_CRC_ONE => 0x0207
  | .HM_META_CRC_BOTH => 0x0208
  | .GBC_MALFORMED => 0x0209
  | .ADMIT_EXHAUSTED => 0x0301
  | .PIPE_EMIT_LATE => 0x0302
  | .PIPE_CL_PARITY => 0x0303
  | .SC_LB_CORR => 0x0304
  | .SC_LB_UNCORR => 0x0305
  | .ADM_DUP => 0x0306
  | .BEACON_RENDER => 0x0401
  | .BEACON_GLYPH_REREAD => 0x0402
  | .BEACON_GLYPH => 0x0403
  | .BEACON_E2E_RETRY => 0x0404
  | .BEACON_E2E => 0x0405
  | .CLU_ATLAS_REREAD => 0x0406
  | .CLU_ATLAS => 0x0407
  | .DMA_RD_RETRY => 0x0501
  | .DMA_BAD => 0x0502
  | .DMA_SEAL_RETRY => 0x0503
  | .DMA_SEAL => 0x0504
  | .DMA_DESC_RETRY => 0x0505
  | .DMA_DESC => 0x0506
  | .DMA_STG_CORR => 0x0507
  | .DEC_CACHE_REREAD => 0x0601
  | .DEC_CACHE_CORR => 0x0602
  | .DEC_HASH => 0x0603
  | .DEC_TIMEOUT_RETRY => 0x0604
  | .DEC_TIMEOUT => 0x0605
  | .DEC_STATE_PAR => 0x0606
  | .ENC_SRAM_CORR => 0x0701
  | .ENC_SRAM_REREAD => 0x0702
  | .ENC_TIMEOUT_RETRY => 0x0703
  | .ENC_TIMEOUT => 0x0704
  | .ENC_STATE_PAR => 0x0705
  | .AK_REPLAY => 0x0801
  | .AK_REPLAY_FAIL => 0x0802
  | .AK_LANE_FENCE => 0x0803
  | .AK_PROTOCOL => 0x0804
  | .AK_UNEXP_CPL => 0x0805
  | .AK_RB_CORR => 0x0806
  | .AK_RB_UNCORR => 0x0807
  | .AK_RXB_CORR => 0x0808
  | .AK_RXB_UNCORR => 0x0809
  | .AK_CLK_LOSS => 0x080A
  | .AK_LINK_DOWN => 0x080B
  | .CG_RETRAIN => 0x0901
  | .CG_LINK_DOWN => 0x0902
  | .CG_LINE_ERR => 0x0903
  | .CG_LINE_THR => 0x0904
  | .CG_BC_CRC => 0x0905
  | .CG_BC_LOSS => 0x0906
  | .CG_CAPS_MISMATCH => 0x0907
  | .CG_FIFO_CORR => 0x0908
  | .CG_FIFO_UNCORR => 0x0909
  | .CLK_PIX_RELOCK => 0x0A01
  | .CLK_PIX_FAIL => 0x0A02
  | .CLK_GUARD_PIX => 0x0A03
  | .CLK_CG_RELOCK => 0x0A04
  | .CLK_CG_FAIL => 0x0A05
  | .CLK_CORE_LOSS => 0x0A06
  | .CLK_HM_LOSS => 0x0A07
  | .CLK_GUARD_INT => 0x0A08
  | .CLK_REF_LOSS => 0x0A09
  | .INTC_CFG_PAR => 0x0B01
  | .INTC_STACK_PAR => 0x0B02
  | .INTC_STACK_PAR_SP => 0x0B03
  | .INTC_REC_CORR => 0x0B04
  | .INTC_REC_UNCORR => 0x0B05
  | .OD_XFER_RETRY => 0x0C01
  | .OD_XFER => 0x0C02
  | .CAN_BUSOFF_RETRY => 0x0C03
  | .CAN_BUSOFF => 0x0C04
  | .CAN_RAM_CORR => 0x0C05
  | .CAN_RAM_UNCORR => 0x0C06
  | .MGMT_DATA_SKEW => 0x0C07
  | .OD_STORE_PAR => 0x0C08
  | .TH_SENSOR => 0x0D01
  | .TH_CRIT => 0x0D02
  | .AVS_BUS_RETRY => 0x0D03
  | .AVS_BUS => 0x0D04
  | .AVS_MARGIN => 0x0D05
  | .ARB_PAR => 0x0D06
  | .PWR_PGOOD_LOSS => 0x0D07
  | .KIN_FLASH_RETRY => 0x0E01
  | .KIN_ASSET => 0x0E02

/-- The class given in a fault's row (R439). (DEDUCED, log 16.) -/
def FaultId.cls : FaultId → FClass
  | .FC_REG_MISMATCH => .ft
  | .SP_LOCKSTEP => .ft
  | .SP_WDT => .ft
  | .SP_SRAM_UNCORR => .ft
  | .SVC_SRAM_CORR => .ce
  | .SVC_SRAM_UNCORR => .cc
  | .SC_WDT => .cc
  | .ACC_REFUSED => .ce
  | .CFG_VIOLATION => .ce
  | .HM_ECC_CORR => .ce
  | .HM_ECC_REREAD => .ce
  | .HM_ECC_UNCORR => .cc
  | .HM_CH_FENCE => .cc
  | .HM_CH_CTRL => .cc
  | .HM_DEGRADED => .ft
  | .HM_META_CRC_ONE => .ce
  | .HM_META_CRC_BOTH => .cc
  | .GBC_MALFORMED => .cc
  | .ADMIT_EXHAUSTED => .cc
  | .PIPE_EMIT_LATE => .cc
  | .PIPE_CL_PARITY => .cc
  | .SC_LB_CORR => .ce
  | .SC_LB_UNCORR => .cc
  | .ADM_DUP => .ft
  | .BEACON_RENDER => .ft
  | .BEACON_GLYPH_REREAD => .ce
  | .BEACON_GLYPH => .cc
  | .BEACON_E2E_RETRY => .ce
  | .BEACON_E2E => .cc
  | .CLU_ATLAS_REREAD => .ce
  | .CLU_ATLAS => .cc
  | .DMA_RD_RETRY => .ce
  | .DMA_BAD => .cc
  | .DMA_SEAL_RETRY => .ce
  | .DMA_SEAL => .cc
  | .DMA_DESC_RETRY => .ce
  | .DMA_DESC => .cc
  | .DMA_STG_CORR => .ce
  | .DEC_CACHE_REREAD => .ce
  | .DEC_CACHE_CORR => .ce
  | .DEC_HASH => .ce
  | .DEC_TIMEOUT_RETRY => .ce
  | .DEC_TIMEOUT => .cc
  | .DEC_STATE_PAR => .cc
  | .ENC_SRAM_CORR => .ce
  | .ENC_SRAM_REREAD => .ce
  | .ENC_TIMEOUT_RETRY => .ce
  | .ENC_TIMEOUT => .cc
  | .ENC_STATE_PAR => .cc
  | .AK_REPLAY => .ce
  | .AK_REPLAY_FAIL => .cc
  | .AK_LANE_FENCE => .cc
  | .AK_PROTOCOL => .cc
  | .AK_UNEXP_CPL => .ce
  | .AK_RB_CORR => .ce
  | .AK_RB_UNCORR => .cc
  | .AK_RXB_CORR => .ce
  | .AK_RXB_UNCORR => .cc
  | .AK_CLK_LOSS => .cc
  | .AK_LINK_DOWN => .cc
  | .CG_RETRAIN => .ce
  | .CG_LINK_DOWN => .cc
  | .CG_LINE_ERR => .ce
  | .CG_LINE_THR => .cc
  | .CG_BC_CRC => .ce
  | .CG_BC_LOSS => .cc
  | .CG_CAPS_MISMATCH => .cc
  | .CG_FIFO_CORR => .ce
  | .CG_FIFO_UNCORR => .cc
  | .CLK_PIX_RELOCK => .ce
  | .CLK_PIX_FAIL => .cc
  | .CLK_GUARD_PIX => .cc
  | .CLK_CG_RELOCK => .ce
  | .CLK_CG_FAIL => .ft
  | .CLK_CORE_LOSS => .ft
  | .CLK_HM_LOSS => .ft
  | .CLK_GUARD_INT => .ft
  | .CLK_REF_LOSS => .ft
  | .INTC_CFG_PAR => .cc
  | .INTC_STACK_PAR => .cc
  | .INTC_STACK_PAR_SP => .ft
  | .INTC_REC_CORR => .ce
  | .INTC_REC_UNCORR => .cc
  | .OD_XFER_RETRY => .ce
  | .OD_XFER => .cc
  | .CAN_BUSOFF_RETRY => .ce
  | .CAN_BUSOFF => .cc
  | .CAN_RAM_CORR => .ce
  | .CAN_RAM_UNCORR => .cc
  | .MGMT_DATA_SKEW => .ce
  | .OD_STORE_PAR => .cc
  | .TH_SENSOR => .cc
  | .TH_CRIT => .ft
  | .AVS_BUS_RETRY => .ce
  | .AVS_BUS => .cc
  | .AVS_MARGIN => .ft
  | .ARB_PAR => .ft
  | .PWR_PGOOD_LOSS => .cc
  | .KIN_FLASH_RETRY => .ce
  | .KIN_ASSET => .cc

/-- Group of a fault code (R435, Table 18.1). -/
def faultGroup (code : Nat) : Nat := code / 256

/-- Row of a fault code (R435), counted from 1. -/
def faultRow (code : Nat) : Nat := code % 256

/-- The rows of group `g` that have class `c`, as a mask of LATCHED bits (bit row − 1). -/
def classMask (g : Nat) (c : FClass) : Nat :=
  (allFaults.filter fun r => faultGroup r.code = g ∧ r.cls = c).foldl (fun m r => m ||| 2 ^ (faultRow r.code - 1)) 0

/-- The fault with a given code. -/
def FaultId.ofCode (c : Nat) : Option FaultId := allFaults.find? fun f => f.code == c

/-- The condition checkers of R440: ACTIVE stays 1 while their condition holds. -/
def FaultId.isCondition : FaultId → Bool
  | .ADMIT_EXHAUSTED | .HM_DEGRADED | .TH_SENSOR | .TH_CRIT | .AK_LINK_DOWN | .CG_LINK_DOWN | .CG_CAPS_MISMATCH => true
  | _ => false

end Sys2Proof.Machine
end

