-- ==== Sys2Proof/Word.lean ====
section
/-! DEFINITION. The word types of the device: registers are 32 bits wide, memory is addressed in bytes (00, Register maps;
R471). -/
namespace Sys2Proof

/-- One byte of device memory. -/
abbrev Byte := BitVec 8

/-- One register (every register is 32 bits wide). -/
abbrev Word := BitVec 32

end Sys2Proof
end

