-- ==== Sys2Proof/Syntax.lean ====
section
/-! DEFINITION. The commands of the TD96: the inductive `Instr` with one constructor per row of the table, and the types of their
operands. The table gives no operand fields and no bits: the operands are what the spec's rules need to know of the event. -/
namespace Sys2Proof

open Machine (FaultId)

/-- The requester of a register or memory access (R456, R480): the safety pair, MC2, MC3, the Aknum window, the test access
port. -/
inductive Origin where
  | sp | mc2 | mc3 | host | debug
  deriving DecidableEq, Repr

/-- What the array returned for a read of Hearth words (R72, Table 03.4): clean data, a single-bit error at one of the 266 bit
positions, or an uncorrectable pattern. A word whose stored check bits are bad reads uncorrectable whatever is given here. -/
inductive EccResult where
  | clean
  | single (pos : Nat)
  | double
  deriving DecidableEq, Repr

/-- What a read of several Hearth words met, the re-read included (Table 03.4): clean words; one word with a single-bit error; one
uncorrectable word and what its re-read returned; or what several of its words met. -/
inductive ReadEvent where
  | clean
  | single (a : Nat) (pos : Nat)
  | double (a : Nat) (second : EccResult)
  | both (x : ReadEvent) (y : ReadEvent)
  deriving DecidableEq, Repr

/-- What the array returned for the word at `a`: the first read and the re-read. -/
def ReadEvent.at_ : ReadEvent → Nat → EccResult × EccResult
  | .clean, _ => (.clean, .clean)
  | .single w pos, a => if w = a then (.single pos, .clean) else (.clean, .clean)
  | .double w second, a => if w = a then (.double, second) else (.clean, .clean)
  | .both x y, a => if x.at_ a = (.clean, .clean) then y.at_ a else x.at_ a

/-- The kind of reader recorded in ECC_LOG_INFO.READER (R73). -/
inductive Reader where
  | functional | scrub | rmw
  deriving DecidableEq, Repr

/-- What the engine's cache met while a picture was decoded (R250): clean words; a single-bit error; or an uncorrectable word whose line read
clean on its refetch. An armed injection is met as it says. -/
inductive CacheEvent where
  | clean | corr | reread
  deriving DecidableEq, Repr

/-- A decoded picture hash SEI (R249): hash_type (0 MD5, 1 CRC, 2 checksum) and the hash of each colour component as a number. -/
structure PicHash where
  kind : Nat
  y : Nat
  cb : Nat
  cr : Nat
  deriving DecidableEq, Repr

/-- What the parse of an access unit shows of its picture (R229–R231, R245, R249): nuh_layer_id; whether it is an IRAP picture; what its SPS
declares, an extension included; whether the stream is field-coded, which changes nothing; its coded size, the conformance window (its
left and top offset and its size) and the size of its CTBs; PicOrderCntVal; pic_output_flag; the POCs of the references that it uses, and of
those that stay references; the bytes of the unit; its decoded picture hash; whether an IRAP picture begins a new coded video sequence
(NoRaslOutputFlag 1), and whether the pictures before it that still await output are then not output; whether it is a RASL picture; and the
numbers of the SPS that govern bumping: sps_max_num_reorder_pics, SpsMaxLatencyPictures (0: no limit) and the DPB size (Annex C.5.2). -/
structure PicFacts where
  irap : Bool
  profile : Nat
  level : Nat
  chroma : Nat
  depthY : Nat
  depthC : Nat
  codedW : Nat
  codedH : Nat
  cropW : Nat
  cropH : Nat
  vui : Bool
  primaries : Nat
  matrix : Nat
  full : Bool
  poc : Int
  output : Bool
  refs : List Int
  keep : List Int
  size : Nat
  hash : Option PicHash
  newSeq : Bool := false
  dropPrior : Bool := false
  layer : Nat := 0
  ext : Bool := false
  field : Bool := false
  rasl : Bool := false
  cropX : Nat := 0
  cropY : Nat := 0
  ctb : Nat := 64
  reorder : Nat := 0
  latency : Nat := 0
  buffering : Nat := 16
  deriving DecidableEq, Repr

/-- A prediction unit as the encoder would code it (R264): its place and size in luma samples, and the vectors that its search proposes, best
first, in quarter samples. -/
structure PuFact where
  x : Nat
  y : Nat
  w : Nat
  h : Nat
  cands : List (Int × Int)
  deriving DecidableEq, Repr

/-- A CTU as the encoder coded it: the bits it took, and its prediction units where it is not skip-coded (R264, R266). -/
structure CtuFact where
  bits : Nat
  pus : List PuFact := []
  deriving DecidableEq, Repr

/-- A frame of the vehicle network or of the Aknum management channel: the bus (0 CAN0, 1 CAN1, 2 Aknum), the identifier, whether it is an FD
frame, its payload, and whether it switches the bit rate. -/
structure CanFrame where
  bus : Nat
  id : Nat
  fd : Bool
  bs : List Byte
  brs : Bool := false
  deriving DecidableEq, Repr

/-- An equaliser step of the EQ state of Aknum training (R280, R281): a lane of the link, inbound (0–15, requested by the TD96) or outbound (16–19,
requested by the adapter), the tap (1 pre, 2 post), whether the step is +1, and the number of the request. -/
structure EqStep where
  lane : Nat
  tap : Nat
  up : Bool
  num : Nat
  deriving DecidableEq, Repr

/-- An equaliser request of a receiver of the TD96 (R281): the lane, the tap (1 pre, 2 post), whether the step is +1. -/
structure EqAsk where
  lane : Nat
  tap : Nat
  up : Bool
  deriving DecidableEq, Repr

/-- The commands of the block: one constructor for every row of spec/opcode_table.json, in the table's order. -/
inductive Instr where
  /-- REGISTER_WRITE (R477). Operands: requester, device address, value. -/
  | registerWrite (o : Origin) (a : Nat) (v : Word)
  /-- LO_REGISTER_READ (R480). Operands: requester and device address. -/
  | loRegisterRead (o : Origin) (a : Nat)
  /-- GLOBAL_LOCK_SET (R478). Operands: requester of the LOCK write. -/
  | globalLockSet (o : Origin)
  /-- COMMIT_GO (R21). Operands: requester, commit port and value written to CP_CTRL. -/
  | commitGo (o : Origin) (n : Nat) (v : Word)
  /-- ADMISSION (R26). Operands: commit port. -/
  | admission (n : Nat)
  /-- FRAME_BOUNDARY (R14). Operands: pipe, or 15 for the coasting master raster of FSYNC_IN (R179), measured phase error and measured frame-length difference in pixel clocks (R177). -/
  | frameBoundary (p : Nat) (e : Int) (d : Int)
  /-- IDLE_GRANT_TIMER (R406). -/
  | idleGrantTimer
  /-- COMMIT_LINE (R38). Operands: pipe. -/
  | commitLine (p : Nat)
  /-- STALE_LIMIT (R42). Operands: pipe and slot. -/
  | staleLimit (p : Nat) (k : Nat)
  /-- BEACON_LINE (R43). Operands: pipe. -/
  | beaconLine (p : Nat)
  /-- PREFETCH_START (R17). Operands: pipe. -/
  | prefetchStart (p : Nat)
  /-- LINE_EMIT (R174). Operands: pipe; pixels of the line that composition had reached at the emit point (R176); whether the capture buffer is full (R262). -/
  | lineEmit (p : Nat) (reached : Nat) (full : Bool)
  /-- WITNESS_CLOSE (R259). Operands: pipe. -/
  | witnessClose (p : Nat)
  /-- SHED_RESTORE (R55). Operands: requester and value written to SHED_CTRL. -/
  | shedRestore (o : Origin) (v : Word)
  /-- AUTO_RESTORE_STEP (R55). -/
  | autoRestoreStep
  /-- FSYNC_EDGE (R179). Operands: REFCLK periods since the last accepted edge (since the previous edge while lost), and since the stamp last incremented. -/
  | fsyncEdge (dt : Nat) (since : Nat)
  /-- FSYNC_LOST (R179). -/
  | fsyncLost
  /-- HEARTH_WINDOW_WRITE (R60). Operands: requester, physical address, bytes, what a read part returned. -/
  | hearthWindowWrite (o : Origin) (a : Nat) (bs : List Byte) (e : ReadEvent)
  /-- HEARTH_WINDOW_READ (R60). Operands: requester, physical address, bytes, what the array returned. -/
  | hearthWindowRead (o : Origin) (a : Nat) (n : Nat) (e : ReadEvent)
  /-- ALLOC (R62). Operands: requester and handle port. -/
  | alloc (o : Origin) (n : Nat)
  /-- FREE (R62). Operands: requester and handle port. -/
  | free (o : Origin) (n : Nat)
  /-- RESET (R62). Operands: requester and handle port. -/
  | reset (o : Origin) (n : Nat)
  /-- TRIM (R71). Operands: requester and handle port. -/
  | trim (o : Origin) (n : Nat)
  /-- QUERY (R62). Operands: requester and handle port. -/
  | query (o : Origin) (n : Nat)
  /-- HANDLE_RESULT_LATCH (R62). Operands: handle port. -/
  | handleResultLatch (n : Nat)
  /-- HEARTH_READ (R73). Operands: reader kind, word address, what the array returned. -/
  | hearthRead (r : Reader) (a : Nat) (e : EccResult)
  /-- ECC_REREAD (R73). Operands: reader kind, word address, what the second read returned. -/
  | eccReread (r : Reader) (a : Nat) (e : EccResult)
  /-- ECC_WRITEBACK (R73). Operands: word address. -/
  | eccWriteback (a : Nat)
  /-- HEARTH_WRITE_ACK (R75). Operands: index of the write among those in flight, what its read part returned. -/
  | hearthWriteAck (i : Nat) (e : ReadEvent)
  /-- SCRUB_READ (R76). Operands: what the array returned. -/
  | scrubRead (e : ReadEvent)
  /-- ECC_INJ (R77). Operands: requester and value. -/
  | eccInj (o : Origin) (v : Word)
  /-- INJ_PAR (R77). Operands: requester, whether FENCE_INJ_HI is written, value. -/
  | injPar (o : Origin) (hi : Bool) (v : Word)
  /-- CHANNEL_FENCE (R78). Operands: channel; whether its parity check failed (otherwise the word threshold). -/
  | channelFence (c : Nat) (par : Bool)
  /-- EVAC_CELL_MOVE (R78). Operands: fenced channel, what the copy read returned. -/
  | evacCellMove (c : Nat) (e : ReadEvent)
  /-- FENCE_CLEAR (R80). Operands: requester and value written to HEARTH STATUS. -/
  | fenceClear (o : Origin) (v : Word)
  /-- CHANNEL_ZERO_INIT_DONE (R80). Operands: channel. -/
  | channelZeroInitDone (c : Nat)
  /-- HEARTH_COLD_INIT_DONE (R84). -/
  | hearthColdInitDone
  /-- STAT_WINDOW_END (R85). -/
  | statWindowEnd
  /-- STAT_CLEAR (R85). Operands: requester and value written to STAT_CTRL. -/
  | statClear (o : Origin) (v : Word)
  /-- SLOT_FETCH (R94). Operands: pipe, slot, destination line, whether it is fetched for the next frame, what the array returned for its words. -/
  | slotFetch (p : Nat) (k : Nat) (y : Nat) (ahead : Bool) (e : ReadEvent)
  /-- SC_COEF_DATA_WRITE (R110). Operands: requester, pipe, value. -/
  | scCoefDataWrite (o : Origin) (p : Nat) (v : Word)
  /-- SC_COEF_RESET (R108). Operands: requester, pipe, value. -/
  | scCoefReset (o : Origin) (p : Nat) (v : Word)
  /-- CL_LUT_DATA_WRITE (R125). Operands: requester, pipe, value. -/
  | clLutDataWrite (o : Origin) (p : Nat) (v : Word)
  /-- CL_LUT_RESET (R125). Operands: requester, pipe, value. -/
  | clLutReset (o : Origin) (p : Nat) (v : Word)
  /-- WB_ARM (R132). Operands: requester, pipe, value written to WB_CTRL. -/
  | wbArm (o : Origin) (p : Nat) (v : Word)
  /-- WB_DONE (R133). Operands: pipe. -/
  | wbDone (p : Nat)
  /-- BEACON_APPLY (R142). Operands: requester and value written to BC_CTRL. -/
  | beaconApply (o : Origin) (v : Word)
  /-- TELLTALE_REQ_WRITE (R150). Operands: requester, tell-tale register set, value written to TT_STATE. -/
  | telltaleReqWrite (o : Origin) (i : Nat) (v : Word)
  /-- TELLTALE_TIMEOUT (R151). Operands: tell-tale register set. -/
  | telltaleTimeout (i : Nat)
  /-- E2E_FAILED_CLEAR (R161). Operands: requester, entry, value written to BE_E2E. -/
  | e2eFailedClear (o : Origin) (i : Nat) (v : Word)
  /-- BC_INJ (R163). Operands: requester and value. -/
  | bcInj (o : Origin) (v : Word)
  /-- CLUSTER_REDRAW (R167). Operands: sprites whose first read did not match although the atlas holds them intact. -/
  | clusterRedraw (bad : List Nat)
  /-- CLUSTER_SEALED (R167). -/
  | clusterSealed
  /-- CLUSTER_REDRAW_LATE (R167). -/
  | clusterRedrawLate
  /-- T_PWR_ON_ELAPSED (R185). Operands: pipe. -/
  | tPwrOnElapsed (p : Nat)
  /-- RASTER_RESTART (R183). Operands: pipe. -/
  | rasterRestart (p : Nat)
  /-- BACKLIGHT_ON (R185). Operands: pipe. -/
  | backlightOn (p : Nat)
  /-- T_BL_OFF_ELAPSED (R186). Operands: pipe. -/
  | tBlOffElapsed (p : Nat)
  /-- T_PWR_OFF_ELAPSED (R186). Operands: pipe. -/
  | tPwrOffElapsed (p : Nat)
  /-- PWM_PERIOD_START (R192). Operands: pipe. -/
  | pwmPeriodStart (p : Nat)
  /-- PNL_OUT_WRITE (R193). Operands: requester, pipe, value. -/
  | pnlOutWrite (o : Origin) (p : Nat) (v : Word)
  /-- DOORBELL (R200). Operands: requester, channel, value written to CH_DB_HI. -/
  | doorbell (o : Origin) (c : Nat) (v : Word)
  /-- RELOAD (R202). Operands: requester, channel, value written to CH_CTRL. -/
  | reload (o : Origin) (c : Nat) (v : Word)
  /-- PAUSE (R223). Operands: requester, channel, value written to CH_CTRL. -/
  | pause (o : Origin) (c : Nat) (v : Word)
  /-- ABORT (R224). Operands: requester, channel, value written to CH_CTRL. -/
  | abort (o : Origin) (c : Nat) (v : Word)
  /-- ABORT_DRAIN_DONE (R224). Operands: channel. -/
  | abortDrainDone (c : Nat)
  /-- DESCRIPTOR_READ_DONE (R201). Operands: channel. -/
  | descriptorReadDone (c : Nat)
  /-- DESCRIPTOR_CURRENT (R199). Operands: channel. -/
  | descriptorCurrent (c : Nat)
  /-- DMA_READ_ISSUE (R208). Operands: what the array returned for the Hearth words of a TO_HOST transfer. -/
  | dmaReadIssue (e : ReadEvent)
  /-- CPL_TIMEOUT (R215). Operands: tag. -/
  | cplTimeout (tag : Nat)
  /-- HELD_TAG_RELEASE (R215). Operands: tag. -/
  | heldTagRelease (tag : Nat)
  /-- DESCRIPTOR_COMPLETE (R213). Operands: channel; whether a staging word of the attempt was uncorrectable. -/
  | descriptorComplete (c : Nat) (stg : Bool)
  /-- DMA_LATE (R209). Operands: channel. -/
  | dmaLate (c : Nat)
  /-- DMA_INJ (R226). Operands: requester and value. -/
  | dmaInj (o : Origin) (v : Word)
  /-- DEC_OPEN (R232). Operands: requester and session. -/
  | decOpen (o : Origin) (i : Nat)
  /-- DEC_CLOSE (R234). Operands: requester and session. -/
  | decClose (o : Origin) (i : Nat)
  /-- DEC_FLUSH (R234). Operands: requester and session. -/
  | decFlush (o : Origin) (i : Nat)
  /-- DEC_RESET (R234). Operands: requester and session. -/
  | decReset (o : Origin) (i : Nat)
  /-- DS_RESULT_LATCH (R232). Operands: session. -/
  | dsResultLatch (i : Nat)
  /-- DEC_PICTURE_START (R243). Operands: session and what the parse of its next access unit shows. -/
  | decPictureStart (i : Nat) (f : PicFacts)
  /-- DEC_PICTURE_DONE (R249). Operands: CTUs that could not be decoded (R246), by raster address; what the cache met; Hearth words of the references that were read, and what the array returned. -/
  | decPictureDone (lost : List Nat) (cache : CacheEvent) (rd : List Nat) (e : ReadEvent)
  /-- DEC_OUTPUT (R240). Operands: session; what the array returned for the DPB entry. -/
  | decOutput (i : Nat) (e : ReadEvent)
  /-- DEC_OUT (R240). Operands: session. -/
  | decOut (i : Nat)
  /-- DEC_WATCHDOG (R251). Operands: CTUs of the abandoned picture that were not decoded, by raster address. -/
  | decWatchdog (lost : List Nat)
  /-- DEC_UNFENCE (R251). Operands: requester and value written to DEC_CTRL. -/
  | decUnfence (o : Origin) (v : Word)
  /-- DEC_INJ (R250). Operands: requester and value. -/
  | decInj (o : Origin) (v : Word)
  /-- ENC_OPEN (R256). Operands: requester and session. -/
  | encOpen (o : Origin) (i : Nat)
  /-- ENC_CLOSE (R258). Operands: requester and session. -/
  | encClose (o : Origin) (i : Nat)
  /-- FORCE_IDR (R258). Operands: requester and session. -/
  | forceIdr (o : Origin) (i : Nat)
  /-- ES_RESULT_LATCH (R256). Operands: session. -/
  | esResultLatch (i : Nat)
  /-- ENC_PICTURE_START (R263). -/
  | encPictureStart
  /-- ENC_PICTURE_DONE (R263). Operands: the CTUs in coding order, the slice as Annex B bytes, what the SRAM met and the window word it met it at, and what the Hearth reads returned. -/
  | encPictureDone (cs : List CtuFact) (slice : List Byte) (m : CacheEvent) (k : Nat) (e : ReadEvent)
  /-- ENC_WATCHDOG (R272). -/
  | encWatchdog
  /-- ENC_UNFENCE (R272). Operands: requester and value written to ENC_CTRL. -/
  | encUnfence (o : Origin) (v : Word)
  /-- ENC_INJ (R272). Operands: requester and value. -/
  | encInj (o : Origin) (v : Word)
  /-- AK_TRAIN_ADVANCE (R280). Operands: the adapter's ACCEPT, a mask of outbound lanes (CONFIG exit); the eye margins of the inbound lanes and the equaliser steps requested (EQ exit). -/
  | akTrainAdvance (acc : Nat) (margins : List Nat) (eq : List EqStep)
  /-- AK_TRAIN_LIMIT (R280). Operands: mask of the lanes that missed the limit; margins and equaliser steps as for AK_TRAIN_ADVANCE (EQ limit). -/
  | akTrainLimit (missed : Nat) (margins : List Nat) (eq : List EqStep)
  /-- FULL_TRAIN (R282). Operands: requester and value written to AK_CTRL. -/
  | fullTrain (o : Origin) (v : Word)
  /-- RETRAIN (R282). Operands: requester and value written to AK_CTRL. -/
  | retrain (o : Origin) (v : Word)
  /-- AK_RETRY_TIMER (R299). -/
  | akRetryTimer
  /-- AK_FLIT_RECEIVE (R286). Operands: the 256 bytes; lanes that showed a sync violation; packets of the flit, counted from 0, that the receive buffer returns uncorrectable; what the array returned for Hearth words that a packet reads; whether no assembly of an object view matches (R386). -/
  | akFlitReceive (bs : List Byte) (viol : List Nat) (rx : List Nat) (e : ReadEvent) (skew : Bool)
  /-- AK_FLIT_SEND (R285). Operands: an equaliser request that a receiver makes (R281). -/
  | akFlitSend (eq : Option EqAsk)
  /-- REPLAY_TIMEOUT (R287). Operands: whether it is the awaited inbound number. -/
  | replayTimeout (rx : Bool)
  /-- AK_IDLE_REQUEST (R296). -/
  | akIdleRequest
  /-- AK_IDLE_EXIT (R297). -/
  | akIdleExit
  /-- AK_LANE_FENCE (R294). Operands: lane. -/
  | akLaneFence (l : Nat)
  /-- LN_FENCE_CLEAR (R295). Operands: requester, lane and value written to LN_STATUS. -/
  | lnFenceClear (o : Origin) (l : Nat) (v : Word)
  /-- AK_CLK_LOSS (R299). -/
  | akClkLoss
  /-- AK_INJ (R302). Operands: requester and value. -/
  | akInj (o : Origin) (v : Word)
  /-- CG_TRAIN_ADVANCE (R310). Operands: port. -/
  | cgTrainAdvance (p : Nat)
  /-- CG_TRAIN_LIMIT (R310). Operands: port. -/
  | cgTrainLimit (p : Nat)
  /-- CG_FULL_TRAIN (R310). Operands: requester, port, value written to CG_CTRL. -/
  | cgFullTrain (o : Origin) (p : Nat) (v : Word)
  /-- CG_RETRAIN (R312). Operands: port. -/
  | cgRetrain (p : Nat)
  /-- CAPS (R314). Operands: port, SEQ, the body of the message, bytes 2 to 13, and its CRC field. -/
  | caps (p : Nat) (seq : Nat) (bs : List Byte) (crc : Nat)
  /-- STATUS (R314). Operands: port, SEQ, the body of the message, bytes 2 to 13, and its CRC field. -/
  | status (p : Nat) (seq : Nat) (bs : List Byte) (crc : Nat)
  /-- CRC_REPORT (R314). Operands: port, SEQ, the body of the message, bytes 2 to 13, and its CRC field. -/
  | crcReport (p : Nat) (seq : Nat) (bs : List Byte) (crc : Nat)
  /-- HOLD_ACK (R188). Operands: port, SEQ, the body of the message, bytes 2 to 13, and its CRC field. -/
  | holdAck (p : Nat) (seq : Nat) (bs : List Byte) (crc : Nat)
  /-- HOLD_NAK (R188). Operands: port, SEQ, the body of the message, bytes 2 to 13, and its CRC field. -/
  | holdNak (p : Nat) (seq : Nat) (bs : List Byte) (crc : Nat)
  /-- CG_EQ_REQ (R311). Operands: port, SEQ, the body of the message, bytes 2 to 13, and its CRC field. -/
  | cgEqReq (p : Nat) (seq : Nat) (bs : List Byte) (crc : Nat)
  /-- HELD_LOST (R319). Operands: port, SEQ, the body of the message and its CRC field. -/
  | heldLost (p : Nat) (seq : Nat) (bs : List Byte) (crc : Nat)
  /-- CG_BC_LOSS (R315). Operands: port. -/
  | cgBcLoss (p : Nat)
  /-- CG_LINE_THR (R321). Operands: port. -/
  | cgLineThr (p : Nat)
  /-- CG_INJ (R321). Operands: requester, port, value. -/
  | cgInj (o : Origin) (p : Nat) (v : Word)
  /-- PLL_LOCK_DONE (R328). Operands: PLL. -/
  | pllLockDone (i : Nat)
  /-- PLL_LOCK_FAIL (R328). Operands: PLL. -/
  | pllLockFail (i : Nat)
  /-- PLL_LOSS_OF_LOCK (R337). Operands: PLL. -/
  | pllLossOfLock (i : Nat)
  /-- FREQ_GUARD_TRIP (R337). Operands: PLL. -/
  | freqGuardTrip (i : Nat)
  /-- CLK_REF_LOSS (R340). -/
  | clkRefLoss
  /-- PLL_RESTART (R339). Operands: requester, PLL, value written to PLL_CTRL. -/
  | pllRestart (o : Origin) (i : Nat) (v : Word)
  /-- CLK_INJ (R338). Operands: requester and value. -/
  | clkInj (o : Origin) (v : Word)
  /-- LOCKMON_HOLD_EXPIRY (R336). -/
  | lockmonHoldExpiry
  /-- SOURCE_INPUT_CHANGE (R348). Operands: source; for LEVEL whether its input asserts; for EVENT the code, unit and argument of the record. -/
  | sourceInputChange (n : Nat) (b : Bool) (code : Nat) (unit : Nat) (arg : Nat)
  /-- SRC_PEND_WRITE (R349). Operands: requester, register number (of SRC_CFG: the source), value. -/
  | srcPendWrite (o : Origin) (n : Nat) (v : Word)
  /-- SRC_UNPEND_WRITE (R348). Operands: requester, register number (of SRC_CFG: the source), value. -/
  | srcUnpendWrite (o : Origin) (n : Nat) (v : Word)
  /-- SRC_CFG_WRITE (R346). Operands: requester, register number (of SRC_CFG: the source), value. -/
  | srcCfgWrite (o : Origin) (n : Nat) (v : Word)
  /-- INTC_ACKNOWLEDGE (R353). Operands: core target and the vector whose offer the core takes. -/
  | intcAcknowledge (t : Nat) (n : Nat)
  /-- TGT_CLAIM_READ (R354). Operands: requester and target. -/
  | tgtClaimRead (o : Origin) (t : Nat)
  /-- TGT_EOI (R355). Operands: requester, target, value. -/
  | tgtEoi (o : Origin) (t : Nat) (v : Word)
  /-- HOST_MSG_COMMIT (R358). Operands: host queue. -/
  | hostMsgCommit (q : Nat)
  /-- HQ_ACK (R358). Operands: requester, target, value. -/
  | hqAck (o : Origin) (t : Nat) (v : Word)
  /-- MODERATION_EXPIRY (R361). Operands: target and moderation group. -/
  | moderationExpiry (t : Nat) (g : Nat)
  /-- CORE_IDLE_CHANGE (R356). Operands: core target, whether its core waits for an interrupt, whether the core is held in reset. -/
  | coreIdleChange (t : Nat) (idle : Bool) (held : Bool)
  /-- REC_D2_READ (R480). Operands: requester. -/
  | recD2Read (o : Origin)
  /-- REC_STAT_READ (R480). Operands: requester. -/
  | recStatRead (o : Origin)
  /-- MBOX_RING (R344). Operands: requester and value. -/
  | mboxRing (o : Origin) (v : Word)
  /-- INTC_INJ (R364). Operands: requester and value. -/
  | intcInj (o : Origin) (v : Word)
  /-- READ (R373). Operands: frame; whether no view assembly matches within 2 master orbits (R386). -/
  | read (fr : CanFrame) (skew : Bool)
  /-- WRITE (R373). Operands: frame; what the array returned for words of a buffer that a DATA write covers in part (R388). -/
  | write (fr : CanFrame) (e : ReadEvent)
  /-- CLASSIC_READ (R374). Operands: frame; whether no view assembly matches within 2 master orbits (R386). -/
  | classicRead (fr : CanFrame) (skew : Bool)
  /-- SEG_READ_INIT (R375). Operands: frame; whether no view assembly matches within 2 master orbits (R386). -/
  | segReadInit (fr : CanFrame) (skew : Bool)
  /-- SEG_WRITE_INIT (R375). Operands: frame. -/
  | segWriteInit (fr : CanFrame)
  /-- SEG_DATA (R375). Operands: frame. -/
  | segData (fr : CanFrame)
  /-- SEG_ACK (R375). Operands: frame. -/
  | segAck (fr : CanFrame)
  /-- SEG_END (R375). Operands: frame; what the array returned for words of a buffer that a DATA write covers in part (R388). -/
  | segEnd (fr : CanFrame) (e : ReadEvent)
  /-- OD_ABORT (R373). Operands: frame. -/
  | odAbort (fr : CanFrame)
  /-- SEG_TIMEOUT (R375). Operands: bus. -/
  | segTimeout (b : Nat)
  /-- STATE_FRAME (R382). Operands: frame. -/
  | stateFrame (fr : CanFrame)
  /-- SF_TIMEOUT (R382). -/
  | sfTimeout
  /-- PROOF_FRAME (R383). -/
  | proofFrame
  /-- CLAIM (R385). Operands: requester of the OWN_u write and unit; the VEHICLE path claims through object 0x1080 + u (WRITE). -/
  | claim (o : Origin) (u : Nat)
  /-- OWN_RELEASE (R385). Operands: requester of the OWN_u write and unit; the VEHICLE path claims through object 0x1080 + u (WRITE). -/
  | ownRelease (o : Origin) (u : Nat)
  /-- ASSIGN (R385). Operands: requester of the OWN_u write, unit and new owner. -/
  | assign (o : Origin) (u : Nat) (w : Nat)
  /-- MGMT_DATA_SKEW (R386). -/
  | mgmtDataSkew
  /-- CAN_BUSOFF (R390). Operands: controller. -/
  | canBusoff (n : Nat)
  /-- BUSOFF_RECOVERY (R390). Operands: controller. -/
  | busoffRecovery (n : Nat)
  /-- OD_INJ (R393). Operands: requester and value. -/
  | odInj (o : Origin) (v : Word)
  /-- SMOULDER_REQUEST (R399). Operands: requester of the PWR_STATE write. -/
  | smoulderRequest (o : Origin)
  /-- EMBER_REQUEST (R399). Operands: requester of the PWR_STATE write. -/
  | emberRequest (o : Origin)
  /-- POWER_STATE_REACHED (R400). -/
  | powerStateReached
  /-- PGOOD_STUCK (R400). -/
  | pgoodStuck
  /-- WAKE (R401). Operands: the inputs of Table 16.2 that are seen, as a mask. -/
  | wake (m : Nat)
  /-- PGOOD_RISE (R419). -/
  | pgoodRise
  /-- MAIN_RESET_RELEASE (R419). Operands: which metadata copies read with a CRC mismatch, as a mask (R83). -/
  | mainResetRelease (bad : Nat)
  /-- PGOOD_LOST (R403). -/
  | pgoodLost
  /-- RESET_N_ASSERT (R434). -/
  | resetNAssert
  /-- RESET_N_RELEASE (R434). -/
  | resetNRelease
  /-- PWR_BUDGET_WRITE (R405). Operands: requester and value. -/
  | pwrBudgetWrite (o : Origin) (v : Word)
  /-- TH_SENSOR_READ (R410). Operands: the readings of the 16 sensors in units of 0.25 degrees. -/
  | thSensorRead (ts : List Int)
  /-- AVS_PERIOD (R412). Operands: worst margin in ps; the voltage in mV that the first and the second AVSBus exchange read back (none: CRC or acknowledge failed). -/
  | avsPeriod (m : Nat) (r1 : Option Nat) (r2 : Option Nat)
  /-- PWR_INJ (R414). Operands: requester and value. -/
  | pwrInj (o : Origin) (v : Word)
  /-- KINDLING_CONFIG (R424). Operands: items (0 the header) whose first read from flash failed and whose second did not (R420). -/
  | kindlingConfig (bad : List Nat)
  /-- KINDLING_DONE (R429). -/
  | kindlingDone
  /-- FAULT_REPORT (R437). Operands: the checker that reports, and where the local outcome of its row needs them the unit and two further places. -/
  | faultReport (f : FaultId) (u : Nat) (v : Nat) (w : Nat)
  /-- FAULT_QUIET_EXPIRY (R440). Operands: the fault. -/
  | faultQuietExpiry (f : FaultId)
  /-- FC_STAT_CLEAR (R441). Operands: requester, fault group, value written to FC_STAT. -/
  | fcStatClear (o : Origin) (g : Nat) (v : Word)
  /-- FC_CLEAR (R450). Operands: requester and value. -/
  | fcClear (o : Origin) (v : Word)
  /-- FC_KICK (R444). Operands: requester and value. -/
  | fcKick (o : Origin) (v : Word)
  /-- GLOW_HALF_PERIOD (R444). -/
  | glowHalfPeriod
  /-- FC_SCKICK (R445). Operands: requester and value. -/
  | fcSckick (o : Origin) (v : Word)
  /-- SC_WDT (R445). Operands: service core, 2 or 3. -/
  | scWdt (c : Nat)
  /-- FC_FIRST_CLEAR (R443). Operands: requester and value. -/
  | fcFirstClear (o : Origin) (v : Word)
  /-- FC_INJ (R452). Operands: requester and value. -/
  | fcInj (o : Origin) (v : Word)
  /-- LIFECYCLE_REQUEST (R457). Operands: requester and value written to SEC_LC. -/
  | lifecycleRequest (o : Origin) (v : Word)
  /-- CHAL_REQ (R461). Operands: requester of the SEC_DBG_CTRL write. -/
  | chalReq (o : Origin)
  /-- SUBMIT (R460). Operands: requester of the SEC_DBG_CTRL write. -/
  | submit (o : Origin)
  /-- CLOSE (R462). Operands: requester of the SEC_DBG_CTRL write. -/
  | close (o : Origin)
  /-- PROGRAM (R464). Operands: requester of the SEC_KEY_CMD write and its SLOT. -/
  | program (o : Origin) (n : Nat)
  /-- REVOKE (R465). Operands: requester of the SEC_KEY_CMD write and its SLOT. -/
  | revoke (o : Origin) (n : Nat)
  /-- PROGRAM_CPK (R464). Operands: requester of the SEC_KEY_CMD write and its SLOT. -/
  | programCpk (o : Origin) (n : Nat)
  /-- PROGRAM_PWD (R464). Operands: requester of the SEC_KEY_CMD write. -/
  | programPwd (o : Origin)
  /-- OTP_PROGRAM_DONE (R464). Operands: whether the programming verified. -/
  | otpProgramDone (ok : Bool)
  /-- RECOVER_GO (R468). Operands: requester of the SEC_RECOVER write. -/
  | recoverGo (o : Origin)
  /-- EMBER_POWER_ON (R490). -/
  | emberPowerOn
  /-- EMBER_SUPPLY_LOSS (R489). -/
  | emberSupplyLoss
  /-- CG_BC_CRC (R315). Operands: port and the 16 bytes of a message. -/
  | cgBcCrc (p : Nat) (bs : List Byte)
  /-- CAN_BUS_ERROR (R369). Operands: controller and its error counters after the error or the frame. -/
  | canBusError (n : Nat) (tx : Nat) (rx : Nat)
  /-- CG_DETECT_RETRY (R312). Operands: port. -/
  | cgDetectRetry (p : Nat)
  /-- CLUSTER_SIGNAL_TIMEOUT (R166). Operands: signal number, 1 to 4. -/
  | clusterSignalTimeout (n : Nat)
  /-- CRYSTAL_STABLE (R497). -/
  | crystalStable
  /-- CORE_HALT (R462). Operands: core (0 the safety pair, 2, 3) and whether it is halted. -/
  | coreHalt (c : Nat) (b : Bool)
  /-- RECOVER_DONE (R468). Operands: whether flash slot A verifies after its write. -/
  | recoverDone (ok : Bool)
  deriving DecidableEq, Repr

end Sys2Proof
end

