-- ==== Sys2Proof/WellFormed.lean ====
section
/-! DEFINITION. The well-formed commands: unit numbers, lengths and addresses within what the spec gives the device. A meaning leaves the
state as it is on a command for a unit that does not exist. -/
namespace Sys2Proof

/-- An ECC result names one of the 266 bits of a Hearth word (R72). -/
def EccResult.wf : EccResult → Bool
  | .clean | .double => true
  | .single pos => pos < 266

/-- The ECC results of a read of several words. -/
def ReadEvent.wf : ReadEvent → Bool
  | .clean => true
  | .single a pos => a < 2 ^ 28 && pos < 266
  | .double a second => a < 2 ^ 28 && second.wf
  | .both x y => x.wf && y.wf

/-- A frame of CAN0 or CAN1 (R369), or an MGT packet of Aknum (R290). -/
def CanFrame.wf (fr : CanFrame) : Bool :=
  if fr.bus < 2 then fr.id < 2 ^ 29 && fr.bs.length ≤ (if fr.fd then 64 else 8) && (fr.fd || !fr.brs)
  else fr.bus == 2 && fr.bs.length ≤ 256 && !fr.brs

/-- Whether the operands of a command name what exists. -/
def Instr.wf : Instr → Bool
  | .registerWrite _ a _ => (a < 2 ^ 32)
  | .loRegisterRead _ a => (a < 2 ^ 32)
  | .globalLockSet _ => true
  | .commitGo _ n _ => (n < 3)
  | .admission n => (n < 3)
  | .frameBoundary p _ _ => (p < 12 || p == 15)
  | .idleGrantTimer => true
  | .commitLine p => (p < 12)
  | .staleLimit p k => (p < 12) && (k < 8)
  | .beaconLine p => (p < 12)
  | .prefetchStart p => (p < 12)
  | .lineEmit p _ _ => (p < 12)
  | .witnessClose p => (p < 12)
  | .shedRestore _ _ => true
  | .autoRestoreStep => true
  | .fsyncEdge _ _ => true
  | .fsyncLost => true
  | .hearthWindowWrite _ a bs e => (a + bs.length ≤ 2 ^ 28) && e.wf
  | .hearthWindowRead _ a n e => (a + n ≤ 2 ^ 28) && e.wf
  | .alloc _ n => (n < 3)
  | .free _ n => (n < 3)
  | .reset _ n => (n < 3)
  | .trim _ n => (n < 3)
  | .query _ n => (n < 3)
  | .handleResultLatch n => (n < 3)
  | .hearthRead _ a e => (a < 2 ^ 28) && e.wf
  | .eccReread _ a e => (a < 2 ^ 28) && e.wf
  | .eccWriteback a => (a < 2 ^ 28)
  | .hearthWriteAck _ e => e.wf
  | .scrubRead e => e.wf
  | .eccInj _ _ => true
  | .injPar _ _ _ => true
  | .channelFence c _ => (c < 8)
  | .evacCellMove c e => (c < 8) && e.wf
  | .fenceClear _ _ => true
  | .channelZeroInitDone c => (c < 8)
  | .hearthColdInitDone => true
  | .statWindowEnd => true
  | .statClear _ _ => true
  | .slotFetch p k _ _ e => (p < 12) && (k < 8) && e.wf
  | .scCoefDataWrite _ p _ => (p < 12)
  | .scCoefReset _ p _ => (p < 12)
  | .clLutDataWrite _ p _ => (p < 12)
  | .clLutReset _ p _ => (p < 12)
  | .wbArm _ p _ => (p < 12)
  | .wbDone p => (p < 12)
  | .beaconApply _ _ => true
  | .telltaleReqWrite _ i _ => (i < 64)
  | .telltaleTimeout i => (i < 64)
  | .e2eFailedClear _ i _ => (i < 4)
  | .bcInj _ _ => true
  | .clusterRedraw _ => true
  | .clusterSealed => true
  | .clusterRedrawLate => true
  | .tPwrOnElapsed p => (p < 12)
  | .rasterRestart p => (p < 12)
  | .backlightOn p => (p < 12)
  | .tBlOffElapsed p => (p < 12)
  | .tPwrOffElapsed p => (p < 12)
  | .pwmPeriodStart p => (p < 12)
  | .pnlOutWrite _ p _ => (p < 12)
  | .doorbell _ c _ => (c < 112)
  | .reload _ c _ => (c < 112)
  | .pause _ c _ => (c < 112)
  | .abort _ c _ => (c < 112)
  | .abortDrainDone c => (c < 112)
  | .descriptorReadDone c => (c < 112)
  | .descriptorCurrent c => (c < 112)
  | .dmaReadIssue e => e.wf
  | .cplTimeout tag => (tag < 1024)
  | .heldTagRelease tag => (tag < 1024)
  | .descriptorComplete c _ => (c < 112)
  | .dmaLate c => (c < 112)
  | .dmaInj _ _ => true
  | .decOpen _ i => (i < 16)
  | .decClose _ i => (i < 16)
  | .decFlush _ i => (i < 16)
  | .decReset _ i => (i < 16)
  | .dsResultLatch i => (i < 16)
  | .decPictureStart i _ => (i < 16)
  | .decPictureDone _ _ _ e => e.wf
  | .decOutput i e => (i < 16) && e.wf
  | .decOut i => (i < 16)
  | .decWatchdog _ => true
  | .decUnfence _ _ => true
  | .decInj _ _ => true
  | .encOpen _ i => (i < 12)
  | .encClose _ i => (i < 12)
  | .forceIdr _ i => (i < 12)
  | .esResultLatch i => (i < 12)
  | .encPictureStart => true
  | .encPictureDone _ _ _ _ e => e.wf
  | .encWatchdog => true
  | .encUnfence _ _ => true
  | .encInj _ _ => true
  | .akTrainAdvance acc margins eq => (acc < 16) && (margins.length ≤ 16) && (eq.all fun q => q.lane < 20 && (q.tap == 1 || q.tap == 2))
  | .akTrainLimit missed margins eq => (margins.length ≤ 16) && (eq.all fun q => q.lane < 20 && (q.tap == 1 || q.tap == 2)) && (missed < 2 ^ 20)
  | .fullTrain _ _ => true
  | .retrain _ _ => true
  | .akRetryTimer => true
  | .akFlitReceive bs viol rx e _ => e.wf && (rx.all fun k => k < 30) && (bs.length == 256) && (viol.all fun l => l < 16)
  | .akFlitSend _ => true
  | .replayTimeout _ => true
  | .akIdleRequest => true
  | .akIdleExit => true
  | .akLaneFence l => (l < 20)
  | .lnFenceClear _ l _ => (l < 20)
  | .akClkLoss => true
  | .akInj _ _ => true
  | .cgTrainAdvance p => (p < 12)
  | .cgTrainLimit p => (p < 12)
  | .cgFullTrain _ p _ => (p < 12)
  | .cgRetrain p => (p < 12)
  | .caps p seq bs crc => (p < 12) && (seq < 256) && (bs.length == 12) && (crc < 2 ^ 16)
  | .status p seq bs crc => (p < 12) && (seq < 256) && (bs.length == 12) && (crc < 2 ^ 16)
  | .crcReport p seq bs crc => (p < 12) && (seq < 256) && (bs.length == 12) && (crc < 2 ^ 16)
  | .holdAck p seq bs crc => (p < 12) && (seq < 256) && (bs.length == 12) && (crc < 2 ^ 16)
  | .holdNak p seq bs crc => (p < 12) && (seq < 256) && (bs.length == 12) && (crc < 2 ^ 16)
  | .cgEqReq p seq bs crc => (p < 12) && (seq < 256) && (bs.length == 12) && (crc < 2 ^ 16)
  | .heldLost p seq bs crc => (p < 12) && (seq < 256) && (bs.length == 12) && (crc < 2 ^ 16)
  | .cgBcLoss p => (p < 12)
  | .cgLineThr p => (p < 12)
  | .cgInj _ p _ => (p < 12)
  | .pllLockDone i => (i < 15)
  | .pllLockFail i => (i < 15)
  | .pllLossOfLock i => (i < 15)
  | .freqGuardTrip i => (i < 15)
  | .clkRefLoss => true
  | .pllRestart _ i _ => (i < 15)
  | .clkInj _ _ => true
  | .lockmonHoldExpiry => true
  | .sourceInputChange n _ _ _ _ => (n < 256)
  | .srcPendWrite _ n _ => (n < 8)
  | .srcUnpendWrite _ n _ => (n < 8)
  | .srcCfgWrite _ n _ => (n < 256)
  | .intcAcknowledge t _ => (t < 4)
  | .tgtClaimRead _ t => (t < 8)
  | .tgtEoi _ t _ => (t < 8)
  | .hostMsgCommit q => (q < 4)
  | .hqAck _ t _ => (t < 8)
  | .moderationExpiry t g => (t < 8) && (g < 16)
  | .coreIdleChange t _ _ => (t < 4)
  | .recD2Read _ => true
  | .recStatRead _ => true
  | .mboxRing _ _ => true
  | .intcInj _ _ => true
  | .read fr _ => fr.wf
  | .write fr e => e.wf && fr.wf
  | .classicRead fr _ => fr.wf
  | .segReadInit fr _ => fr.wf
  | .segWriteInit fr => fr.wf
  | .segData fr => fr.wf
  | .segAck fr => fr.wf
  | .segEnd fr e => e.wf && fr.wf
  | .odAbort fr => fr.wf
  | .segTimeout b => (b < 3)
  | .stateFrame fr => fr.wf
  | .sfTimeout => true
  | .proofFrame => true
  | .claim _ u => (u < 17)
  | .ownRelease _ u => (u < 17)
  | .assign _ u w => (u < 17) && (w < 4)
  | .mgmtDataSkew => true
  | .canBusoff n => (n < 2)
  | .busoffRecovery n => (n < 2)
  | .odInj _ _ => true
  | .smoulderRequest _ => true
  | .emberRequest _ => true
  | .powerStateReached => true
  | .pgoodStuck => true
  | .wake _ => true
  | .pgoodRise => true
  | .mainResetRelease bad => (bad < 4)
  | .pgoodLost => true
  | .resetNAssert => true
  | .resetNRelease => true
  | .pwrBudgetWrite _ _ => true
  | .thSensorRead ts => (ts.length == 16)
  | .avsPeriod _ _ _ => true
  | .pwrInj _ _ => true
  | .kindlingConfig bad => (bad.all fun i => i < 8)
  | .kindlingDone => true
  | .faultReport _ _ _ _ => true
  | .faultQuietExpiry _ => true
  | .fcStatClear _ g _ => (1 ≤ g && g ≤ 14)
  | .fcClear _ _ => true
  | .fcKick _ _ => true
  | .glowHalfPeriod => true
  | .fcSckick _ _ => true
  | .scWdt c => (c == 2 || c == 3)
  | .fcFirstClear _ _ => true
  | .fcInj _ _ => true
  | .lifecycleRequest _ _ => true
  | .chalReq _ => true
  | .submit _ => true
  | .close _ => true
  | .program _ n => (n < 8)
  | .revoke _ n => (n < 8)
  | .programCpk _ n => (n < 8)
  | .programPwd _ => true
  | .otpProgramDone _ => true
  | .recoverGo _ => true
  | .emberPowerOn => true
  | .emberSupplyLoss => true
  | .cgBcCrc p bs => (p < 12) && (bs.length == 16)
  | .canBusError n tx rx => (n < 2) && (tx < 2 ^ 16 && rx < 2 ^ 16)
  | .cgDetectRetry p => (p < 12)
  | .clusterSignalTimeout n => (1 ≤ n && n ≤ 4)
  | .crystalStable => true
  | .coreHalt c _ => (c == 0 || c == 2 || c == 3)
  | .recoverDone _ => true

end Sys2Proof
end

