-- ==== Sys2Proof/Decode.lean ====
section
/-! DEFINITION. The table of commands gives no row any bits: no word spells a command. -/
namespace Sys2Proof

/-- The command that `nbits` bits spell: none, since no row of the table has an encoding. (DESIGN CHOICE, log 17.) -/
def decodeTableWord (_nbits _w : Nat) : Option Instr := none

end Sys2Proof
end

