-- ==== Sys2Proof/Config.lean ====
section
/-! DEFINITION. The free values: what the spec leaves open and the machine nevertheless produces. Each is an opaque constant
without a body, so no proof can see a value of it; a statement that mentions one holds whatever it is. -/
namespace Sys2Proof.Config

/-- The part of the SECDED syndrome that the matrix decides for a single-bit error at a bit position (R73). (DEDUCED, log 303.) -/
opaque syndromeOfBit : Nat → Nat

/-- The part of the SECDED syndrome that the matrix decides for an uncorrectable pattern, indexed by a counter (R73).
(DESIGN CHOICE, log 2; DEDUCED, log 303.) -/
opaque syndromeOfDouble : Nat → Nat

/-- The bytes of a copy of the handle table in its metadata cell, by whether its CRC is intact and the table as numbers: the spec lists what a
copy holds but not its layout (R82). (DEDUCED, log 316.) -/
opaque metaImage : Nat → List Nat → List Byte

/-- Master frames from the acceptance of a commit to the first counted frame of a pipe that it starts, or that is starting or relocking,
as admission predicts them (R24, R27), indexed by a counter. (DESIGN CHOICE, log 2; DEDUCED, log 201.) -/
opaque startDelay : Nat → Nat

/-- What a PLL's band search ends in, whether its fine code is saturated, and what its output counts in units of 1,000 Hz, indexed by a
counter (R326, R327, R342). (DESIGN CHOICE, log 2; DEDUCED, log 1301.) -/
opaque pllBand : Nat → Nat
opaque pllClamped : Nat → Nat
opaque pllMeas : Nat → Nat

/-- A sample of a decoded picture by the index of the picture, the component (0 luma, 1 Cb, 2 Cr), the line and the column, as H.265 fixes it and
this spec does not; and the low bits that the container of a 10-bit sample leaves open, by the counter at the write (R229, R239).
(DEDUCED, log 901.) -/
opaque decodedSample : Nat → Nat → Nat → Nat → Nat
opaque decodedPad : Nat → Nat → Nat → Nat → Nat

/-- A byte of the motion records of a decoded picture, by the index of the picture and the byte: their layout is the engine's (R238); and
a byte of a sample that does not fit the storage depth of its session. (DEDUCED, log 902.) -/
opaque motionByte : Nat → Nat → Nat

/-- The Annex B bytes of the VPS, SPS and PPS that declare the parameters of R254, as numbers in the order of `StreamParams`; a sample that the
encoder reconstructs, by the index of its picture, the component, the line and the column: H.265 gives the syntax, and the encoder's own
choices the rest. (DEDUCED, log 1001.) -/
opaque paramSets : List Nat → List Byte
opaque reconSample : Nat → Nat → Nat → Nat → Nat

/-- The STATE byte of an Aknum TS block for EQ_DONE (0) and START (1), to which the spec gives no code (R280). (DESIGN CHOICE, log 1114.) -/
opaque tsState : Nat → Nat

/-- Words of the random number generator: nonces and challenges (R381, R461), indexed by a counter.
(DESIGN CHOICE, log 2; DEDUCED, log 1901.) -/
opaque random : Nat → Nat

/-- The SRC_CFG entry that an armed parity injection meets (R364), indexed by a counter. (DEDUCED, log 1404.) -/
opaque checkedEntry : Nat → Nat

/-- The package key in the boot ROM (R466), X then Y, 64 bytes big-endian; the device-unique key of slot 7 (R463), 16 bytes.
(DEDUCED, log 1901.) -/
opaque packageKey : List Byte
opaque deviceKey : List Byte

/-- STATE of object 0x3050 for a request that was never made (0), granted (1) or refused (2): the spec gives no encoding (R154).
(DESIGN CHOICE, log 1510.) -/
opaque holdState : Nat → Nat

/-- A byte of the boot ROM by address (Table 20.1); the spec does not give its contents. (DEDUCED, log 1901.) -/
opaque bootRom : Nat → Nat

end Sys2Proof.Config
end

