-- ==== Sys2Proof/Machine/Bits.lean ====
section
/-! DEFINITION. Bit fields, signed values, byte order and checksums: the helpers that the meanings of every block share. -/
namespace Sys2Proof.Machine

/-- The bits [hi:lo] of a number. -/
def bits (n hi lo : Nat) : Nat := (n >>> lo) % 2 ^ (hi - lo + 1)

/-- Bit `i` of a number. -/
def bit (n i : Nat) : Bool := (n >>> i) % 2 == 1

/-- 1 for true, 0 for false. -/
def b2n (b : Bool) : Nat := if b then 1 else 0

/-- `n` with the bits [hi:lo] replaced by the low bits of `v`. -/
def setBits (n hi lo v : Nat) : Nat :=
  n - (bits n hi lo) * 2 ^ lo + (v % 2 ^ (hi - lo + 1)) * 2 ^ lo

/-- `n` with bit `i` set to `b`. -/
def setBit (n i : Nat) (b : Bool) : Nat := setBits n i i (b2n b)

/-- `ceil (a / b)`. -/
def cdiv (a b : Nat) : Nat := if b = 0 then 0 else (a + b - 1) / b

/-- The value of an `n`-bit two's complement number. -/
def sext (v n : Nat) : Int := if v % 2 ^ n < 2 ^ (n - 1) then (v % 2 ^ n : Nat) else (v % 2 ^ n : Nat) - (2 ^ n : Nat)

/-- The `n`-bit two's complement encoding of an integer. -/
def toTwos (v : Int) (n : Nat) : Nat := (v % (2 ^ n : Nat)).toNat

/-- Limits an integer to `lo` … `hi`. -/
def clampI (lo hi v : Int) : Int := if v < lo then lo else if hi < v then hi else v

/-- Limits an integer to the 12-bit component range 0–4095 (R92). -/
def clamp12 (v : Int) : Nat := (clampI 0 4095 v).toNat

/-- Arithmetic shift right by `n`. -/
def asr (v : Int) (n : Nat) : Int := v / (2 ^ n : Nat)

/-- A payload with zero bytes up to a length. -/
def padTo (bs : List Byte) (n : Nat) : List Byte := bs ++ List.replicate (n - bs.length) 0#8

/-- A number rounded up to a multiple of 8. -/
def pad8 (n : Nat) : Nat := 8 * cdiv n 8

/-- A saturating increment. -/
def satInc (v max : Nat) : Nat := if v < max then v + 1 else max

/-- A saturating sum. -/
def satAdd (v k max : Nat) : Nat := if v + k < max then v + k else max

/-- A little-endian number from its bytes. (DEDUCED, log 9.) -/
def leNat : List Byte → Nat
  | [] => 0
  | b :: bs => b.toNat + 256 * leNat bs

/-- The `n` low bytes of a number, little-endian. (DEDUCED, log 9.) -/
def leBytes : Nat → Nat → List Byte
  | 0, _ => []
  | n + 1, v => BitVec.ofNat 8 (v % 256) :: leBytes n (v / 256)

/-- A big-endian number from its bytes. -/
def beNat (bs : List Byte) : Nat := bs.foldl (fun a b => a * 256 + b.toNat) 0

/-- The `n` low bytes of a number, big-endian. -/
def beBytes (n v : Nat) : List Byte := (leBytes n v).reverse

/-- One step of a reflected CRC over 32 bits with polynomial `poly`, for one bit already folded into `c`. -/
def crcStep (poly c : Nat) : Nat := if c % 2 = 1 then (c / 2) ^^^ poly else c / 2

/-- `n` steps of a reflected CRC. -/
def crcSteps (poly : Nat) : Nat → Nat → Nat
  | 0, c => c
  | n + 1, c => crcSteps poly n (crcStep poly c)

/-- A reflected CRC of a byte string, from register value `c`. -/
def crcBytes (poly : Nat) : Nat → List Byte → Nat
  | c, [] => c
  | c, b :: bs => crcBytes poly (crcSteps poly 8 (c ^^^ b.toNat)) bs

/-- The running value of CRC-32C (Castagnoli, reflected polynomial 0x82F63B78) after more bytes; a computation starts from
0xFFFFFFFF and ends with `crcFinal`. -/
def crc32cUpdate (c : Nat) (bs : List Byte) : Nat := crcBytes 0x82F63B78 c bs

/-- The CRC-32 of R157 continued over bytes: reflected polynomial 0x04C1_1DB7. -/
def crc32Update (c : Nat) (bs : List Byte) : Nat := crcBytes 0xEDB88320 c bs

/-- The final inversion of a CRC-32 or CRC-32C. -/
def crcFinal (c : Nat) : Nat := c ^^^ 0xFFFFFFFF

/-- CRC-32C of a byte string. -/
def crc32c (bs : List Byte) : Nat := crcFinal (crc32cUpdate 0xFFFFFFFF bs)

/-- The numbers `a`, `a + 1`, …, `n` of them. -/
def rangeFrom : Nat → Nat → List Nat
  | _, 0 => []
  | a, n + 1 => a :: rangeFrom (a + 1) n

/-- Replaces entry `i` of a list. -/
def setAt {α : Type} : List α → Nat → α → List α
  | [], _, _ => []
  | _ :: xs, 0, v => v :: xs
  | x :: xs, n + 1, v => x :: setAt xs n v

/-- The numbers of the bits set in the low `n` bits of a mask, ascending. -/
def maskBits (n mask : Nat) : List Nat := (rangeFrom 0 n).filter fun i => bit mask i

/-- The sum of a list. -/
def sumNat (xs : List Nat) : Nat := xs.foldl (· + ·) 0

/-- The largest entry of a list, 0 where it is empty. -/
def maxNat (xs : List Nat) : Nat := xs.foldl max 0

end Sys2Proof.Machine
end

