-- ==== Sys2Proof/Machine/RegName.lean ====
section
/-! DEFINITION. The registers of the TD96 by name: the numbering of Table 20.4 (R483) and, for every field of every
register map, a reference (address, high bit, low bit). The numbers are those of the register maps of the spec. -/
namespace Sys2Proof.Machine

/-- A field of a register: the device address of the register and the field's bits [hi:lo]. -/
structure FRef where
  addr : Nat
  hi : Nat
  lo : Nat
  deriving DecidableEq, Repr

/-- The registers indexed in Table 20.4 (R483), one name for every row of a block; instances carry indices. -/
inductive RegName where
  | GLB_ID
  | GLB_LOCK
  | SERIAL_LO
  | SERIAL_HI
  | FW_VERSION
  | ORB_CTRL
  | ORB_STATUS
  | STAMP_LO
  | STAMP_HI
  | CAPACITY
  | SHED_CTRL
  | PIPE_ORBIT
  | PIPE_POS
  | PIPE_PEND
  | CP_CTRL
  | CP_PIPES
  | CP_TARGET_LO
  | CP_TARGET_HI
  | CP_TAG
  | CP_RESULT
  | CP_DETAIL
  | ADM_CELLS
  | ADM_HBW
  | ADM_HBW_AVAIL
  | ADM_LINK
  | ADM_LINK_AVAIL
  | ADM_TOKENS
  | SHED
  | HM_CTRL
  | HM_STATUS
  | HEARTH_RSV
  | HM_FREE
  | FENCE_CFG
  | FENCE_INJ_HI
  | ECC_INJ
  | ECC_LOG_ADDR
  | ECC_LOG_INFO
  | STAT_CTRL
  | STAT_RD
  | STAT_WR
  | STAT_SPEC_RD
  | STAT_SPEC_WR
  | STAT_ERR
  | HP_SEL
  | HP_CMD
  | HP_RESULT
  | HP_SIZE0
  | HP_SIZE1
  | HP_SIZE2
  | HP_STATUS
  | TG_CTRL
  | TG_RATE
  | TG_HACT
  | TG_HSYNC
  | TG_VACT
  | TG_VSYNC
  | TG_SYNC
  | TG_LINE_INT
  | TG_STATUS
  | TG_PHASE
  | TG_VADJ
  | BANK_CFG
  | BANK_STAT
  | PNL_SEQ
  | PNL_CFG
  | PNL_OUT
  | BL_PWM_PERIOD
  | BL_PWM_DUTY
  | BL_PWM_MIN
  | PB_BG
  | CL_CTRL
  | CL_MAT_0
  | CL_MAT_1
  | CL_MAT_2
  | CL_MAT_3
  | CL_MAT_4
  | CL_OFF_RG
  | CL_OFF_B
  | CL_LUT_ADDR
  | CL_LUT_DATA
  | CL_LUT_RESET
  | CL_LUT_USE
  | WB_CTRL
  | WB_HANDLE_0
  | WB_HANDLE_1
  | WB_HANDLE_2
  | WB_STRIDE
  | WB_STATUS
  | WB_STAMP_LO
  | WB_STAMP_HI
  | SC_COEF_ADDR
  | SC_COEF_DATA
  | SC_COEF_RESET
  | SC_MAP
  | SC_BANK_USE
  | SL_CTRL
  | SL_LAYER
  | SL_HANDLE
  | SL_SRC_SIZE
  | SL_STRIDE0
  | SL_STRIDE1
  | SL_CROP_POS
  | SL_CROP_SIZE
  | SL_DST_POS
  | SL_DST_SIZE
  | SL_OPQ_POS
  | SL_OPQ_SIZE
  | SL_FILL
  | SL_CONST
  | SL_SCALE
  | SL_PHASE_H
  | SL_PHASE_V
  | SL_STATUS
  | SL_FETCH
  | SL_CULL
  | SL_BLEND
  | SL_PALETTE
  | FSYNC_PERIOD
  | FSYNC_CFG
  | FSYNC_STATUS
  | FSYNC_OUT_CFG
  | BC_CTRL
  | BC_STATUS
  | BC_E2E_CFG
  | BC_INJ
  | BC_SHOWN
  | BC_PROOF
  | BE_CFG
  | BE_BG
  | BE_FAULT
  | BE_HOLD_START
  | BE_POS_0
  | BE_SIZE_0
  | BE_POS_1
  | BE_SIZE_1
  | BE_POS_2
  | BE_SIZE_2
  | BE_POS_3
  | BE_SIZE_3
  | BE_CRC
  | BE_RX_CRC
  | BE_E2E
  | BE_HOLD_LEN
  | TT_CFG
  | TT_POS
  | TT_MODE
  | TT_STATE
  | CLU_CTRL
  | CLU_TARGET
  | CLU_HANDLE
  | CLU_DL
  | CLU_BG
  | CLU_STATUS
  | DMA_CFG
  | DMA_STAGE
  | DMA_STATUS
  | DMA_SVC_PORT
  | DMA_NOW_LO
  | DMA_NOW_HI
  | DMA_INJ
  | DMA_ERR_INFO
  | DMA_ERR_ADDR_LO
  | DMA_ERR_ADDR_HI
  | CH_CTRL
  | CH_CFG
  | CH_DB_LO
  | CH_DB_HI
  | CH_STATUS
  | CH_CUR_LO
  | CH_CUR_HI
  | CH_REMAIN
  | CH_OPEN
  | CH_DEADLINE_LO
  | CH_DEADLINE_HI
  | CH_LAST
  | CH_LAST_STATUS
  | CH_STAT_BYTES
  | CH_STAT_SPEC
  | CH_STAT_LATE
  | DEC_CTRL
  | DEC_STATUS
  | DEC_ADM_CELLS
  | DEC_ADM_HBW
  | DEC_ADM_LINK
  | DEC_ADM_POWER
  | DEC_ADM_LUMA
  | DEC_INJ
  | DEC_ERR_INFO
  | DS_CMD
  | DS_RESULT
  | DS_DETAIL
  | DS_GEOM
  | DS_PARAM
  | DS_RATE
  | DS_KBPS
  | DS_CFG
  | DS_OUT_HANDLE
  | DS_OUT_STRIDE
  | DS_LAYER
  | DS_POLICY
  | DS_STATUS
  | DS_INFO
  | DS_OUT_SIZE
  | DS_OUT_LAST
  | DS_CNT_DEC
  | DS_CNT_OUT
  | DS_IN
  | ENC_CTRL
  | ENC_STATUS
  | ENC_CELLS
  | ENC_GRANT
  | ENC_INJ
  | ENC_ERR_INFO
  | ES_CMD
  | ES_RESULT
  | ES_DETAIL
  | ES_GEOM
  | ES_CFG
  | ES_OUT
  | ES_RATE
  | ES_RC
  | ES_ROI_EN
  | ES_STATUS
  | ES_FRAMES
  | ES_DEBT
  | ES_STAMP_LO
  | ES_STAMP_HI
  | ES_OUT_LEVEL
  | ES_ROI_POS
  | ES_ROI_SIZE
  | ES_ROI_QP
  | AK_CTRL
  | AK_STATUS
  | AK_CFG
  | AK_LANE_CFG
  | AK_CRED_0
  | AK_CRED_1
  | AK_SEQ
  | AK_CNT_REPLAY
  | AK_CNT_TRAIN
  | AK_ERR_LOG
  | AK_INJ
  | LN_STATUS
  | LN_ERR
  | LN_EQ
  | CG_CTRL
  | CG_RATE
  | CG_STATUS
  | CG_CAPS
  | CG_CAPS2
  | CG_EQ_0
  | CG_EQ_1
  | CG_ERR
  | CG_CFG
  | CG_BW
  | CG_INJ
  | CLK_STATUS
  | CLK_LOCKMON
  | CLK_INJ
  | CLK_ERR_INFO
  | PLL_CTRL
  | PLL_CEIL
  | PLL_SEED
  | PLL_STATUS
  | PLL_N
  | PLL_TARGET
  | PLL_MEAS
  | PLL_SSC
  | INTC_INJ
  | SRC_PEND
  | SRC_UNPEND
  | SRC_ACTIVE
  | REC_SEL
  | REC_STAT
  | REC_D0
  | REC_D1
  | REC_D2
  | MBOX_RING
  | MOD
  | SRC_CFG
  | TGT_CLAIM
  | TGT_EOI
  | TGT_STATE
  | TGT_VBASE
  | HQ_CFG
  | HQ_ACK
  | HQ_STATUS
  | FC_STATUS
  | FC_CFG
  | FC_WDT
  | FC_KICK
  | FC_SCKICK
  | FC_CLEAR
  | FC_FIRST
  | FC_FIRST_STAMP_LO
  | FC_FIRST_STAMP_HI
  | FC_IRQ_EN
  | FC_LOG_SEL
  | FC_LOG_INFO
  | FC_LOG_STAMP
  | FC_LOG_CNT
  | FC_INJ
  | FC_STAT
  | FC_CNT
  | PWR_STATE
  | PWR_BUDGET
  | PWR_STATUS
  | PWR_HELD
  | PWR_GRANT
  | PWR_BE
  | TH_CFG
  | TH_MIN
  | TH_STATUS
  | TH_VALID
  | TH_SENSOR
  | AVS_CFG
  | AVS_STATUS
  | PWR_INJ
  | PWR_ERR_INFO
  | EMB_STATUS
  | EMB_WAKE_MASK
  | EMB_WAKE_SEEN
  | EMB_TIMER
  | EMB_TIMER_CMP
  | EMB_FILTER
  | EMB_SCRATCH
  | OD_CTRL
  | OD_STATUS
  | OD_ID
  | OD_ID29
  | OD_SF_CFG
  | OD_AUTH_CFG
  | OD_FLOOR
  | OD_AUTH_STAT
  | OD_SKEW
  | OD_INJ
  | OD_ERR_INFO
  | CAN_NBT
  | CAN_DBT
  | CAN_TDC
  | CAN_STATUS
  | CAN_CNT
  | OWN
  | SEC_STATUS
  | SEC_LC
  | SEC_DBG_CTRL
  | SEC_DBG_CHAL
  | SEC_DBG_RESP
  | SEC_KEY_STATE
  | SEC_KEY_DATA
  | SEC_KEY_CMD
  | SEC_CPK_DATA
  | SEC_RECOVER_LEN
  | SEC_RECOVER
  deriving DecidableEq, Repr

namespace Reg

/-! ### GLOBAL block (R482) -/

def a_GLB_ID : Nat := 0x20000000
def GLB_ID_PART : FRef := ⟨0x20000000, 31, 16⟩
def GLB_ID_STEPPING : FRef := ⟨0x20000000, 15, 8⟩
def GLB_ID_REVISION : FRef := ⟨0x20000000, 7, 0⟩
def a_GLB_LOCK : Nat := 0x20000004
def GLB_LOCK_CFG : FRef := ⟨0x20000004, 0, 0⟩
def a_SERIAL_LO : Nat := 0x20000008
def SERIAL_LO_SERIAL : FRef := ⟨0x20000008, 31, 0⟩
def a_SERIAL_HI : Nat := 0x2000000C
def SERIAL_HI_SERIAL : FRef := ⟨0x2000000C, 31, 0⟩
def a_FW_VERSION : Nat := 0x20000010
def FW_VERSION_VERSION : FRef := ⟨0x20000010, 31, 0⟩
/-! ### ORBIT block (R57) -/

def a_ORB_CTRL : Nat := 0x20010000
def ORB_CTRL_FSYNC_EDGE : FRef := ⟨0x20010000, 4, 4⟩
def ORB_CTRL_MASTER_SRC : FRef := ⟨0x20010000, 3, 0⟩
def a_ORB_STATUS : Nat := 0x20010004
def ORB_STATUS_SHEDDING : FRef := ⟨0x20010004, 8, 8⟩
def ORB_STATUS_MASTER : FRef := ⟨0x20010004, 7, 4⟩
def ORB_STATUS_COASTING : FRef := ⟨0x20010004, 1, 1⟩
def ORB_STATUS_MASTER_RUN : FRef := ⟨0x20010004, 0, 0⟩
def a_STAMP_LO : Nat := 0x20010008
def STAMP_LO_STAMP : FRef := ⟨0x20010008, 31, 0⟩
def a_STAMP_HI : Nat := 0x2001000C
def STAMP_HI_STAMP : FRef := ⟨0x2001000C, 15, 0⟩
def a_CAPACITY : Nat := 0x20010010
def CAPACITY_BUDGET_TOKENS : FRef := ⟨0x20010010, 24, 16⟩
def CAPACITY_HEARTH_CH : FRef := ⟨0x20010010, 11, 8⟩
def CAPACITY_AKNUM_LANES : FRef := ⟨0x20010010, 4, 0⟩
def a_SHED_CTRL : Nat := 0x20010014
def SHED_CTRL_RESTORE : FRef := ⟨0x20010014, 16, 16⟩
def SHED_CTRL_RESTORE_DELAY : FRef := ⟨0x20010014, 15, 8⟩
def SHED_CTRL_AUTO_RESTORE : FRef := ⟨0x20010014, 0, 0⟩
def a_PIPE_ORBIT (p : Nat) : Nat := 0x20010040 + 0x4 * p
def PIPE_ORBIT_BEACON_LEAD (p : Nat) : FRef := ⟨0x20010040 + 0x4 * p, 25, 16⟩
def PIPE_ORBIT_COMMIT_LEAD (p : Nat) : FRef := ⟨0x20010040 + 0x4 * p, 9, 0⟩
def a_PIPE_POS (p : Nat) : Nat := 0x20010080 + 0x4 * p
def PIPE_POS_FRAME (p : Nat) : FRef := ⟨0x20010080 + 0x4 * p, 31, 16⟩
def PIPE_POS_LINE (p : Nat) : FRef := ⟨0x20010080 + 0x4 * p, 12, 0⟩
def a_PIPE_PEND (p : Nat) : Nat := 0x200100C0 + 0x4 * p
def PIPE_PEND_STALE_MAX (p : Nat) : FRef := ⟨0x200100C0 + 0x4 * p, 23, 16⟩
def PIPE_PEND_HELD (p : Nat) : FRef := ⟨0x200100C0 + 0x4 * p, 15, 8⟩
def PIPE_PEND_WAITING (p : Nat) : FRef := ⟨0x200100C0 + 0x4 * p, 2, 2⟩
def PIPE_PEND_PENDING (p : Nat) : FRef := ⟨0x200100C0 + 0x4 * p, 1, 0⟩
def a_CP_CTRL (n : Nat) : Nat := 0x20010100 + 0x40 * n
def CP_CTRL_TEST_ONLY (n : Nat) : FRef := ⟨0x20010100 + 0x40 * n, 3, 3⟩
def CP_CTRL_LATE_OK (n : Nat) : FRef := ⟨0x20010100 + 0x40 * n, 2, 2⟩
def CP_CTRL_POLICY (n : Nat) : FRef := ⟨0x20010100 + 0x40 * n, 1, 1⟩
def CP_CTRL_GO (n : Nat) : FRef := ⟨0x20010100 + 0x40 * n, 0, 0⟩
def a_CP_PIPES (n : Nat) : Nat := 0x20010104 + 0x40 * n
def CP_PIPES_PIPES (n : Nat) : FRef := ⟨0x20010104 + 0x40 * n, 11, 0⟩
def a_CP_TARGET_LO (n : Nat) : Nat := 0x20010108 + 0x40 * n
def CP_TARGET_LO_TARGET (n : Nat) : FRef := ⟨0x20010108 + 0x40 * n, 31, 0⟩
def a_CP_TARGET_HI (n : Nat) : Nat := 0x2001010C + 0x40 * n
def CP_TARGET_HI_TARGET (n : Nat) : FRef := ⟨0x2001010C + 0x40 * n, 15, 0⟩
def a_CP_TAG (n : Nat) : Nat := 0x20010110 + 0x40 * n
def CP_TAG_TAG (n : Nat) : FRef := ⟨0x20010110 + 0x40 * n, 31, 0⟩
def a_CP_RESULT (n : Nat) : Nat := 0x20010114 + 0x40 * n
def CP_RESULT_SEQ (n : Nat) : FRef := ⟨0x20010114 + 0x40 * n, 31, 24⟩
def CP_RESULT_OVERRUN (n : Nat) : FRef := ⟨0x20010114 + 0x40 * n, 18, 18⟩
def CP_RESULT_VALID (n : Nat) : FRef := ⟨0x20010114 + 0x40 * n, 17, 17⟩
def CP_RESULT_BUSY (n : Nat) : FRef := ⟨0x20010114 + 0x40 * n, 16, 16⟩
def CP_RESULT_SLOT_VALID (n : Nat) : FRef := ⟨0x20010114 + 0x40 * n, 11, 11⟩
def CP_RESULT_SLOT (n : Nat) : FRef := ⟨0x20010114 + 0x40 * n, 10, 8⟩
def CP_RESULT_PIPE (n : Nat) : FRef := ⟨0x20010114 + 0x40 * n, 7, 4⟩
def CP_RESULT_CODE (n : Nat) : FRef := ⟨0x20010114 + 0x40 * n, 3, 0⟩
def a_CP_DETAIL (n : Nat) : Nat := 0x20010118 + 0x40 * n
def CP_DETAIL_DETAIL (n : Nat) : FRef := ⟨0x20010118 + 0x40 * n, 31, 0⟩
def a_ADM_CELLS : Nat := 0x20010200
def ADM_CELLS_CELLS_AVAIL : FRef := ⟨0x20010200, 28, 16⟩
def ADM_CELLS_CELLS : FRef := ⟨0x20010200, 12, 0⟩
def a_ADM_HBW : Nat := 0x20010204
def ADM_HBW_HBW : FRef := ⟨0x20010204, 19, 0⟩
def a_ADM_HBW_AVAIL : Nat := 0x20010208
def ADM_HBW_AVAIL_HBW_AVAIL : FRef := ⟨0x20010208, 19, 0⟩
def a_ADM_LINK : Nat := 0x2001020C
def ADM_LINK_LINK : FRef := ⟨0x2001020C, 20, 0⟩
def a_ADM_LINK_AVAIL : Nat := 0x20010210
def ADM_LINK_AVAIL_LINK_AVAIL : FRef := ⟨0x20010210, 20, 0⟩
def a_ADM_TOKENS : Nat := 0x20010214
def ADM_TOKENS_TOKENS_AVAIL : FRef := ⟨0x20010214, 24, 16⟩
def ADM_TOKENS_TOKENS : FRef := ⟨0x20010214, 8, 0⟩
def a_SHED (p : Nat) : Nat := 0x20010400 + 0x4 * p
def SHED_STEP_0 (p : Nat) : FRef := ⟨0x20010400 + 0x4 * p, 1, 0⟩
def SHED_STEP_1 (p : Nat) : FRef := ⟨0x20010400 + 0x4 * p, 3, 2⟩
def SHED_STEP_2 (p : Nat) : FRef := ⟨0x20010400 + 0x4 * p, 5, 4⟩
def SHED_STEP_3 (p : Nat) : FRef := ⟨0x20010400 + 0x4 * p, 7, 6⟩
def SHED_STEP_4 (p : Nat) : FRef := ⟨0x20010400 + 0x4 * p, 9, 8⟩
def SHED_STEP_5 (p : Nat) : FRef := ⟨0x20010400 + 0x4 * p, 11, 10⟩
def SHED_STEP_6 (p : Nat) : FRef := ⟨0x20010400 + 0x4 * p, 13, 12⟩
def SHED_STEP_7 (p : Nat) : FRef := ⟨0x20010400 + 0x4 * p, 15, 14⟩
/-! ### HEARTH block (R86) -/

def a_HM_CTRL : Nat := 0x20020000
def HM_CTRL_SCRUB_PERIOD : FRef := ⟨0x20020000, 3, 0⟩
def a_HM_STATUS : Nat := 0x20020004
def HM_STATUS_UNREADABLE : FRef := ⟨0x20020004, 31, 24⟩
def HM_STATUS_FENCED : FRef := ⟨0x20020004, 23, 16⟩
def HM_STATUS_RAW_WR_DROP : FRef := ⟨0x20020004, 4, 4⟩
def HM_STATUS_SELF_REFRESH : FRef := ⟨0x20020004, 3, 3⟩
def HM_STATUS_EVAC_BUSY : FRef := ⟨0x20020004, 2, 2⟩
def HM_STATUS_INIT_BUSY : FRef := ⟨0x20020004, 1, 1⟩
def HM_STATUS_READY : FRef := ⟨0x20020004, 0, 0⟩
def a_HEARTH_RSV : Nat := 0x20020008
def HEARTH_RSV_CELLS : FRef := ⟨0x20020008, 8, 0⟩
def a_HM_FREE : Nat := 0x2002000C
def HM_FREE_LIMIT : FRef := ⟨0x2002000C, 28, 16⟩
def HM_FREE_FREE_CELLS : FRef := ⟨0x2002000C, 12, 0⟩
def a_FENCE_CFG : Nat := 0x20020010
def FENCE_CFG_INJ_PAR : FRef := ⟨0x20020010, 19, 16⟩
def FENCE_CFG_WIN : FRef := ⟨0x20020010, 11, 8⟩
def FENCE_CFG_THR : FRef := ⟨0x20020010, 7, 0⟩
def a_FENCE_INJ_HI : Nat := 0x20020014
def FENCE_INJ_HI_INJ_PAR_HI : FRef := ⟨0x20020014, 3, 0⟩
def a_ECC_INJ : Nat := 0x20020018
def ECC_INJ_STORE : FRef := ⟨0x20020018, 8, 8⟩
def ECC_INJ_CH : FRef := ⟨0x20020018, 7, 0⟩
def a_ECC_LOG_ADDR : Nat := 0x2002001C
def ECC_LOG_ADDR_WORD : FRef := ⟨0x2002001C, 27, 5⟩
def a_ECC_LOG_INFO : Nat := 0x20020020
def ECC_LOG_INFO_READER : FRef := ⟨0x20020020, 17, 16⟩
def ECC_LOG_INFO_CH : FRef := ⟨0x20020020, 15, 13⟩
def ECC_LOG_INFO_KIND : FRef := ⟨0x20020020, 12, 10⟩
def ECC_LOG_INFO_SYNDROME : FRef := ⟨0x20020020, 9, 0⟩
def a_STAT_CTRL : Nat := 0x20020024
def STAT_CTRL_CLEAR : FRef := ⟨0x20020024, 9, 9⟩
def STAT_CTRL_FREEZE : FRef := ⟨0x20020024, 8, 8⟩
def STAT_CTRL_WINDOW : FRef := ⟨0x20020024, 7, 0⟩
def a_STAT_RD (c : Nat) : Nat := 0x20020100 + 0x20 * c
def STAT_RD_WORDS (c : Nat) : FRef := ⟨0x20020100 + 0x20 * c, 31, 0⟩
def a_STAT_WR (c : Nat) : Nat := 0x20020104 + 0x20 * c
def STAT_WR_WORDS (c : Nat) : FRef := ⟨0x20020104 + 0x20 * c, 31, 0⟩
def a_STAT_SPEC_RD (c : Nat) : Nat := 0x20020108 + 0x20 * c
def STAT_SPEC_RD_WORDS (c : Nat) : FRef := ⟨0x20020108 + 0x20 * c, 31, 0⟩
def a_STAT_SPEC_WR (c : Nat) : Nat := 0x2002010C + 0x20 * c
def STAT_SPEC_WR_WORDS (c : Nat) : FRef := ⟨0x2002010C + 0x20 * c, 31, 0⟩
def a_STAT_ERR (c : Nat) : Nat := 0x20020110 + 0x20 * c
def STAT_ERR_UNCORR (c : Nat) : FRef := ⟨0x20020110 + 0x20 * c, 31, 16⟩
def STAT_ERR_CORR (c : Nat) : FRef := ⟨0x20020110 + 0x20 * c, 15, 0⟩
def a_HP_SEL (n : Nat) : Nat := 0x20020200 + 0x40 * n
def HP_SEL_HANDLE (n : Nat) : FRef := ⟨0x20020200 + 0x40 * n, 9, 0⟩
def a_HP_CMD (n : Nat) : Nat := 0x20020204 + 0x40 * n
def HP_CMD_CMD (n : Nat) : FRef := ⟨0x20020204 + 0x40 * n, 2, 0⟩
def a_HP_RESULT (n : Nat) : Nat := 0x20020208 + 0x40 * n
def HP_RESULT_OVERRUN (n : Nat) : FRef := ⟨0x20020208 + 0x40 * n, 18, 18⟩
def HP_RESULT_VALID (n : Nat) : FRef := ⟨0x20020208 + 0x40 * n, 17, 17⟩
def HP_RESULT_BUSY (n : Nat) : FRef := ⟨0x20020208 + 0x40 * n, 16, 16⟩
def HP_RESULT_CODE (n : Nat) : FRef := ⟨0x20020208 + 0x40 * n, 3, 0⟩
def a_HP_SIZE0 (n : Nat) : Nat := 0x2002020C + 0x40 * n
def HP_SIZE0_BYTES (n : Nat) : FRef := ⟨0x2002020C + 0x40 * n, 26, 0⟩
def a_HP_SIZE1 (n : Nat) : Nat := 0x20020210 + 0x40 * n
def HP_SIZE1_BYTES (n : Nat) : FRef := ⟨0x20020210 + 0x40 * n, 26, 0⟩
def a_HP_SIZE2 (n : Nat) : Nat := 0x20020214 + 0x40 * n
def HP_SIZE2_BYTES (n : Nat) : FRef := ⟨0x20020214 + 0x40 * n, 26, 0⟩
def a_HP_STATUS (n : Nat) : Nat := 0x20020218 + 0x40 * n
def HP_STATUS_CELLS (n : Nat) : FRef := ⟨0x20020218 + 0x40 * n, 28, 16⟩
def HP_STATUS_OWNER (n : Nat) : FRef := ⟨0x20020218 + 0x40 * n, 9, 8⟩
def HP_STATUS_PLANES (n : Nat) : FRef := ⟨0x20020218 + 0x40 * n, 7, 6⟩
def HP_STATUS_FENCE_HIT (n : Nat) : FRef := ⟨0x20020218 + 0x40 * n, 5, 5⟩
def HP_STATUS_PINNED (n : Nat) : FRef := ⟨0x20020218 + 0x40 * n, 3, 3⟩
def HP_STATUS_STATE (n : Nat) : FRef := ⟨0x20020218 + 0x40 * n, 2, 0⟩
/-! ### PIPE block (R112, R136, R137, R194) -/

def a_TG_CTRL (p : Nat) : Nat := 0x20100000 + 0x10000 * p
def TG_CTRL_DEN (p : Nat) : FRef := ⟨0x20100000 + 0x10000 * p, 15, 12⟩
def TG_CTRL_NUM (p : Nat) : FRef := ⟨0x20100000 + 0x10000 * p, 11, 8⟩
def TG_CTRL_VSYNC_POL (p : Nat) : FRef := ⟨0x20100000 + 0x10000 * p, 3, 3⟩
def TG_CTRL_HSYNC_POL (p : Nat) : FRef := ⟨0x20100000 + 0x10000 * p, 2, 2⟩
def TG_CTRL_FREE (p : Nat) : FRef := ⟨0x20100000 + 0x10000 * p, 1, 1⟩
def TG_CTRL_RUN (p : Nat) : FRef := ⟨0x20100000 + 0x10000 * p, 0, 0⟩
def a_TG_RATE (p : Nat) : Nat := 0x20100004 + 0x10000 * p
def TG_RATE_MHZ (p : Nat) : FRef := ⟨0x20100004 + 0x10000 * p, 17, 0⟩
def a_TG_HACT (p : Nat) : Nat := 0x20100008 + 0x10000 * p
def TG_HACT_H_TOTAL (p : Nat) : FRef := ⟨0x20100008 + 0x10000 * p, 29, 16⟩
def TG_HACT_H_ACTIVE (p : Nat) : FRef := ⟨0x20100008 + 0x10000 * p, 12, 0⟩
def a_TG_HSYNC (p : Nat) : Nat := 0x2010000C + 0x10000 * p
def TG_HSYNC_H_SYNC (p : Nat) : FRef := ⟨0x2010000C + 0x10000 * p, 27, 16⟩
def TG_HSYNC_H_FP (p : Nat) : FRef := ⟨0x2010000C + 0x10000 * p, 11, 0⟩
def a_TG_VACT (p : Nat) : Nat := 0x20100010 + 0x10000 * p
def TG_VACT_V_TOTAL (p : Nat) : FRef := ⟨0x20100010 + 0x10000 * p, 28, 16⟩
def TG_VACT_V_ACTIVE (p : Nat) : FRef := ⟨0x20100010 + 0x10000 * p, 12, 0⟩
def a_TG_VSYNC (p : Nat) : Nat := 0x20100014 + 0x10000 * p
def TG_VSYNC_V_SYNC (p : Nat) : FRef := ⟨0x20100014 + 0x10000 * p, 27, 16⟩
def TG_VSYNC_V_FP (p : Nat) : FRef := ⟨0x20100014 + 0x10000 * p, 11, 0⟩
def a_TG_SYNC (p : Nat) : Nat := 0x20100018 + 0x10000 * p
def TG_SYNC_VADJ_MAX (p : Nat) : FRef := ⟨0x20100018 + 0x10000 * p, 19, 16⟩
def TG_SYNC_OFFSET (p : Nat) : FRef := ⟨0x20100018 + 0x10000 * p, 12, 0⟩
def a_TG_LINE_INT (p : Nat) : Nat := 0x2010001C + 0x10000 * p
def TG_LINE_INT_EN (p : Nat) : FRef := ⟨0x2010001C + 0x10000 * p, 31, 31⟩
def TG_LINE_INT_LINE (p : Nat) : FRef := ⟨0x2010001C + 0x10000 * p, 12, 0⟩
def a_TG_STATUS (p : Nat) : Nat := 0x20100020 + 0x10000 * p
def TG_STATUS_LATE_LINES (p : Nat) : FRef := ⟨0x20100020 + 0x10000 * p, 31, 16⟩
def TG_STATUS_EMIT_LATE (p : Nat) : FRef := ⟨0x20100020 + 0x10000 * p, 5, 5⟩
def TG_STATUS_SLEWING (p : Nat) : FRef := ⟨0x20100020 + 0x10000 * p, 4, 4⟩
def TG_STATUS_ALIGNED (p : Nat) : FRef := ⟨0x20100020 + 0x10000 * p, 3, 3⟩
def TG_STATUS_STATE (p : Nat) : FRef := ⟨0x20100020 + 0x10000 * p, 2, 0⟩
def a_TG_PHASE (p : Nat) : Nat := 0x20100024 + 0x10000 * p
def TG_PHASE_ERROR (p : Nat) : FRef := ⟨0x20100024 + 0x10000 * p, 31, 0⟩
def a_TG_VADJ (p : Nat) : Nat := 0x20100028 + 0x10000 * p
def TG_VADJ_REMAINDER (p : Nat) : FRef := ⟨0x20100028 + 0x10000 * p, 31, 16⟩
def TG_VADJ_LINES (p : Nat) : FRef := ⟨0x20100028 + 0x10000 * p, 15, 0⟩
def a_BANK_CFG (p : Nat) : Nat := 0x20100030 + 0x10000 * p
def BANK_CFG_FRAMES (p : Nat) : FRef := ⟨0x20100030 + 0x10000 * p, 15, 8⟩
def BANK_CFG_EN (p : Nat) : FRef := ⟨0x20100030 + 0x10000 * p, 0, 0⟩
def a_BANK_STAT (p : Nat) : Nat := 0x20100034 + 0x10000 * p
def BANK_STAT_ENTRIES (p : Nat) : FRef := ⟨0x20100034 + 0x10000 * p, 31, 16⟩
def BANK_STAT_BLOCK (p : Nat) : FRef := ⟨0x20100034 + 0x10000 * p, 11, 8⟩
def BANK_STAT_UNCHANGED (p : Nat) : FRef := ⟨0x20100034 + 0x10000 * p, 7, 0⟩
def a_PNL_SEQ (p : Nat) : Nat := 0x20100080 + 0x10000 * p
def PNL_SEQ_T_PWR_OFF (p : Nat) : FRef := ⟨0x20100080 + 0x10000 * p, 31, 24⟩
def PNL_SEQ_T_BL_OFF (p : Nat) : FRef := ⟨0x20100080 + 0x10000 * p, 23, 16⟩
def PNL_SEQ_T_BL_ON (p : Nat) : FRef := ⟨0x20100080 + 0x10000 * p, 15, 8⟩
def PNL_SEQ_T_PWR_ON (p : Nat) : FRef := ⟨0x20100080 + 0x10000 * p, 7, 0⟩
def a_PNL_CFG (p : Nat) : Nat := 0x20100084 + 0x10000 * p
def PNL_CFG_SAFE_BL (p : Nat) : FRef := ⟨0x20100084 + 0x10000 * p, 12, 12⟩
def PNL_CFG_BL_POL (p : Nat) : FRef := ⟨0x20100084 + 0x10000 * p, 9, 9⟩
def PNL_CFG_PWR_POL (p : Nat) : FRef := ⟨0x20100084 + 0x10000 * p, 8, 8⟩
def PNL_CFG_BL_MODE (p : Nat) : FRef := ⟨0x20100084 + 0x10000 * p, 5, 5⟩
def PNL_CFG_PWR_MODE (p : Nat) : FRef := ⟨0x20100084 + 0x10000 * p, 4, 4⟩
def a_PNL_OUT (p : Nat) : Nat := 0x20100088 + 0x10000 * p
def PNL_OUT_BL_PIN (p : Nat) : FRef := ⟨0x20100088 + 0x10000 * p, 17, 17⟩
def PNL_OUT_PWR_PIN (p : Nat) : FRef := ⟨0x20100088 + 0x10000 * p, 16, 16⟩
def PNL_OUT_BL_LVL (p : Nat) : FRef := ⟨0x20100088 + 0x10000 * p, 1, 1⟩
def PNL_OUT_PWR_LVL (p : Nat) : FRef := ⟨0x20100088 + 0x10000 * p, 0, 0⟩
def a_BL_PWM_PERIOD (p : Nat) : Nat := 0x20100090 + 0x10000 * p
def BL_PWM_PERIOD_FRAME_RESTART (p : Nat) : FRef := ⟨0x20100090 + 0x10000 * p, 31, 31⟩
def BL_PWM_PERIOD_PERIOD (p : Nat) : FRef := ⟨0x20100090 + 0x10000 * p, 19, 0⟩
def a_BL_PWM_DUTY (p : Nat) : Nat := 0x20100094 + 0x10000 * p
def BL_PWM_DUTY_DUTY (p : Nat) : FRef := ⟨0x20100094 + 0x10000 * p, 19, 0⟩
def a_BL_PWM_MIN (p : Nat) : Nat := 0x20100098 + 0x10000 * p
def BL_PWM_MIN_DUTY (p : Nat) : FRef := ⟨0x20100098 + 0x10000 * p, 19, 0⟩
def a_PB_BG (p : Nat) : Nat := 0x20100400 + 0x10000 * p
def PB_BG_R (p : Nat) : FRef := ⟨0x20100400 + 0x10000 * p, 29, 20⟩
def PB_BG_G (p : Nat) : FRef := ⟨0x20100400 + 0x10000 * p, 19, 10⟩
def PB_BG_B (p : Nat) : FRef := ⟨0x20100400 + 0x10000 * p, 9, 0⟩
def a_CL_CTRL (p : Nat) : Nat := 0x20100404 + 0x10000 * p
def CL_CTRL_DEPTH (p : Nat) : FRef := ⟨0x20100404 + 0x10000 * p, 9, 8⟩
def CL_CTRL_DITHER (p : Nat) : FRef := ⟨0x20100404 + 0x10000 * p, 5, 4⟩
def CL_CTRL_LUT_BANK (p : Nat) : FRef := ⟨0x20100404 + 0x10000 * p, 3, 3⟩
def CL_CTRL_POST_EN (p : Nat) : FRef := ⟨0x20100404 + 0x10000 * p, 2, 2⟩
def CL_CTRL_MAT_EN (p : Nat) : FRef := ⟨0x20100404 + 0x10000 * p, 1, 1⟩
def CL_CTRL_PRE_EN (p : Nat) : FRef := ⟨0x20100404 + 0x10000 * p, 0, 0⟩
def a_CL_MAT_0 (p : Nat) : Nat := 0x20100408 + 0x10000 * p
def CL_MAT_0_M01 (p : Nat) : FRef := ⟨0x20100408 + 0x10000 * p, 31, 16⟩
def CL_MAT_0_M00 (p : Nat) : FRef := ⟨0x20100408 + 0x10000 * p, 15, 0⟩
def a_CL_MAT_1 (p : Nat) : Nat := 0x2010040C + 0x10000 * p
def CL_MAT_1_M10 (p : Nat) : FRef := ⟨0x2010040C + 0x10000 * p, 31, 16⟩
def CL_MAT_1_M02 (p : Nat) : FRef := ⟨0x2010040C + 0x10000 * p, 15, 0⟩
def a_CL_MAT_2 (p : Nat) : Nat := 0x20100410 + 0x10000 * p
def CL_MAT_2_M12 (p : Nat) : FRef := ⟨0x20100410 + 0x10000 * p, 31, 16⟩
def CL_MAT_2_M11 (p : Nat) : FRef := ⟨0x20100410 + 0x10000 * p, 15, 0⟩
def a_CL_MAT_3 (p : Nat) : Nat := 0x20100414 + 0x10000 * p
def CL_MAT_3_M21 (p : Nat) : FRef := ⟨0x20100414 + 0x10000 * p, 31, 16⟩
def CL_MAT_3_M20 (p : Nat) : FRef := ⟨0x20100414 + 0x10000 * p, 15, 0⟩
def a_CL_MAT_4 (p : Nat) : Nat := 0x20100418 + 0x10000 * p
def CL_MAT_4_M22 (p : Nat) : FRef := ⟨0x20100418 + 0x10000 * p, 15, 0⟩
def a_CL_OFF_RG (p : Nat) : Nat := 0x2010041C + 0x10000 * p
def CL_OFF_RG_OFF_G (p : Nat) : FRef := ⟨0x2010041C + 0x10000 * p, 28, 16⟩
def CL_OFF_RG_OFF_R (p : Nat) : FRef := ⟨0x2010041C + 0x10000 * p, 12, 0⟩
def a_CL_OFF_B (p : Nat) : Nat := 0x20100420 + 0x10000 * p
def CL_OFF_B_OFF_B (p : Nat) : FRef := ⟨0x20100420 + 0x10000 * p, 12, 0⟩
def a_CL_LUT_ADDR (p : Nat) : Nat := 0x20100424 + 0x10000 * p
def CL_LUT_ADDR_BANK (p : Nat) : FRef := ⟨0x20100424 + 0x10000 * p, 16, 16⟩
def CL_LUT_ADDR_TABLE (p : Nat) : FRef := ⟨0x20100424 + 0x10000 * p, 15, 15⟩
def CL_LUT_ADDR_COMP (p : Nat) : FRef := ⟨0x20100424 + 0x10000 * p, 14, 13⟩
def CL_LUT_ADDR_INDEX (p : Nat) : FRef := ⟨0x20100424 + 0x10000 * p, 10, 0⟩
def a_CL_LUT_DATA (p : Nat) : Nat := 0x20100428 + 0x10000 * p
def CL_LUT_DATA_VALUE (p : Nat) : FRef := ⟨0x20100428 + 0x10000 * p, 12, 0⟩
def a_CL_LUT_RESET (p : Nat) : Nat := 0x2010042C + 0x10000 * p
def CL_LUT_RESET_BANKS (p : Nat) : FRef := ⟨0x2010042C + 0x10000 * p, 1, 0⟩
def a_CL_LUT_USE (p : Nat) : Nat := 0x20100430 + 0x10000 * p
def CL_LUT_USE_BANKS (p : Nat) : FRef := ⟨0x20100430 + 0x10000 * p, 1, 0⟩
def a_WB_CTRL (p : Nat) : Nat := 0x20100500 + 0x10000 * p
def WB_CTRL_DIV (p : Nat) : FRef := ⟨0x20100500 + 0x10000 * p, 23, 16⟩
def WB_CTRL_COUNT (p : Nat) : FRef := ⟨0x20100500 + 0x10000 * p, 11, 10⟩
def WB_CTRL_FORMAT (p : Nat) : FRef := ⟨0x20100500 + 0x10000 * p, 8, 8⟩
def WB_CTRL_TAP (p : Nat) : FRef := ⟨0x20100500 + 0x10000 * p, 5, 4⟩
def WB_CTRL_MODE (p : Nat) : FRef := ⟨0x20100500 + 0x10000 * p, 1, 0⟩
def a_WB_HANDLE_0 (p : Nat) : Nat := 0x20100504 + 0x10000 * p
def WB_HANDLE_0_HANDLE (p : Nat) : FRef := ⟨0x20100504 + 0x10000 * p, 9, 0⟩
def a_WB_HANDLE_1 (p : Nat) : Nat := 0x20100508 + 0x10000 * p
def WB_HANDLE_1_HANDLE (p : Nat) : FRef := ⟨0x20100508 + 0x10000 * p, 9, 0⟩
def a_WB_HANDLE_2 (p : Nat) : Nat := 0x2010050C + 0x10000 * p
def WB_HANDLE_2_HANDLE (p : Nat) : FRef := ⟨0x2010050C + 0x10000 * p, 9, 0⟩
def a_WB_STRIDE (p : Nat) : Nat := 0x20100510 + 0x10000 * p
def WB_STRIDE_BYTES (p : Nat) : FRef := ⟨0x20100510 + 0x10000 * p, 19, 0⟩
def a_WB_STATUS (p : Nat) : Nat := 0x20100514 + 0x10000 * p
def WB_STATUS_SEALED (p : Nat) : FRef := ⟨0x20100514 + 0x10000 * p, 31, 16⟩
def WB_STATUS_NEXT (p : Nat) : FRef := ⟨0x20100514 + 0x10000 * p, 9, 8⟩
def WB_STATUS_REFUSED (p : Nat) : FRef := ⟨0x20100514 + 0x10000 * p, 5, 5⟩
def WB_STATUS_WR_ERR (p : Nat) : FRef := ⟨0x20100514 + 0x10000 * p, 4, 4⟩
def WB_STATUS_PINNED_WRITE (p : Nat) : FRef := ⟨0x20100514 + 0x10000 * p, 3, 3⟩
def WB_STATUS_OVERFLOW (p : Nat) : FRef := ⟨0x20100514 + 0x10000 * p, 2, 2⟩
def WB_STATUS_DONE (p : Nat) : FRef := ⟨0x20100514 + 0x10000 * p, 1, 1⟩
def WB_STATUS_BUSY (p : Nat) : FRef := ⟨0x20100514 + 0x10000 * p, 0, 0⟩
def a_WB_STAMP_LO (p : Nat) : Nat := 0x20100518 + 0x10000 * p
def WB_STAMP_LO_STAMP (p : Nat) : FRef := ⟨0x20100518 + 0x10000 * p, 31, 0⟩
def a_WB_STAMP_HI (p : Nat) : Nat := 0x2010051C + 0x10000 * p
def WB_STAMP_HI_STAMP (p : Nat) : FRef := ⟨0x2010051C + 0x10000 * p, 15, 0⟩
def a_SC_COEF_ADDR (p : Nat) : Nat := 0x20100E00 + 0x10000 * p
def SC_COEF_ADDR_BANK (p : Nat) : FRef := ⟨0x20100E00 + 0x10000 * p, 17, 16⟩
def SC_COEF_ADDR_DIR (p : Nat) : FRef := ⟨0x20100E00 + 0x10000 * p, 14, 14⟩
def SC_COEF_ADDR_PHASE (p : Nat) : FRef := ⟨0x20100E00 + 0x10000 * p, 13, 8⟩
def SC_COEF_ADDR_TAP (p : Nat) : FRef := ⟨0x20100E00 + 0x10000 * p, 2, 0⟩
def a_SC_COEF_DATA (p : Nat) : Nat := 0x20100E04 + 0x10000 * p
def SC_COEF_DATA_COEF (p : Nat) : FRef := ⟨0x20100E04 + 0x10000 * p, 9, 0⟩
def a_SC_COEF_RESET (p : Nat) : Nat := 0x20100E08 + 0x10000 * p
def SC_COEF_RESET_BANKS (p : Nat) : FRef := ⟨0x20100E08 + 0x10000 * p, 3, 0⟩
def a_SC_MAP (p : Nat) : Nat := 0x20100E0C + 0x10000 * p
def SC_MAP_IN_USE_0 (p : Nat) : FRef := ⟨0x20100E0C + 0x10000 * p, 7, 7⟩
def SC_MAP_PAIRED_0 (p : Nat) : FRef := ⟨0x20100E0C + 0x10000 * p, 6, 6⟩
def SC_MAP_SLOT_0 (p : Nat) : FRef := ⟨0x20100E0C + 0x10000 * p, 2, 0⟩
def SC_MAP_IN_USE_1 (p : Nat) : FRef := ⟨0x20100E0C + 0x10000 * p, 15, 15⟩
def SC_MAP_PAIRED_1 (p : Nat) : FRef := ⟨0x20100E0C + 0x10000 * p, 14, 14⟩
def SC_MAP_SLOT_1 (p : Nat) : FRef := ⟨0x20100E0C + 0x10000 * p, 10, 8⟩
def SC_MAP_IN_USE_2 (p : Nat) : FRef := ⟨0x20100E0C + 0x10000 * p, 23, 23⟩
def SC_MAP_PAIRED_2 (p : Nat) : FRef := ⟨0x20100E0C + 0x10000 * p, 22, 22⟩
def SC_MAP_SLOT_2 (p : Nat) : FRef := ⟨0x20100E0C + 0x10000 * p, 18, 16⟩
def SC_MAP_IN_USE_3 (p : Nat) : FRef := ⟨0x20100E0C + 0x10000 * p, 31, 31⟩
def SC_MAP_PAIRED_3 (p : Nat) : FRef := ⟨0x20100E0C + 0x10000 * p, 30, 30⟩
def SC_MAP_SLOT_3 (p : Nat) : FRef := ⟨0x20100E0C + 0x10000 * p, 26, 24⟩
def a_SC_BANK_USE (p : Nat) : Nat := 0x20100E10 + 0x10000 * p
def SC_BANK_USE_BANKS (p : Nat) : FRef := ⟨0x20100E10 + 0x10000 * p, 3, 0⟩
def a_SL_CTRL (p k : Nat) : Nat := 0x20101000 + 0x10000 * p + 0x1000 * k
def SL_CTRL_FORMAT (p k : Nat) : FRef := ⟨0x20101000 + 0x10000 * p + 0x1000 * k, 31, 24⟩
def SL_CTRL_CSC (p k : Nat) : FRef := ⟨0x20101000 + 0x10000 * p + 0x1000 * k, 21, 20⟩
def SL_CTRL_RANGE (p k : Nat) : FRef := ⟨0x20101000 + 0x10000 * p + 0x1000 * k, 19, 19⟩
def SL_CTRL_SITE (p k : Nat) : FRef := ⟨0x20101000 + 0x10000 * p + 0x1000 * k, 18, 18⟩
def SL_CTRL_SHED_RANK (p k : Nat) : FRef := ⟨0x20101000 + 0x10000 * p + 0x1000 * k, 15, 8⟩
def SL_CTRL_STALE_ACTION (p k : Nat) : FRef := ⟨0x20101000 + 0x10000 * p + 0x1000 * k, 4, 4⟩
def SL_CTRL_OPAQUE (p k : Nat) : FRef := ⟨0x20101000 + 0x10000 * p + 0x1000 * k, 3, 3⟩
def SL_CTRL_TIER (p k : Nat) : FRef := ⟨0x20101000 + 0x10000 * p + 0x1000 * k, 2, 2⟩
def SL_CTRL_ENABLE (p k : Nat) : FRef := ⟨0x20101000 + 0x10000 * p + 0x1000 * k, 0, 0⟩
def a_SL_LAYER (p k : Nat) : Nat := 0x20101004 + 0x10000 * p + 0x1000 * k
def SL_LAYER_STALE_LIMIT (p k : Nat) : FRef := ⟨0x20101004 + 0x10000 * p + 0x1000 * k, 31, 24⟩
def SL_LAYER_UPDATE_DIV (p k : Nat) : FRef := ⟨0x20101004 + 0x10000 * p + 0x1000 * k, 23, 16⟩
def SL_LAYER_ROTATION (p k : Nat) : FRef := ⟨0x20101004 + 0x10000 * p + 0x1000 * k, 9, 8⟩
def SL_LAYER_LAYER_ID (p k : Nat) : FRef := ⟨0x20101004 + 0x10000 * p + 0x1000 * k, 7, 0⟩
def a_SL_HANDLE (p k : Nat) : Nat := 0x20101008 + 0x10000 * p + 0x1000 * k
def SL_HANDLE_HANDLE (p k : Nat) : FRef := ⟨0x20101008 + 0x10000 * p + 0x1000 * k, 9, 0⟩
def a_SL_SRC_SIZE (p k : Nat) : Nat := 0x2010100C + 0x10000 * p + 0x1000 * k
def SL_SRC_SIZE_SRC_H (p k : Nat) : FRef := ⟨0x2010100C + 0x10000 * p + 0x1000 * k, 29, 16⟩
def SL_SRC_SIZE_SRC_W (p k : Nat) : FRef := ⟨0x2010100C + 0x10000 * p + 0x1000 * k, 13, 0⟩
def a_SL_STRIDE0 (p k : Nat) : Nat := 0x20101010 + 0x10000 * p + 0x1000 * k
def SL_STRIDE0_BYTES (p k : Nat) : FRef := ⟨0x20101010 + 0x10000 * p + 0x1000 * k, 19, 0⟩
def a_SL_STRIDE1 (p k : Nat) : Nat := 0x20101014 + 0x10000 * p + 0x1000 * k
def SL_STRIDE1_BYTES (p k : Nat) : FRef := ⟨0x20101014 + 0x10000 * p + 0x1000 * k, 19, 0⟩
def a_SL_CROP_POS (p k : Nat) : Nat := 0x20101018 + 0x10000 * p + 0x1000 * k
def SL_CROP_POS_CY (p k : Nat) : FRef := ⟨0x20101018 + 0x10000 * p + 0x1000 * k, 29, 16⟩
def SL_CROP_POS_CX (p k : Nat) : FRef := ⟨0x20101018 + 0x10000 * p + 0x1000 * k, 13, 0⟩
def a_SL_CROP_SIZE (p k : Nat) : Nat := 0x2010101C + 0x10000 * p + 0x1000 * k
def SL_CROP_SIZE_CH (p k : Nat) : FRef := ⟨0x2010101C + 0x10000 * p + 0x1000 * k, 29, 16⟩
def SL_CROP_SIZE_CW (p k : Nat) : FRef := ⟨0x2010101C + 0x10000 * p + 0x1000 * k, 13, 0⟩
def a_SL_DST_POS (p k : Nat) : Nat := 0x20101020 + 0x10000 * p + 0x1000 * k
def SL_DST_POS_DY (p k : Nat) : FRef := ⟨0x20101020 + 0x10000 * p + 0x1000 * k, 27, 16⟩
def SL_DST_POS_DX (p k : Nat) : FRef := ⟨0x20101020 + 0x10000 * p + 0x1000 * k, 12, 0⟩
def a_SL_DST_SIZE (p k : Nat) : Nat := 0x20101024 + 0x10000 * p + 0x1000 * k
def SL_DST_SIZE_DH (p k : Nat) : FRef := ⟨0x20101024 + 0x10000 * p + 0x1000 * k, 27, 16⟩
def SL_DST_SIZE_DW (p k : Nat) : FRef := ⟨0x20101024 + 0x10000 * p + 0x1000 * k, 12, 0⟩
def a_SL_OPQ_POS (p k : Nat) : Nat := 0x20101028 + 0x10000 * p + 0x1000 * k
def SL_OPQ_POS_DY (p k : Nat) : FRef := ⟨0x20101028 + 0x10000 * p + 0x1000 * k, 27, 16⟩
def SL_OPQ_POS_DX (p k : Nat) : FRef := ⟨0x20101028 + 0x10000 * p + 0x1000 * k, 12, 0⟩
def a_SL_OPQ_SIZE (p k : Nat) : Nat := 0x2010102C + 0x10000 * p + 0x1000 * k
def SL_OPQ_SIZE_DH (p k : Nat) : FRef := ⟨0x2010102C + 0x10000 * p + 0x1000 * k, 27, 16⟩
def SL_OPQ_SIZE_DW (p k : Nat) : FRef := ⟨0x2010102C + 0x10000 * p + 0x1000 * k, 12, 0⟩
def a_SL_FILL (p k : Nat) : Nat := 0x20101030 + 0x10000 * p + 0x1000 * k
def SL_FILL_FILL (p k : Nat) : FRef := ⟨0x20101030 + 0x10000 * p + 0x1000 * k, 31, 0⟩
def a_SL_CONST (p k : Nat) : Nat := 0x20101034 + 0x10000 * p + 0x1000 * k
def SL_CONST_RGB (p k : Nat) : FRef := ⟨0x20101034 + 0x10000 * p + 0x1000 * k, 23, 0⟩
def a_SL_SCALE (p k : Nat) : Nat := 0x20101038 + 0x10000 * p + 0x1000 * k
def SL_SCALE_BANK_V (p k : Nat) : FRef := ⟨0x20101038 + 0x10000 * p + 0x1000 * k, 6, 4⟩
def SL_SCALE_BANK_H (p k : Nat) : FRef := ⟨0x20101038 + 0x10000 * p + 0x1000 * k, 2, 0⟩
def a_SL_PHASE_H (p k : Nat) : Nat := 0x2010103C + 0x10000 * p + 0x1000 * k
def SL_PHASE_H_OFFSET (p k : Nat) : FRef := ⟨0x2010103C + 0x10000 * p + 0x1000 * k, 17, 0⟩
def a_SL_PHASE_V (p k : Nat) : Nat := 0x20101040 + 0x10000 * p + 0x1000 * k
def SL_PHASE_V_OFFSET (p k : Nat) : FRef := ⟨0x20101040 + 0x10000 * p + 0x1000 * k, 17, 0⟩
def a_SL_STATUS (p k : Nat) : Nat := 0x20101048 + 0x10000 * p + 0x1000 * k
def SL_STATUS_SHOWN_HANDLE (p k : Nat) : FRef := ⟨0x20101048 + 0x10000 * p + 0x1000 * k, 21, 12⟩
def SL_STATUS_SCALERS (p k : Nat) : FRef := ⟨0x20101048 + 0x10000 * p + 0x1000 * k, 11, 8⟩
def SL_STATUS_CULLING (p k : Nat) : FRef := ⟨0x20101048 + 0x10000 * p + 0x1000 * k, 3, 3⟩
def SL_STATUS_FILLED (p k : Nat) : FRef := ⟨0x20101048 + 0x10000 * p + 0x1000 * k, 2, 2⟩
def SL_STATUS_HIDDEN (p k : Nat) : FRef := ⟨0x20101048 + 0x10000 * p + 0x1000 * k, 1, 1⟩
def SL_STATUS_HELD (p k : Nat) : FRef := ⟨0x20101048 + 0x10000 * p + 0x1000 * k, 0, 0⟩
def a_SL_FETCH (p k : Nat) : Nat := 0x2010104C + 0x10000 * p + 0x1000 * k
def SL_FETCH_WORDS (p k : Nat) : FRef := ⟨0x2010104C + 0x10000 * p + 0x1000 * k, 31, 0⟩
def a_SL_CULL (p k : Nat) : Nat := 0x20101050 + 0x10000 * p + 0x1000 * k
def SL_CULL_WORDS (p k : Nat) : FRef := ⟨0x20101050 + 0x10000 * p + 0x1000 * k, 31, 0⟩
def a_SL_BLEND (p k : Nat) : Nat := 0x20101080 + 0x10000 * p + 0x1000 * k
def SL_BLEND_LAYER_ALPHA (p k : Nat) : FRef := ⟨0x20101080 + 0x10000 * p + 0x1000 * k, 27, 16⟩
def SL_BLEND_MODE (p k : Nat) : FRef := ⟨0x20101080 + 0x10000 * p + 0x1000 * k, 0, 0⟩
def a_SL_PALETTE (p k i : Nat) : Nat := 0x20101400 + 0x10000 * p + 0x1000 * k + 0x4 * i
def SL_PALETTE_ENTRY (p k i : Nat) : FRef := ⟨0x20101400 + 0x10000 * p + 0x1000 * k + 0x4 * i, 31, 0⟩
/-! ### SCAN block (R195) -/

def a_FSYNC_PERIOD : Nat := 0x201F0000
def FSYNC_PERIOD_PERIOD : FRef := ⟨0x201F0000, 23, 0⟩
def a_FSYNC_CFG : Nat := 0x201F0004
def FSYNC_CFG_RETURN : FRef := ⟨0x201F0004, 11, 8⟩
def FSYNC_CFG_ACCEPT : FRef := ⟨0x201F0004, 7, 0⟩
def a_FSYNC_STATUS : Nat := 0x201F0008
def FSYNC_STATUS_LOSSES : FRef := ⟨0x201F0008, 31, 16⟩
def FSYNC_STATUS_STRAY : FRef := ⟨0x201F0008, 15, 8⟩
def FSYNC_STATUS_COASTING : FRef := ⟨0x201F0008, 1, 1⟩
def FSYNC_STATUS_PRESENT : FRef := ⟨0x201F0008, 0, 0⟩
def a_FSYNC_OUT_CFG : Nat := 0x201F000C
def FSYNC_OUT_CFG_WIDTH : FRef := ⟨0x201F000C, 31, 16⟩
def FSYNC_OUT_CFG_SRC : FRef := ⟨0x201F000C, 7, 4⟩
def FSYNC_OUT_CFG_POL : FRef := ⟨0x201F000C, 1, 1⟩
def FSYNC_OUT_CFG_EN : FRef := ⟨0x201F000C, 0, 0⟩
/-! ### BEACON block (R170) -/

def a_BC_CTRL : Nat := 0x20200000
def BC_CTRL_APPLY : FRef := ⟨0x20200000, 0, 0⟩
def a_BC_STATUS : Nat := 0x20200004
def BC_STATUS_GLYPH_BAD : FRef := ⟨0x20200004, 27, 24⟩
def BC_STATUS_HOLD_OPEN : FRef := ⟨0x20200004, 23, 20⟩
def BC_STATUS_E2E_FAILED : FRef := ⟨0x20200004, 19, 16⟩
def BC_STATUS_APPLY_RESULT : FRef := ⟨0x20200004, 11, 8⟩
def BC_STATUS_APPLY_BUSY : FRef := ⟨0x20200004, 4, 4⟩
def BC_STATUS_ENTRY_EN : FRef := ⟨0x20200004, 3, 0⟩
def a_BC_E2E_CFG : Nat := 0x20200008
def BC_E2E_CFG_ACTION : FRef := ⟨0x20200008, 16, 16⟩
def BC_E2E_CFG_QUIET : FRef := ⟨0x20200008, 15, 8⟩
def BC_E2E_CFG_SLACK : FRef := ⟨0x20200008, 1, 0⟩
def a_BC_INJ : Nat := 0x2020000C
def BC_INJ_RENDER : FRef := ⟨0x2020000C, 5, 5⟩
def BC_INJ_GLYPH : FRef := ⟨0x2020000C, 4, 4⟩
def BC_INJ_CRC : FRef := ⟨0x2020000C, 3, 0⟩
def a_BC_SHOWN (j : Nat) : Nat := 0x20200010 + 0x4 * j
def BC_SHOWN_TT_0 (j : Nat) : FRef := ⟨0x20200010 + 0x4 * j, 1, 0⟩
def BC_SHOWN_TT_1 (j : Nat) : FRef := ⟨0x20200010 + 0x4 * j, 3, 2⟩
def BC_SHOWN_TT_2 (j : Nat) : FRef := ⟨0x20200010 + 0x4 * j, 5, 4⟩
def BC_SHOWN_TT_3 (j : Nat) : FRef := ⟨0x20200010 + 0x4 * j, 7, 6⟩
def BC_SHOWN_TT_4 (j : Nat) : FRef := ⟨0x20200010 + 0x4 * j, 9, 8⟩
def BC_SHOWN_TT_5 (j : Nat) : FRef := ⟨0x20200010 + 0x4 * j, 11, 10⟩
def BC_SHOWN_TT_6 (j : Nat) : FRef := ⟨0x20200010 + 0x4 * j, 13, 12⟩
def BC_SHOWN_TT_7 (j : Nat) : FRef := ⟨0x20200010 + 0x4 * j, 15, 14⟩
def BC_SHOWN_TT_8 (j : Nat) : FRef := ⟨0x20200010 + 0x4 * j, 17, 16⟩
def BC_SHOWN_TT_9 (j : Nat) : FRef := ⟨0x20200010 + 0x4 * j, 19, 18⟩
def BC_SHOWN_TT_10 (j : Nat) : FRef := ⟨0x20200010 + 0x4 * j, 21, 20⟩
def BC_SHOWN_TT_11 (j : Nat) : FRef := ⟨0x20200010 + 0x4 * j, 23, 22⟩
def BC_SHOWN_TT_12 (j : Nat) : FRef := ⟨0x20200010 + 0x4 * j, 25, 24⟩
def BC_SHOWN_TT_13 (j : Nat) : FRef := ⟨0x20200010 + 0x4 * j, 27, 26⟩
def BC_SHOWN_TT_14 (j : Nat) : FRef := ⟨0x20200010 + 0x4 * j, 29, 28⟩
def BC_SHOWN_TT_15 (j : Nat) : FRef := ⟨0x20200010 + 0x4 * j, 31, 30⟩
def a_BC_PROOF (j : Nat) : Nat := 0x20200020 + 0x4 * j
def BC_PROOF_TT_0 (j : Nat) : FRef := ⟨0x20200020 + 0x4 * j, 1, 0⟩
def BC_PROOF_TT_1 (j : Nat) : FRef := ⟨0x20200020 + 0x4 * j, 3, 2⟩
def BC_PROOF_TT_2 (j : Nat) : FRef := ⟨0x20200020 + 0x4 * j, 5, 4⟩
def BC_PROOF_TT_3 (j : Nat) : FRef := ⟨0x20200020 + 0x4 * j, 7, 6⟩
def BC_PROOF_TT_4 (j : Nat) : FRef := ⟨0x20200020 + 0x4 * j, 9, 8⟩
def BC_PROOF_TT_5 (j : Nat) : FRef := ⟨0x20200020 + 0x4 * j, 11, 10⟩
def BC_PROOF_TT_6 (j : Nat) : FRef := ⟨0x20200020 + 0x4 * j, 13, 12⟩
def BC_PROOF_TT_7 (j : Nat) : FRef := ⟨0x20200020 + 0x4 * j, 15, 14⟩
def BC_PROOF_TT_8 (j : Nat) : FRef := ⟨0x20200020 + 0x4 * j, 17, 16⟩
def BC_PROOF_TT_9 (j : Nat) : FRef := ⟨0x20200020 + 0x4 * j, 19, 18⟩
def BC_PROOF_TT_10 (j : Nat) : FRef := ⟨0x20200020 + 0x4 * j, 21, 20⟩
def BC_PROOF_TT_11 (j : Nat) : FRef := ⟨0x20200020 + 0x4 * j, 23, 22⟩
def BC_PROOF_TT_12 (j : Nat) : FRef := ⟨0x20200020 + 0x4 * j, 25, 24⟩
def BC_PROOF_TT_13 (j : Nat) : FRef := ⟨0x20200020 + 0x4 * j, 27, 26⟩
def BC_PROOF_TT_14 (j : Nat) : FRef := ⟨0x20200020 + 0x4 * j, 29, 28⟩
def BC_PROOF_TT_15 (j : Nat) : FRef := ⟨0x20200020 + 0x4 * j, 31, 30⟩
def a_BE_CFG (e : Nat) : Nat := 0x20200100 + 0x40 * e
def BE_CFG_EN (e : Nat) : FRef := ⟨0x20200100 + 0x40 * e, 31, 31⟩
def BE_CFG_PIPE (e : Nat) : FRef := ⟨0x20200100 + 0x40 * e, 3, 0⟩
def a_BE_BG (e : Nat) : Nat := 0x20200104 + 0x40 * e
def BE_BG_RGB (e : Nat) : FRef := ⟨0x20200104 + 0x40 * e, 29, 0⟩
def a_BE_FAULT (e : Nat) : Nat := 0x20200108 + 0x40 * e
def BE_FAULT_RGB (e : Nat) : FRef := ⟨0x20200108 + 0x40 * e, 29, 0⟩
def a_BE_HOLD_START (e : Nat) : Nat := 0x2020010C + 0x40 * e
def BE_HOLD_START_START (e : Nat) : FRef := ⟨0x2020010C + 0x40 * e, 31, 0⟩
def a_BE_POS_0 (e : Nat) : Nat := 0x20200110 + 0x40 * e
def BE_POS_0_Y (e : Nat) : FRef := ⟨0x20200110 + 0x40 * e, 27, 16⟩
def BE_POS_0_X (e : Nat) : FRef := ⟨0x20200110 + 0x40 * e, 12, 0⟩
def a_BE_SIZE_0 (e : Nat) : Nat := 0x20200114 + 0x40 * e
def BE_SIZE_0_H (e : Nat) : FRef := ⟨0x20200114 + 0x40 * e, 27, 16⟩
def BE_SIZE_0_W (e : Nat) : FRef := ⟨0x20200114 + 0x40 * e, 12, 0⟩
def a_BE_POS_1 (e : Nat) : Nat := 0x20200118 + 0x40 * e
def BE_POS_1_Y (e : Nat) : FRef := ⟨0x20200118 + 0x40 * e, 27, 16⟩
def BE_POS_1_X (e : Nat) : FRef := ⟨0x20200118 + 0x40 * e, 12, 0⟩
def a_BE_SIZE_1 (e : Nat) : Nat := 0x2020011C + 0x40 * e
def BE_SIZE_1_H (e : Nat) : FRef := ⟨0x2020011C + 0x40 * e, 27, 16⟩
def BE_SIZE_1_W (e : Nat) : FRef := ⟨0x2020011C + 0x40 * e, 12, 0⟩
def a_BE_POS_2 (e : Nat) : Nat := 0x20200120 + 0x40 * e
def BE_POS_2_Y (e : Nat) : FRef := ⟨0x20200120 + 0x40 * e, 27, 16⟩
def BE_POS_2_X (e : Nat) : FRef := ⟨0x20200120 + 0x40 * e, 12, 0⟩
def a_BE_SIZE_2 (e : Nat) : Nat := 0x20200124 + 0x40 * e
def BE_SIZE_2_H (e : Nat) : FRef := ⟨0x20200124 + 0x40 * e, 27, 16⟩
def BE_SIZE_2_W (e : Nat) : FRef := ⟨0x20200124 + 0x40 * e, 12, 0⟩
def a_BE_POS_3 (e : Nat) : Nat := 0x20200128 + 0x40 * e
def BE_POS_3_Y (e : Nat) : FRef := ⟨0x20200128 + 0x40 * e, 27, 16⟩
def BE_POS_3_X (e : Nat) : FRef := ⟨0x20200128 + 0x40 * e, 12, 0⟩
def a_BE_SIZE_3 (e : Nat) : Nat := 0x2020012C + 0x40 * e
def BE_SIZE_3_H (e : Nat) : FRef := ⟨0x2020012C + 0x40 * e, 27, 16⟩
def BE_SIZE_3_W (e : Nat) : FRef := ⟨0x2020012C + 0x40 * e, 12, 0⟩
def a_BE_CRC (e : Nat) : Nat := 0x20200130 + 0x40 * e
def BE_CRC_CRC (e : Nat) : FRef := ⟨0x20200130 + 0x40 * e, 31, 0⟩
def a_BE_RX_CRC (e : Nat) : Nat := 0x20200134 + 0x40 * e
def BE_RX_CRC_CRC (e : Nat) : FRef := ⟨0x20200134 + 0x40 * e, 31, 0⟩
def a_BE_E2E (e : Nat) : Nat := 0x20200138 + 0x40 * e
def BE_E2E_MATCH_RUN (e : Nat) : FRef := ⟨0x20200138 + 0x40 * e, 31, 16⟩
def BE_E2E_FRAME (e : Nat) : FRef := ⟨0x20200138 + 0x40 * e, 15, 8⟩
def BE_E2E_FAILED (e : Nat) : FRef := ⟨0x20200138 + 0x40 * e, 3, 3⟩
def BE_E2E_RETRY (e : Nat) : FRef := ⟨0x20200138 + 0x40 * e, 2, 2⟩
def BE_E2E_LAST (e : Nat) : FRef := ⟨0x20200138 + 0x40 * e, 1, 0⟩
def a_BE_HOLD_LEN (e : Nat) : Nat := 0x2020013C + 0x40 * e
def BE_HOLD_LEN_OPEN (e : Nat) : FRef := ⟨0x2020013C + 0x40 * e, 31, 31⟩
def BE_HOLD_LEN_EXTENDED (e : Nat) : FRef := ⟨0x2020013C + 0x40 * e, 30, 30⟩
def BE_HOLD_LEN_LEN (e : Nat) : FRef := ⟨0x2020013C + 0x40 * e, 10, 0⟩
def a_TT_CFG (i : Nat) : Nat := 0x20201000 + 0x10 * i
def TT_CFG_EN (i : Nat) : FRef := ⟨0x20201000 + 0x10 * i, 31, 31⟩
def TT_CFG_ENTRY (i : Nat) : FRef := ⟨0x20201000 + 0x10 * i, 29, 28⟩
def TT_CFG_GLYPH_OFF (i : Nat) : FRef := ⟨0x20201000 + 0x10 * i, 25, 16⟩
def TT_CFG_OFF_NONE (i : Nat) : FRef := ⟨0x20201000 + 0x10 * i, 15, 15⟩
def TT_CFG_GLYPH_ON (i : Nat) : FRef := ⟨0x20201000 + 0x10 * i, 9, 0⟩
def a_TT_POS (i : Nat) : Nat := 0x20201004 + 0x10 * i
def TT_POS_Y (i : Nat) : FRef := ⟨0x20201004 + 0x10 * i, 27, 16⟩
def TT_POS_X (i : Nat) : FRef := ⟨0x20201004 + 0x10 * i, 12, 0⟩
def a_TT_MODE (i : Nat) : Nat := 0x20201008 + 0x10 * i
def TT_MODE_TIMEOUT (i : Nat) : FRef := ⟨0x20201008 + 0x10 * i, 31, 24⟩
def TT_MODE_POLICY (i : Nat) : FRef := ⟨0x20201008 + 0x10 * i, 17, 16⟩
def TT_MODE_BLINK_OFF (i : Nat) : FRef := ⟨0x20201008 + 0x10 * i, 15, 8⟩
def TT_MODE_BLINK_ON (i : Nat) : FRef := ⟨0x20201008 + 0x10 * i, 7, 0⟩
def a_TT_STATE (i : Nat) : Nat := 0x2020100C + 0x10 * i
def TT_STATE_AGE (i : Nat) : FRef := ⟨0x2020100C + 0x10 * i, 31, 16⟩
def TT_STATE_PROOF (i : Nat) : FRef := ⟨0x2020100C + 0x10 * i, 13, 12⟩
def TT_STATE_GLYPH_BAD (i : Nat) : FRef := ⟨0x2020100C + 0x10 * i, 10, 10⟩
def TT_STATE_PLACE_BAD (i : Nat) : FRef := ⟨0x2020100C + 0x10 * i, 9, 9⟩
def TT_STATE_TIMED_OUT (i : Nat) : FRef := ⟨0x2020100C + 0x10 * i, 8, 8⟩
def TT_STATE_SHOWN (i : Nat) : FRef := ⟨0x2020100C + 0x10 * i, 5, 4⟩
def TT_STATE_REQ (i : Nat) : FRef := ⟨0x2020100C + 0x10 * i, 1, 0⟩
def a_CLU_CTRL : Nat := 0x20202000
def CLU_CTRL_DIV : FRef := ⟨0x20202000, 15, 8⟩
def CLU_CTRL_EN : FRef := ⟨0x20202000, 0, 0⟩
def a_CLU_TARGET : Nat := 0x20202004
def CLU_TARGET_PIPE : FRef := ⟨0x20202004, 19, 16⟩
def CLU_TARGET_SLOT : FRef := ⟨0x20202004, 6, 4⟩
def a_CLU_HANDLE : Nat := 0x20202008
def CLU_HANDLE_HANDLE_B : FRef := ⟨0x20202008, 25, 16⟩
def CLU_HANDLE_HANDLE_A : FRef := ⟨0x20202008, 9, 0⟩
def a_CLU_DL : Nat := 0x2020200C
def CLU_DL_ADDR : FRef := ⟨0x2020200C, 31, 0⟩
def a_CLU_BG : Nat := 0x20202010
def CLU_BG_COLOUR : FRef := ⟨0x20202010, 31, 0⟩
def a_CLU_STATUS : Nat := 0x20202014
def CLU_STATUS_RESULT : FRef := ⟨0x20202014, 23, 20⟩
def CLU_STATUS_STOPPED : FRef := ⟨0x20202014, 4, 4⟩
def CLU_STATUS_ATLAS_BAD : FRef := ⟨0x20202014, 3, 3⟩
def CLU_STATUS_DL_BAD : FRef := ⟨0x20202014, 2, 2⟩
def CLU_STATUS_LATE : FRef := ⟨0x20202014, 1, 1⟩
def CLU_STATUS_BUSY : FRef := ⟨0x20202014, 0, 0⟩
/-! ### DMA block (R227) -/

def a_DMA_CFG : Nat := 0x20300000
def DMA_CFG_CPL_TIMEOUT : FRef := ⟨0x20300000, 31, 16⟩
def a_DMA_STAGE : Nat := 0x20300004
def DMA_STAGE_HIGH : FRef := ⟨0x20300004, 15, 8⟩
def DMA_STAGE_LOW : FRef := ⟨0x20300004, 7, 0⟩
def a_DMA_STATUS : Nat := 0x20300008
def DMA_STATUS_TAGS_USED : FRef := ⟨0x20300008, 26, 16⟩
def DMA_STATUS_STAGE_USED : FRef := ⟨0x20300008, 7, 0⟩
def a_DMA_SVC_PORT : Nat := 0x2030000C
def DMA_SVC_PORT_PORT_0 : FRef := ⟨0x2030000C, 1, 0⟩
def DMA_SVC_PORT_PORT_1 : FRef := ⟨0x2030000C, 3, 2⟩
def DMA_SVC_PORT_PORT_2 : FRef := ⟨0x2030000C, 5, 4⟩
def DMA_SVC_PORT_PORT_3 : FRef := ⟨0x2030000C, 7, 6⟩
def DMA_SVC_PORT_PORT_4 : FRef := ⟨0x2030000C, 9, 8⟩
def DMA_SVC_PORT_PORT_5 : FRef := ⟨0x2030000C, 11, 10⟩
def DMA_SVC_PORT_PORT_6 : FRef := ⟨0x2030000C, 13, 12⟩
def DMA_SVC_PORT_PORT_7 : FRef := ⟨0x2030000C, 15, 14⟩
def DMA_SVC_PORT_PORT_8 : FRef := ⟨0x2030000C, 17, 16⟩
def DMA_SVC_PORT_PORT_9 : FRef := ⟨0x2030000C, 19, 18⟩
def DMA_SVC_PORT_PORT_10 : FRef := ⟨0x2030000C, 21, 20⟩
def DMA_SVC_PORT_PORT_11 : FRef := ⟨0x2030000C, 23, 22⟩
def DMA_SVC_PORT_PORT_12 : FRef := ⟨0x2030000C, 25, 24⟩
def DMA_SVC_PORT_PORT_13 : FRef := ⟨0x2030000C, 27, 26⟩
def DMA_SVC_PORT_PORT_14 : FRef := ⟨0x2030000C, 29, 28⟩
def DMA_SVC_PORT_PORT_15 : FRef := ⟨0x2030000C, 31, 30⟩
def a_DMA_NOW_LO : Nat := 0x20300010
def DMA_NOW_LO_NOW : FRef := ⟨0x20300010, 31, 0⟩
def a_DMA_NOW_HI : Nat := 0x20300014
def DMA_NOW_HI_NOW : FRef := ⟨0x20300014, 31, 0⟩
def a_DMA_INJ : Nat := 0x20300018
def DMA_INJ_SEAL : FRef := ⟨0x20300018, 1, 1⟩
def DMA_INJ_STG : FRef := ⟨0x20300018, 0, 0⟩
def a_DMA_ERR_INFO : Nat := 0x2030001C
def DMA_ERR_INFO_CH : FRef := ⟨0x2030001C, 22, 16⟩
def DMA_ERR_INFO_CAUSE : FRef := ⟨0x2030001C, 15, 12⟩
def DMA_ERR_INFO_CODE : FRef := ⟨0x2030001C, 7, 0⟩
def a_DMA_ERR_ADDR_LO : Nat := 0x20300020
def DMA_ERR_ADDR_LO_ADDR : FRef := ⟨0x20300020, 31, 0⟩
def a_DMA_ERR_ADDR_HI : Nat := 0x20300024
def DMA_ERR_ADDR_HI_ADDR : FRef := ⟨0x20300024, 31, 0⟩
/-! ### DMACH block (R228) -/

def a_CH_CTRL (c : Nat) : Nat := 0x20310000 + 0x100 * c
def CH_CTRL_ABORT (c : Nat) : FRef := ⟨0x20310000 + 0x100 * c, 2, 2⟩
def CH_CTRL_RELOAD (c : Nat) : FRef := ⟨0x20310000 + 0x100 * c, 1, 1⟩
def CH_CTRL_PAUSE (c : Nat) : FRef := ⟨0x20310000 + 0x100 * c, 0, 0⟩
def a_CH_CFG (c : Nat) : Nat := 0x20310004 + 0x100 * c
def CH_CFG_SLACK (c : Nat) : FRef := ⟨0x20310004 + 0x100 * c, 31, 16⟩
def CH_CFG_STAGE_MAX (c : Nat) : FRef := ⟨0x20310004 + 0x100 * c, 15, 8⟩
def CH_CFG_STAGE_HYST (c : Nat) : FRef := ⟨0x20310004 + 0x100 * c, 7, 4⟩
def CH_CFG_TIER (c : Nat) : FRef := ⟨0x20310004 + 0x100 * c, 3, 2⟩
def a_CH_DB_LO (c : Nat) : Nat := 0x20310008 + 0x100 * c
def CH_DB_LO_ADDR (c : Nat) : FRef := ⟨0x20310008 + 0x100 * c, 31, 6⟩
def a_CH_DB_HI (c : Nat) : Nat := 0x2031000C + 0x100 * c
def CH_DB_HI_ADDR (c : Nat) : FRef := ⟨0x2031000C + 0x100 * c, 31, 0⟩
def a_CH_STATUS (c : Nat) : Nat := 0x20310010 + 0x100 * c
def CH_STATUS_SOURCE_CHANGED (c : Nat) : FRef := ⟨0x20310010 + 0x100 * c, 26, 26⟩
def CH_STATUS_FILL_ABANDONED (c : Nat) : FRef := ⟨0x20310010 + 0x100 * c, 25, 25⟩
def CH_STATUS_DESC_ERR (c : Nat) : FRef := ⟨0x20310010 + 0x100 * c, 24, 24⟩
def CH_STATUS_LATE (c : Nat) : FRef := ⟨0x20310010 + 0x100 * c, 23, 23⟩
def CH_STATUS_DB_OVERRUN (c : Nat) : FRef := ⟨0x20310010 + 0x100 * c, 22, 22⟩
def CH_STATUS_CONFLICT (c : Nat) : FRef := ⟨0x20310010 + 0x100 * c, 21, 21⟩
def CH_STATUS_OWNER (c : Nat) : FRef := ⟨0x20310010 + 0x100 * c, 20, 20⟩
def CH_STATUS_INVALID (c : Nat) : FRef := ⟨0x20310010 + 0x100 * c, 19, 19⟩
def CH_STATUS_SEAL_FAIL (c : Nat) : FRef := ⟨0x20310010 + 0x100 * c, 18, 18⟩
def CH_STATUS_BAD (c : Nat) : FRef := ⟨0x20310010 + 0x100 * c, 17, 17⟩
def CH_STATUS_PINNED_WRITE (c : Nat) : FRef := ⟨0x20310010 + 0x100 * c, 16, 16⟩
def CH_STATUS_FILL_OPEN (c : Nat) : FRef := ⟨0x20310010 + 0x100 * c, 11, 11⟩
def CH_STATUS_PREFETCHED (c : Nat) : FRef := ⟨0x20310010 + 0x100 * c, 10, 8⟩
def CH_STATUS_QUEUED (c : Nat) : FRef := ⟨0x20310010 + 0x100 * c, 6, 4⟩
def CH_STATUS_STATE (c : Nat) : FRef := ⟨0x20310010 + 0x100 * c, 2, 0⟩
def a_CH_CUR_LO (c : Nat) : Nat := 0x20310014 + 0x100 * c
def CH_CUR_LO_ADDR (c : Nat) : FRef := ⟨0x20310014 + 0x100 * c, 31, 0⟩
def a_CH_CUR_HI (c : Nat) : Nat := 0x20310018 + 0x100 * c
def CH_CUR_HI_ADDR (c : Nat) : FRef := ⟨0x20310018 + 0x100 * c, 31, 0⟩
def a_CH_REMAIN (c : Nat) : Nat := 0x2031001C + 0x100 * c
def CH_REMAIN_BYTES (c : Nat) : FRef := ⟨0x2031001C + 0x100 * c, 31, 0⟩
def a_CH_OPEN (c : Nat) : Nat := 0x20310020 + 0x100 * c
def CH_OPEN_REQUESTS (c : Nat) : FRef := ⟨0x20310020 + 0x100 * c, 26, 16⟩
def CH_OPEN_ACK_KIB (c : Nat) : FRef := ⟨0x20310020 + 0x100 * c, 15, 0⟩
def a_CH_DEADLINE_LO (c : Nat) : Nat := 0x20310024 + 0x100 * c
def CH_DEADLINE_LO_DEADLINE (c : Nat) : FRef := ⟨0x20310024 + 0x100 * c, 31, 0⟩
def a_CH_DEADLINE_HI (c : Nat) : Nat := 0x20310028 + 0x100 * c
def CH_DEADLINE_HI_DEADLINE (c : Nat) : FRef := ⟨0x20310028 + 0x100 * c, 31, 0⟩
def a_CH_LAST (c : Nat) : Nat := 0x2031002C + 0x100 * c
def CH_LAST_TAG (c : Nat) : FRef := ⟨0x2031002C + 0x100 * c, 31, 0⟩
def a_CH_LAST_STATUS (c : Nat) : Nat := 0x20310030 + 0x100 * c
def CH_LAST_STATUS_DONE (c : Nat) : FRef := ⟨0x20310030 + 0x100 * c, 31, 16⟩
def CH_LAST_STATUS_ATTEMPTS (c : Nat) : FRef := ⟨0x20310030 + 0x100 * c, 15, 8⟩
def CH_LAST_STATUS_CODE (c : Nat) : FRef := ⟨0x20310030 + 0x100 * c, 7, 0⟩
def a_CH_STAT_BYTES (c : Nat) : Nat := 0x20310034 + 0x100 * c
def CH_STAT_BYTES_KIB (c : Nat) : FRef := ⟨0x20310034 + 0x100 * c, 31, 0⟩
def a_CH_STAT_SPEC (c : Nat) : Nat := 0x20310038 + 0x100 * c
def CH_STAT_SPEC_KIB (c : Nat) : FRef := ⟨0x20310038 + 0x100 * c, 31, 0⟩
def a_CH_STAT_LATE (c : Nat) : Nat := 0x2031003C + 0x100 * c
def CH_STAT_LATE_COUNT (c : Nat) : FRef := ⟨0x2031003C + 0x100 * c, 31, 0⟩
/-! ### DECODER block (R252, R253) -/

def a_DEC_CTRL : Nat := 0x20400000
def DEC_CTRL_UNFENCE : FRef := ⟨0x20400000, 0, 0⟩
def a_DEC_STATUS : Nat := 0x20400004
def DEC_STATUS_OPEN : FRef := ⟨0x20400004, 31, 16⟩
def DEC_STATUS_BUSY : FRef := ⟨0x20400004, 1, 1⟩
def DEC_STATUS_FENCED : FRef := ⟨0x20400004, 0, 0⟩
def a_DEC_ADM_CELLS : Nat := 0x20400008
def DEC_ADM_CELLS_CELLS : FRef := ⟨0x20400008, 12, 0⟩
def a_DEC_ADM_HBW : Nat := 0x2040000C
def DEC_ADM_HBW_MBPS : FRef := ⟨0x2040000C, 19, 0⟩
def a_DEC_ADM_LINK : Nat := 0x20400010
def DEC_ADM_LINK_MBITPS : FRef := ⟨0x20400010, 20, 0⟩
def a_DEC_ADM_POWER : Nat := 0x20400014
def DEC_ADM_POWER_TOKENS : FRef := ⟨0x20400014, 24, 16⟩
def DEC_ADM_POWER_MW : FRef := ⟨0x20400014, 15, 0⟩
def a_DEC_ADM_LUMA : Nat := 0x20400018
def DEC_ADM_LUMA_MSPS : FRef := ⟨0x20400018, 11, 0⟩
def a_DEC_INJ : Nat := 0x2040001C
def DEC_INJ_PAR : FRef := ⟨0x2040001C, 3, 3⟩
def DEC_INJ_WDT : FRef := ⟨0x2040001C, 2, 2⟩
def DEC_INJ_HASH : FRef := ⟨0x2040001C, 1, 1⟩
def DEC_INJ_CACHE : FRef := ⟨0x2040001C, 0, 0⟩
def a_DEC_ERR_INFO : Nat := 0x20400020
def DEC_ERR_INFO_SESSION : FRef := ⟨0x20400020, 19, 16⟩
def DEC_ERR_INFO_FAULT : FRef := ⟨0x20400020, 7, 0⟩
def a_DS_CMD (s : Nat) : Nat := 0x20401000 + 0x100 * s
def DS_CMD_CMD (s : Nat) : FRef := ⟨0x20401000 + 0x100 * s, 2, 0⟩
def a_DS_RESULT (s : Nat) : Nat := 0x20401004 + 0x100 * s
def DS_RESULT_SEQ (s : Nat) : FRef := ⟨0x20401004 + 0x100 * s, 31, 24⟩
def DS_RESULT_OVERRUN (s : Nat) : FRef := ⟨0x20401004 + 0x100 * s, 18, 18⟩
def DS_RESULT_VALID (s : Nat) : FRef := ⟨0x20401004 + 0x100 * s, 17, 17⟩
def DS_RESULT_BUSY (s : Nat) : FRef := ⟨0x20401004 + 0x100 * s, 16, 16⟩
def DS_RESULT_CODE (s : Nat) : FRef := ⟨0x20401004 + 0x100 * s, 3, 0⟩
def a_DS_DETAIL (s : Nat) : Nat := 0x20401008 + 0x100 * s
def DS_DETAIL_DETAIL (s : Nat) : FRef := ⟨0x20401008 + 0x100 * s, 31, 0⟩
def a_DS_GEOM (s : Nat) : Nat := 0x2040100C + 0x100 * s
def DS_GEOM_H (s : Nat) : FRef := ⟨0x2040100C + 0x100 * s, 28, 16⟩
def DS_GEOM_W (s : Nat) : FRef := ⟨0x2040100C + 0x100 * s, 13, 0⟩
def a_DS_PARAM (s : Nat) : Nat := 0x20401010 + 0x100 * s
def DS_PARAM_DPB (s : Nat) : FRef := ⟨0x20401010 + 0x100 * s, 20, 16⟩
def DS_PARAM_DEPTH (s : Nat) : FRef := ⟨0x20401010 + 0x100 * s, 0, 0⟩
def a_DS_RATE (s : Nat) : Nat := 0x20401014 + 0x100 * s
def DS_RATE_MHZ (s : Nat) : FRef := ⟨0x20401014 + 0x100 * s, 18, 0⟩
def a_DS_KBPS (s : Nat) : Nat := 0x20401018 + 0x100 * s
def DS_KBPS_KBPS (s : Nat) : FRef := ⟨0x20401018 + 0x100 * s, 17, 0⟩
def a_DS_CFG (s : Nat) : Nat := 0x2040101C + 0x100 * s
def DS_CFG_COUNT (s : Nat) : FRef := ⟨0x2040101C + 0x100 * s, 9, 8⟩
def a_DS_OUT_HANDLE (s : Nat) : Nat := 0x20401020 + 0x100 * s
def DS_OUT_HANDLE_H2 (s : Nat) : FRef := ⟨0x20401020 + 0x100 * s, 29, 20⟩
def DS_OUT_HANDLE_H1 (s : Nat) : FRef := ⟨0x20401020 + 0x100 * s, 19, 10⟩
def DS_OUT_HANDLE_H0 (s : Nat) : FRef := ⟨0x20401020 + 0x100 * s, 9, 0⟩
def a_DS_OUT_STRIDE (s : Nat) : Nat := 0x20401024 + 0x100 * s
def DS_OUT_STRIDE_STRIDE1 (s : Nat) : FRef := ⟨0x20401024 + 0x100 * s, 31, 16⟩
def DS_OUT_STRIDE_STRIDE0 (s : Nat) : FRef := ⟨0x20401024 + 0x100 * s, 15, 0⟩
def a_DS_LAYER (s : Nat) : Nat := 0x20401028 + 0x100 * s
def DS_LAYER_BIND (s : Nat) : FRef := ⟨0x20401028 + 0x100 * s, 8, 8⟩
def DS_LAYER_LAYER_ID (s : Nat) : FRef := ⟨0x20401028 + 0x100 * s, 7, 0⟩
def a_DS_POLICY (s : Nat) : Nat := 0x2040102C + 0x100 * s
def DS_POLICY_HASH_EN (s : Nat) : FRef := ⟨0x2040102C + 0x100 * s, 1, 1⟩
def DS_POLICY_TAINT_POLICY (s : Nat) : FRef := ⟨0x2040102C + 0x100 * s, 0, 0⟩
def a_DS_STATUS (s : Nat) : Nat := 0x20401030 + 0x100 * s
def DS_STATUS_OUT_TAINT (s : Nat) : FRef := ⟨0x20401030 + 0x100 * s, 26, 24⟩
def DS_STATUS_NEXT (s : Nat) : FRef := ⟨0x20401030 + 0x100 * s, 21, 20⟩
def DS_STATUS_TIMEOUT (s : Nat) : FRef := ⟨0x20401030 + 0x100 * s, 13, 13⟩
def DS_STATUS_HASH_FAIL (s : Nat) : FRef := ⟨0x20401030 + 0x100 * s, 12, 12⟩
def DS_STATUS_CONCEALED (s : Nat) : FRef := ⟨0x20401030 + 0x100 * s, 11, 11⟩
def DS_STATUS_SPS_REFUSED (s : Nat) : FRef := ⟨0x20401030 + 0x100 * s, 10, 10⟩
def DS_STATUS_WR_ERR (s : Nat) : FRef := ⟨0x20401030 + 0x100 * s, 9, 9⟩
def DS_STATUS_PINNED_WRITE (s : Nat) : FRef := ⟨0x20401030 + 0x100 * s, 8, 8⟩
def DS_STATUS_STATE (s : Nat) : FRef := ⟨0x20401030 + 0x100 * s, 2, 0⟩
def a_DS_INFO (s : Nat) : Nat := 0x20401034 + 0x100 * s
def DS_INFO_PRIMARIES (s : Nat) : FRef := ⟨0x20401034 + 0x100 * s, 31, 24⟩
def DS_INFO_MATRIX (s : Nat) : FRef := ⟨0x20401034 + 0x100 * s, 23, 16⟩
def DS_INFO_FULL (s : Nat) : FRef := ⟨0x20401034 + 0x100 * s, 15, 15⟩
def DS_INFO_VUI (s : Nat) : FRef := ⟨0x20401034 + 0x100 * s, 14, 14⟩
def DS_INFO_DEPTH_C (s : Nat) : FRef := ⟨0x20401034 + 0x100 * s, 11, 11⟩
def DS_INFO_DEPTH_Y (s : Nat) : FRef := ⟨0x20401034 + 0x100 * s, 10, 10⟩
def DS_INFO_PROFILE (s : Nat) : FRef := ⟨0x20401034 + 0x100 * s, 9, 8⟩
def DS_INFO_LEVEL (s : Nat) : FRef := ⟨0x20401034 + 0x100 * s, 7, 0⟩
def a_DS_OUT_SIZE (s : Nat) : Nat := 0x20401038 + 0x100 * s
def DS_OUT_SIZE_H (s : Nat) : FRef := ⟨0x20401038 + 0x100 * s, 28, 16⟩
def DS_OUT_SIZE_W (s : Nat) : FRef := ⟨0x20401038 + 0x100 * s, 13, 0⟩
def a_DS_OUT_LAST (s : Nat) : Nat := 0x2040103C + 0x100 * s
def DS_OUT_LAST_POC (s : Nat) : FRef := ⟨0x2040103C + 0x100 * s, 31, 16⟩
def DS_OUT_LAST_TAINT (s : Nat) : FRef := ⟨0x2040103C + 0x100 * s, 15, 15⟩
def DS_OUT_LAST_ENTRY (s : Nat) : FRef := ⟨0x2040103C + 0x100 * s, 11, 10⟩
def DS_OUT_LAST_HANDLE (s : Nat) : FRef := ⟨0x2040103C + 0x100 * s, 9, 0⟩
def a_DS_CNT_DEC (s : Nat) : Nat := 0x20401040 + 0x100 * s
def DS_CNT_DEC_HASH_OK (s : Nat) : FRef := ⟨0x20401040 + 0x100 * s, 31, 16⟩
def DS_CNT_DEC_DECODED (s : Nat) : FRef := ⟨0x20401040 + 0x100 * s, 15, 0⟩
def a_DS_CNT_OUT (s : Nat) : Nat := 0x20401044 + 0x100 * s
def DS_CNT_OUT_DROPPED (s : Nat) : FRef := ⟨0x20401044 + 0x100 * s, 31, 16⟩
def DS_CNT_OUT_OUTPUT (s : Nat) : FRef := ⟨0x20401044 + 0x100 * s, 15, 0⟩
def a_DS_IN (s : Nat) : Nat := 0x20401048 + 0x100 * s
def DS_IN_DISCARDED (s : Nat) : FRef := ⟨0x20401048 + 0x100 * s, 31, 0⟩
/-! ### ENCODER block (R273, R274) -/

def a_ENC_CTRL : Nat := 0x20410000
def ENC_CTRL_UNFENCE : FRef := ⟨0x20410000, 0, 0⟩
def a_ENC_STATUS : Nat := 0x20410004
def ENC_STATUS_OPEN : FRef := ⟨0x20410004, 27, 16⟩
def ENC_STATUS_BUSY : FRef := ⟨0x20410004, 1, 1⟩
def ENC_STATUS_FENCED : FRef := ⟨0x20410004, 0, 0⟩
def a_ENC_CELLS : Nat := 0x20410008
def ENC_CELLS_CELLS : FRef := ⟨0x20410008, 12, 0⟩
def a_ENC_GRANT : Nat := 0x2041000C
def ENC_GRANT_MSPS : FRef := ⟨0x2041000C, 26, 16⟩
def ENC_GRANT_TOKENS : FRef := ⟨0x2041000C, 3, 0⟩
def a_ENC_INJ : Nat := 0x20410010
def ENC_INJ_PAR : FRef := ⟨0x20410010, 2, 2⟩
def ENC_INJ_WDT : FRef := ⟨0x20410010, 1, 1⟩
def ENC_INJ_SRAM : FRef := ⟨0x20410010, 0, 0⟩
def a_ENC_ERR_INFO : Nat := 0x20410014
def ENC_ERR_INFO_SESSION : FRef := ⟨0x20410014, 19, 16⟩
def ENC_ERR_INFO_FAULT : FRef := ⟨0x20410014, 7, 0⟩
def a_ES_CMD (s : Nat) : Nat := 0x20411000 + 0x200 * s
def ES_CMD_CMD (s : Nat) : FRef := ⟨0x20411000 + 0x200 * s, 2, 0⟩
def a_ES_RESULT (s : Nat) : Nat := 0x20411004 + 0x200 * s
def ES_RESULT_SEQ (s : Nat) : FRef := ⟨0x20411004 + 0x200 * s, 31, 24⟩
def ES_RESULT_OVERRUN (s : Nat) : FRef := ⟨0x20411004 + 0x200 * s, 18, 18⟩
def ES_RESULT_VALID (s : Nat) : FRef := ⟨0x20411004 + 0x200 * s, 17, 17⟩
def ES_RESULT_BUSY (s : Nat) : FRef := ⟨0x20411004 + 0x200 * s, 16, 16⟩
def ES_RESULT_CODE (s : Nat) : FRef := ⟨0x20411004 + 0x200 * s, 3, 0⟩
def a_ES_DETAIL (s : Nat) : Nat := 0x20411008 + 0x200 * s
def ES_DETAIL_DETAIL (s : Nat) : FRef := ⟨0x20411008 + 0x200 * s, 31, 0⟩
def a_ES_GEOM (s : Nat) : Nat := 0x2041100C + 0x200 * s
def ES_GEOM_H (s : Nat) : FRef := ⟨0x2041100C + 0x200 * s, 28, 16⟩
def ES_GEOM_W (s : Nat) : FRef := ⟨0x2041100C + 0x200 * s, 13, 0⟩
def a_ES_CFG (s : Nat) : Nat := 0x20411010 + 0x200 * s
def ES_CFG_GOP (s : Nat) : FRef := ⟨0x20411010 + 0x200 * s, 31, 24⟩
def ES_CFG_DIV (s : Nat) : FRef := ⟨0x20411010 + 0x200 * s, 23, 16⟩
def ES_CFG_CSC (s : Nat) : FRef := ⟨0x20411010 + 0x200 * s, 13, 12⟩
def ES_CFG_DEPTH (s : Nat) : FRef := ⟨0x20411010 + 0x200 * s, 8, 8⟩
def ES_CFG_TAP (s : Nat) : FRef := ⟨0x20411010 + 0x200 * s, 5, 4⟩
def ES_CFG_PIPE (s : Nat) : FRef := ⟨0x20411010 + 0x200 * s, 3, 0⟩
def a_ES_OUT (s : Nat) : Nat := 0x20411014 + 0x200 * s
def ES_OUT_CELLS (s : Nat) : FRef := ⟨0x20411014 + 0x200 * s, 7, 0⟩
def a_ES_RATE (s : Nat) : Nat := 0x20411018 + 0x200 * s
def ES_RATE_KBPS (s : Nat) : FRef := ⟨0x20411018 + 0x200 * s, 17, 0⟩
def a_ES_RC (s : Nat) : Nat := 0x2041101C + 0x200 * s
def ES_RC_MIN_QP (s : Nat) : FRef := ⟨0x2041101C + 0x200 * s, 29, 24⟩
def ES_RC_BEACON_QP (s : Nat) : FRef := ⟨0x2041101C + 0x200 * s, 21, 16⟩
def ES_RC_INIT_QP (s : Nat) : FRef := ⟨0x2041101C + 0x200 * s, 13, 8⟩
def ES_RC_CAP_PCT (s : Nat) : FRef := ⟨0x2041101C + 0x200 * s, 7, 0⟩
def a_ES_ROI_EN (s : Nat) : Nat := 0x20411020 + 0x200 * s
def ES_ROI_EN_EN (s : Nat) : FRef := ⟨0x20411020 + 0x200 * s, 15, 0⟩
def a_ES_STATUS (s : Nat) : Nat := 0x20411024 + 0x200 * s
def ES_STATUS_GAP_REASON (s : Nat) : FRef := ⟨0x20411024 + 0x200 * s, 19, 16⟩
def ES_STATUS_TIMEOUT (s : Nat) : FRef := ⟨0x20411024 + 0x200 * s, 11, 11⟩
def ES_STATUS_OUT_FULL (s : Nat) : FRef := ⟨0x20411024 + 0x200 * s, 10, 10⟩
def ES_STATUS_GAP (s : Nat) : FRef := ⟨0x20411024 + 0x200 * s, 9, 9⟩
def ES_STATUS_EXHAUSTED (s : Nat) : FRef := ⟨0x20411024 + 0x200 * s, 8, 8⟩
def ES_STATUS_STATE (s : Nat) : FRef := ⟨0x20411024 + 0x200 * s, 1, 0⟩
def a_ES_FRAMES (s : Nat) : Nat := 0x20411028 + 0x200 * s
def ES_FRAMES_DROPPED (s : Nat) : FRef := ⟨0x20411028 + 0x200 * s, 31, 16⟩
def ES_FRAMES_CODED (s : Nat) : FRef := ⟨0x20411028 + 0x200 * s, 15, 0⟩
def a_ES_DEBT (s : Nat) : Nat := 0x2041102C + 0x200 * s
def ES_DEBT_LAST_QP (s : Nat) : FRef := ⟨0x2041102C + 0x200 * s, 31, 26⟩
def ES_DEBT_BITS (s : Nat) : FRef := ⟨0x2041102C + 0x200 * s, 25, 0⟩
def a_ES_STAMP_LO (s : Nat) : Nat := 0x20411030 + 0x200 * s
def ES_STAMP_LO_STAMP (s : Nat) : FRef := ⟨0x20411030 + 0x200 * s, 31, 0⟩
def a_ES_STAMP_HI (s : Nat) : Nat := 0x20411034 + 0x200 * s
def ES_STAMP_HI_STAMP (s : Nat) : FRef := ⟨0x20411034 + 0x200 * s, 15, 0⟩
def a_ES_OUT_LEVEL (s : Nat) : Nat := 0x20411038 + 0x200 * s
def ES_OUT_LEVEL_BYTES (s : Nat) : FRef := ⟨0x20411038 + 0x200 * s, 26, 0⟩
def a_ES_ROI_POS (s j : Nat) : Nat := 0x20411040 + 0x200 * s + 0x10 * j
def ES_ROI_POS_Y (s j : Nat) : FRef := ⟨0x20411040 + 0x200 * s + 0x10 * j, 27, 16⟩
def ES_ROI_POS_X (s j : Nat) : FRef := ⟨0x20411040 + 0x200 * s + 0x10 * j, 12, 0⟩
def a_ES_ROI_SIZE (s j : Nat) : Nat := 0x20411044 + 0x200 * s + 0x10 * j
def ES_ROI_SIZE_H (s j : Nat) : FRef := ⟨0x20411044 + 0x200 * s + 0x10 * j, 27, 16⟩
def ES_ROI_SIZE_W (s j : Nat) : FRef := ⟨0x20411044 + 0x200 * s + 0x10 * j, 12, 0⟩
def a_ES_ROI_QP (s j : Nat) : Nat := 0x20411048 + 0x200 * s + 0x10 * j
def ES_ROI_QP_OFFSET (s j : Nat) : FRef := ⟨0x20411048 + 0x200 * s + 0x10 * j, 14, 8⟩
def ES_ROI_QP_CAP (s j : Nat) : FRef := ⟨0x20411048 + 0x200 * s + 0x10 * j, 5, 0⟩
/-! ### AKNUM block (R303) -/

def a_AK_CTRL : Nat := 0x20500000
def AK_CTRL_IDLE_EN : FRef := ⟨0x20500000, 2, 2⟩
def AK_CTRL_FULL_TRAIN : FRef := ⟨0x20500000, 1, 1⟩
def AK_CTRL_RETRAIN : FRef := ⟨0x20500000, 0, 0⟩
def a_AK_STATUS : Nat := 0x20500004
def AK_STATUS_FATAL_TX : FRef := ⟨0x20500004, 31, 31⟩
def AK_STATUS_INCK_LOCK : FRef := ⟨0x20500004, 30, 30⟩
def AK_STATUS_IN_WIDTH : FRef := ⟨0x20500004, 20, 16⟩
def AK_STATUS_OUT_WIDTH : FRef := ⟨0x20500004, 10, 8⟩
def AK_STATUS_STATE : FRef := ⟨0x20500004, 3, 0⟩
def a_AK_CFG : Nat := 0x20500008
def AK_CFG_RETRY_MS : FRef := ⟨0x20500008, 31, 24⟩
def AK_CFG_REPLAY_TO : FRef := ⟨0x20500008, 23, 16⟩
def AK_CFG_IDLE_DELAY : FRef := ⟨0x20500008, 15, 0⟩
def a_AK_LANE_CFG : Nat := 0x2050000C
def AK_LANE_CFG_WIN : FRef := ⟨0x2050000C, 11, 8⟩
def AK_LANE_CFG_THR : FRef := ⟨0x2050000C, 7, 0⟩
def a_AK_CRED_0 : Nat := 0x20500010
def AK_CRED_0_VC1 : FRef := ⟨0x20500010, 31, 16⟩
def AK_CRED_0_VC0 : FRef := ⟨0x20500010, 15, 0⟩
def a_AK_CRED_1 : Nat := 0x20500014
def AK_CRED_1_VC3 : FRef := ⟨0x20500014, 31, 16⟩
def AK_CRED_1_VC2 : FRef := ⟨0x20500014, 15, 0⟩
def a_AK_SEQ : Nat := 0x20500018
def AK_SEQ_RX_EXPECT : FRef := ⟨0x20500018, 27, 16⟩
def AK_SEQ_TX_NEXT : FRef := ⟨0x20500018, 11, 0⟩
def a_AK_CNT_REPLAY : Nat := 0x2050001C
def AK_CNT_REPLAY_FAIL : FRef := ⟨0x2050001C, 31, 16⟩
def AK_CNT_REPLAY_REPLAY : FRef := ⟨0x2050001C, 15, 0⟩
def a_AK_CNT_TRAIN : Nat := 0x20500020
def AK_CNT_TRAIN_FULL : FRef := ⟨0x20500020, 31, 16⟩
def AK_CNT_TRAIN_FAST : FRef := ⟨0x20500020, 15, 0⟩
def a_AK_ERR_LOG : Nat := 0x20500024
def AK_ERR_LOG_KIND : FRef := ⟨0x20500024, 31, 28⟩
def AK_ERR_LOG_PTYPE : FRef := ⟨0x20500024, 27, 24⟩
def AK_ERR_LOG_VC : FRef := ⟨0x20500024, 23, 22⟩
def AK_ERR_LOG_SEQ : FRef := ⟨0x20500024, 11, 0⟩
def a_AK_INJ : Nat := 0x20500028
def AK_INJ_SYNC : FRef := ⟨0x20500028, 21, 21⟩
def AK_INJ_LANE : FRef := ⟨0x20500028, 20, 16⟩
def AK_INJ_CLK : FRef := ⟨0x20500028, 4, 4⟩
def AK_INJ_PROTO : FRef := ⟨0x20500028, 3, 3⟩
def AK_INJ_RXB : FRef := ⟨0x20500028, 2, 2⟩
def AK_INJ_RB : FRef := ⟨0x20500028, 1, 1⟩
def AK_INJ_CRC : FRef := ⟨0x20500028, 0, 0⟩
/-! ### AKLANE block (R303) -/

def a_LN_STATUS (l : Nat) : Nat := 0x20510000 + 0x20 * l
def LN_STATUS_FENCED (l : Nat) : FRef := ⟨0x20510000 + 0x20 * l, 31, 31⟩
def LN_STATUS_MARGIN (l : Nat) : FRef := ⟨0x20510000 + 0x20 * l, 28, 24⟩
def LN_STATUS_LOGICAL (l : Nat) : FRef := ⟨0x20510000 + 0x20 * l, 20, 16⟩
def LN_STATUS_STATE (l : Nat) : FRef := ⟨0x20510000 + 0x20 * l, 1, 0⟩
def a_LN_ERR (l : Nat) : Nat := 0x20510004 + 0x20 * l
def LN_ERR_TOTAL (l : Nat) : FRef := ⟨0x20510004 + 0x20 * l, 31, 16⟩
def LN_ERR_WINDOW (l : Nat) : FRef := ⟨0x20510004 + 0x20 * l, 15, 0⟩
def a_LN_EQ (l : Nat) : Nat := 0x20510008 + 0x20 * l
def LN_EQ_POST (l : Nat) : FRef := ⟨0x20510008 + 0x20 * l, 15, 8⟩
def LN_EQ_PRE (l : Nat) : FRef := ⟨0x20510008 + 0x20 * l, 7, 0⟩
/-! ### CAGAN block (R322) -/

def a_CG_CTRL (p : Nat) : Nat := 0x20600000 + 0x1000 * p
def CG_CTRL_FULL_TRAIN (p : Nat) : FRef := ⟨0x20600000 + 0x1000 * p, 0, 0⟩
def a_CG_RATE (p : Nat) : Nat := 0x20600004 + 0x1000 * p
def CG_RATE_RATE (p : Nat) : FRef := ⟨0x20600004 + 0x1000 * p, 1, 0⟩
def a_CG_STATUS (p : Nat) : Nat := 0x20600008 + 0x1000 * p
def CG_STATUS_CAPS_BAD (p : Nat) : FRef := ⟨0x20600008 + 0x1000 * p, 11, 11⟩
def CG_STATUS_TX (p : Nat) : FRef := ⟨0x20600008 + 0x1000 * p, 10, 8⟩
def CG_STATUS_BC_LOCK (p : Nat) : FRef := ⟨0x20600008 + 0x1000 * p, 6, 6⟩
def CG_STATUS_RATE (p : Nat) : FRef := ⟨0x20600008 + 0x1000 * p, 5, 4⟩
def CG_STATUS_STATE (p : Nat) : FRef := ⟨0x20600008 + 0x1000 * p, 3, 0⟩
def a_CG_CAPS (p : Nat) : Nat := 0x2060000C + 0x1000 * p
def CG_CAPS_MAX_H (p : Nat) : FRef := ⟨0x2060000C + 0x1000 * p, 28, 16⟩
def CG_CAPS_DEPTHS (p : Nat) : FRef := ⟨0x2060000C + 0x1000 * p, 10, 8⟩
def CG_CAPS_CRC (p : Nat) : FRef := ⟨0x2060000C + 0x1000 * p, 5, 5⟩
def CG_CAPS_HOLD (p : Nat) : FRef := ⟨0x2060000C + 0x1000 * p, 4, 4⟩
def CG_CAPS_RATES (p : Nat) : FRef := ⟨0x2060000C + 0x1000 * p, 3, 0⟩
def a_CG_CAPS2 (p : Nat) : Nat := 0x20600010 + 0x1000 * p
def CG_CAPS2_RX_ID (p : Nat) : FRef := ⟨0x20600010 + 0x1000 * p, 31, 16⟩
def CG_CAPS2_MAX_V (p : Nat) : FRef := ⟨0x20600010 + 0x1000 * p, 11, 0⟩
def a_CG_EQ_0 (p : Nat) : Nat := 0x20600014 + 0x1000 * p
def CG_EQ_0_POST (p : Nat) : FRef := ⟨0x20600014 + 0x1000 * p, 15, 8⟩
def CG_EQ_0_PRE (p : Nat) : FRef := ⟨0x20600014 + 0x1000 * p, 7, 0⟩
def a_CG_EQ_1 (p : Nat) : Nat := 0x20600018 + 0x1000 * p
def CG_EQ_1_POST (p : Nat) : FRef := ⟨0x20600018 + 0x1000 * p, 15, 8⟩
def CG_EQ_1_PRE (p : Nat) : FRef := ⟨0x20600018 + 0x1000 * p, 7, 0⟩
def a_CG_ERR (p : Nat) : Nat := 0x2060001C + 0x1000 * p
def CG_ERR_LINE_ERR (p : Nat) : FRef := ⟨0x2060001C + 0x1000 * p, 31, 16⟩
def CG_ERR_BC_ERR (p : Nat) : FRef := ⟨0x2060001C + 0x1000 * p, 15, 0⟩
def a_CG_CFG (p : Nat) : Nat := 0x20600020 + 0x1000 * p
def CG_CFG_WIN (p : Nat) : FRef := ⟨0x20600020 + 0x1000 * p, 11, 8⟩
def CG_CFG_THR (p : Nat) : FRef := ⟨0x20600020 + 0x1000 * p, 7, 0⟩
def a_CG_BW (p : Nat) : Nat := 0x20600024 + 0x1000 * p
def CG_BW_AVAIL (p : Nat) : FRef := ⟨0x20600024 + 0x1000 * p, 31, 16⟩
def CG_BW_NEED (p : Nat) : FRef := ⟨0x20600024 + 0x1000 * p, 15, 0⟩
def a_CG_INJ (p : Nat) : Nat := 0x20600028 + 0x1000 * p
def CG_INJ_LOCK (p : Nat) : FRef := ⟨0x20600028 + 0x1000 * p, 3, 3⟩
def CG_INJ_FIFO (p : Nat) : FRef := ⟨0x20600028 + 0x1000 * p, 2, 2⟩
def CG_INJ_BC (p : Nat) : FRef := ⟨0x20600028 + 0x1000 * p, 1, 1⟩
def CG_INJ_LINE (p : Nat) : FRef := ⟨0x20600028 + 0x1000 * p, 0, 0⟩
/-! ### CLOCK block (R342) -/

def a_CLK_STATUS : Nat := 0x20700000
def CLK_STATUS_HOLD_REF : FRef := ⟨0x20700000, 18, 18⟩
def CLK_STATUS_HOLDOVER : FRef := ⟨0x20700000, 17, 17⟩
def CLK_STATUS_REF_OK : FRef := ⟨0x20700000, 16, 16⟩
def CLK_STATUS_LOCKED : FRef := ⟨0x20700000, 14, 0⟩
def a_CLK_LOCKMON : Nat := 0x20700004
def CLK_LOCKMON_EN : FRef := ⟨0x20700004, 31, 31⟩
def CLK_LOCKMON_MASK : FRef := ⟨0x20700004, 14, 0⟩
def a_CLK_INJ : Nat := 0x20700008
def CLK_INJ_REF : FRef := ⟨0x20700008, 10, 10⟩
def CLK_INJ_GUARD : FRef := ⟨0x20700008, 9, 9⟩
def CLK_INJ_LOCK : FRef := ⟨0x20700008, 8, 8⟩
def CLK_INJ_PLL : FRef := ⟨0x20700008, 3, 0⟩
def a_CLK_ERR_INFO : Nat := 0x2070000C
def CLK_ERR_INFO_PLL : FRef := ⟨0x2070000C, 19, 16⟩
def CLK_ERR_INFO_FAULT : FRef := ⟨0x2070000C, 7, 0⟩
def a_PLL_CTRL (i : Nat) : Nat := 0x20700100 + 0x20 * i
def PLL_CTRL_RESTART (i : Nat) : FRef := ⟨0x20700100 + 0x20 * i, 2, 2⟩
def PLL_CTRL_DITHER_EN (i : Nat) : FRef := ⟨0x20700100 + 0x20 * i, 0, 0⟩
def a_PLL_CEIL (i : Nat) : Nat := 0x20700104 + 0x20 * i
def PLL_CEIL_PM (i : Nat) : FRef := ⟨0x20700104 + 0x20 * i, 10, 0⟩
def a_PLL_SEED (i : Nat) : Nat := 0x20700108 + 0x20 * i
def PLL_SEED_SEED (i : Nat) : FRef := ⟨0x20700108 + 0x20 * i, 22, 0⟩
def a_PLL_STATUS (i : Nat) : Nat := 0x2070010C + 0x20 * i
def PLL_STATUS_ODIV (i : Nat) : FRef := ⟨0x2070010C + 0x20 * i, 31, 16⟩
def PLL_STATUS_BAND (i : Nat) : FRef := ⟨0x2070010C + 0x20 * i, 13, 8⟩
def PLL_STATUS_CLAMPED (i : Nat) : FRef := ⟨0x2070010C + 0x20 * i, 3, 3⟩
def PLL_STATUS_STATE (i : Nat) : FRef := ⟨0x2070010C + 0x20 * i, 2, 0⟩
def a_PLL_N (i : Nat) : Nat := 0x20700110 + 0x20 * i
def PLL_N_NINT (i : Nat) : FRef := ⟨0x20700110 + 0x20 * i, 31, 24⟩
def PLL_N_NFRAC (i : Nat) : FRef := ⟨0x20700110 + 0x20 * i, 23, 0⟩
def a_PLL_TARGET (i : Nat) : Nat := 0x20700114 + 0x20 * i
def PLL_TARGET_HZ (i : Nat) : FRef := ⟨0x20700114 + 0x20 * i, 31, 0⟩
def a_PLL_MEAS (i : Nat) : Nat := 0x20700118 + 0x20 * i
def PLL_MEAS_HZ (i : Nat) : FRef := ⟨0x20700118 + 0x20 * i, 31, 0⟩
def a_PLL_SSC (i : Nat) : Nat := 0x2070011C + 0x20 * i
def PLL_SSC_EN (i : Nat) : FRef := ⟨0x2070011C + 0x20 * i, 31, 31⟩
def PLL_SSC_SSC_OFF (i : Nat) : FRef := ⟨0x2070011C + 0x20 * i, 16, 16⟩
def PLL_SSC_LINES (i : Nat) : FRef := ⟨0x2070011C + 0x20 * i, 15, 8⟩
def PLL_SSC_DEPTH (i : Nat) : FRef := ⟨0x2070011C + 0x20 * i, 3, 0⟩
/-! ### INTC block (R365) -/

def a_INTC_INJ : Nat := 0x20800020
def INTC_INJ_TGT : FRef := ⟨0x20800020, 6, 4⟩
def INTC_INJ_REC : FRef := ⟨0x20800020, 2, 2⟩
def INTC_INJ_STACK : FRef := ⟨0x20800020, 1, 1⟩
def INTC_INJ_CFG : FRef := ⟨0x20800020, 0, 0⟩
def a_SRC_PEND (w : Nat) : Nat := 0x20800100 + 0x4 * w
def SRC_PEND_PEND (w : Nat) : FRef := ⟨0x20800100 + 0x4 * w, 31, 0⟩
def a_SRC_UNPEND (w : Nat) : Nat := 0x20800120 + 0x4 * w
def SRC_UNPEND_UNPEND (w : Nat) : FRef := ⟨0x20800120 + 0x4 * w, 31, 0⟩
def a_SRC_ACTIVE (w : Nat) : Nat := 0x20800140 + 0x4 * w
def SRC_ACTIVE_ACTIVE (w : Nat) : FRef := ⟨0x20800140 + 0x4 * w, 31, 0⟩
def a_REC_SEL : Nat := 0x20800200
def REC_SEL_SOURCE : FRef := ⟨0x20800200, 7, 0⟩
def a_REC_STAT : Nat := 0x20800204
def REC_STAT_COUNT : FRef := ⟨0x20800204, 20, 16⟩
def REC_STAT_LOST : FRef := ⟨0x20800204, 15, 0⟩
def a_REC_D0 : Nat := 0x20800208
def REC_D0_BYTES_0_3 : FRef := ⟨0x20800208, 31, 0⟩
def a_REC_D1 : Nat := 0x2080020C
def REC_D1_BYTES_4_7 : FRef := ⟨0x2080020C, 31, 0⟩
def a_REC_D2 : Nat := 0x20800210
def REC_D2_BYTES_8_11 : FRef := ⟨0x20800210, 31, 0⟩
def a_MBOX_RING : Nat := 0x20800214
def MBOX_RING_RING : FRef := ⟨0x20800214, 7, 0⟩
def a_MOD (g : Nat) : Nat := 0x20800300 + 0x4 * g
def MOD_INTERVAL (g : Nat) : FRef := ⟨0x20800300 + 0x4 * g, 15, 0⟩
def a_SRC_CFG (s : Nat) : Nat := 0x20800400 + 0x4 * s
def SRC_CFG_EN (s : Nat) : FRef := ⟨0x20800400 + 0x4 * s, 31, 31⟩
def SRC_CFG_GROUP (s : Nat) : FRef := ⟨0x20800400 + 0x4 * s, 27, 24⟩
def SRC_CFG_MODE (s : Nat) : FRef := ⟨0x20800400 + 0x4 * s, 23, 22⟩
def SRC_CFG_TARGETS (s : Nat) : FRef := ⟨0x20800400 + 0x4 * s, 15, 8⟩
def SRC_CFG_PRIO (s : Nat) : FRef := ⟨0x20800400 + 0x4 * s, 3, 0⟩
def a_TGT_CLAIM (t : Nat) : Nat := 0x20800800 + 0x20 * t
def TGT_CLAIM_VECTOR (t : Nat) : FRef := ⟨0x20800800 + 0x20 * t, 9, 0⟩
def a_TGT_EOI (t : Nat) : Nat := 0x20800804 + 0x20 * t
def TGT_EOI_VECTOR (t : Nat) : FRef := ⟨0x20800804 + 0x20 * t, 7, 0⟩
def a_TGT_STATE (t : Nat) : Nat := 0x20800808 + 0x20 * t
def TGT_STATE_OFFER (t : Nat) : FRef := ⟨0x20800808 + 0x20 * t, 25, 16⟩
def TGT_STATE_EOI_BAD (t : Nat) : FRef := ⟨0x20800808 + 0x20 * t, 11, 11⟩
def TGT_STATE_MOD_HELD (t : Nat) : FRef := ⟨0x20800808 + 0x20 * t, 10, 10⟩
def TGT_STATE_IDLE (t : Nat) : FRef := ⟨0x20800808 + 0x20 * t, 9, 9⟩
def TGT_STATE_DEPTH (t : Nat) : FRef := ⟨0x20800808 + 0x20 * t, 8, 4⟩
def TGT_STATE_RUNPRI (t : Nat) : FRef := ⟨0x20800808 + 0x20 * t, 3, 0⟩
def a_TGT_VBASE (t : Nat) : Nat := 0x2080080C + 0x20 * t
def TGT_VBASE_BASE (t : Nat) : FRef := ⟨0x2080080C + 0x20 * t, 31, 12⟩
def a_HQ_CFG (t : Nat) : Nat := 0x20800810 + 0x20 * t
def HQ_CFG_DEPTH (t : Nat) : FRef := ⟨0x20800810 + 0x20 * t, 8, 0⟩
def a_HQ_ACK (t : Nat) : Nat := 0x20800814 + 0x20 * t
def HQ_ACK_SEQ (t : Nat) : FRef := ⟨0x20800814 + 0x20 * t, 15, 0⟩
def a_HQ_STATUS (t : Nat) : Nat := 0x20800818 + 0x20 * t
def HQ_STATUS_NEXT_SEQ (t : Nat) : FRef := ⟨0x20800818 + 0x20 * t, 31, 16⟩
def HQ_STATUS_OUTSTANDING (t : Nat) : FRef := ⟨0x20800818 + 0x20 * t, 8, 0⟩
/-! ### FAULT block (R455) -/

def a_FC_STATUS : Nat := 0x20900000
def FC_STATUS_SAFE : FRef := ⟨0x20900000, 31, 31⟩
def FC_STATUS_HARD : FRef := ⟨0x20900000, 30, 30⟩
def FC_STATUS_PAIR_HELD : FRef := ⟨0x20900000, 29, 29⟩
def FC_STATUS_CLEAR_REFUSED : FRef := ⟨0x20900000, 28, 28⟩
def FC_STATUS_FT : FRef := ⟨0x20900000, 2, 2⟩
def FC_STATUS_CC : FRef := ⟨0x20900000, 1, 1⟩
def FC_STATUS_CE : FRef := ⟨0x20900000, 0, 0⟩
def a_FC_CFG : Nat := 0x20900004
def FC_CFG_ESCALATE : FRef := ⟨0x20900004, 30, 17⟩
def FC_CFG_QUIET : FRef := ⟨0x20900004, 15, 8⟩
def FC_CFG_FAULTN_CC : FRef := ⟨0x20900004, 0, 0⟩
def a_FC_WDT : Nat := 0x20900008
def FC_WDT_SC_MS : FRef := ⟨0x20900008, 23, 16⟩
def FC_WDT_HALF_MS : FRef := ⟨0x20900008, 7, 0⟩
def a_FC_KICK : Nat := 0x2090000C
def FC_KICK_KEY : FRef := ⟨0x2090000C, 15, 0⟩
def a_FC_SCKICK : Nat := 0x20900010
def FC_SCKICK_KICK : FRef := ⟨0x20900010, 1, 0⟩
def a_FC_CLEAR : Nat := 0x20900014
def FC_CLEAR_KEY : FRef := ⟨0x20900014, 15, 0⟩
def a_FC_FIRST : Nat := 0x20900018
def FC_FIRST_VALID : FRef := ⟨0x20900018, 31, 31⟩
def FC_FIRST_INJ : FRef := ⟨0x20900018, 30, 30⟩
def FC_FIRST_ESC : FRef := ⟨0x20900018, 29, 29⟩
def FC_FIRST_CLASS : FRef := ⟨0x20900018, 25, 24⟩
def FC_FIRST_CODE : FRef := ⟨0x20900018, 15, 0⟩
def a_FC_FIRST_STAMP_LO : Nat := 0x2090001C
def FC_FIRST_STAMP_LO_STAMP : FRef := ⟨0x2090001C, 31, 0⟩
def a_FC_FIRST_STAMP_HI : Nat := 0x20900020
def FC_FIRST_STAMP_HI_STAMP : FRef := ⟨0x20900020, 15, 0⟩
def a_FC_IRQ_EN : Nat := 0x20900024
def FC_IRQ_EN_GROUPS : FRef := ⟨0x20900024, 14, 1⟩
def a_FC_LOG_SEL : Nat := 0x20900028
def FC_LOG_SEL_ENTRY : FRef := ⟨0x20900028, 4, 0⟩
def a_FC_LOG_INFO : Nat := 0x2090002C
def FC_LOG_INFO_INJ : FRef := ⟨0x2090002C, 31, 31⟩
def FC_LOG_INFO_ESC : FRef := ⟨0x2090002C, 30, 30⟩
def FC_LOG_INFO_CLASS : FRef := ⟨0x2090002C, 25, 24⟩
def FC_LOG_INFO_CODE : FRef := ⟨0x2090002C, 15, 0⟩
def a_FC_LOG_STAMP : Nat := 0x20900030
def FC_LOG_STAMP_STAMP : FRef := ⟨0x20900030, 31, 0⟩
def a_FC_LOG_CNT : Nat := 0x20900034
def FC_LOG_CNT_COUNT : FRef := ⟨0x20900034, 15, 0⟩
def a_FC_INJ : Nat := 0x20900038
def FC_INJ_CORE : FRef := ⟨0x20900038, 18, 18⟩
def FC_INJ_REGION : FRef := ⟨0x20900038, 17, 16⟩
def FC_INJ_PIPE : FRef := ⟨0x20900038, 15, 12⟩
def FC_INJ_META : FRef := ⟨0x20900038, 10, 10⟩
def FC_INJ_ADM : FRef := ⟨0x20900038, 9, 9⟩
def FC_INJ_LB : FRef := ⟨0x20900038, 8, 8⟩
def FC_INJ_CLPAR : FRef := ⟨0x20900038, 7, 7⟩
def FC_INJ_LATE : FRef := ⟨0x20900038, 6, 6⟩
def FC_INJ_GBC : FRef := ⟨0x20900038, 5, 5⟩
def FC_INJ_SCWDT : FRef := ⟨0x20900038, 4, 4⟩
def FC_INJ_SRAM : FRef := ⟨0x20900038, 3, 3⟩
def FC_INJ_KICK : FRef := ⟨0x20900038, 2, 2⟩
def FC_INJ_LOCKSTEP : FRef := ⟨0x20900038, 1, 1⟩
def FC_INJ_REG : FRef := ⟨0x20900038, 0, 0⟩
def a_FC_STAT (g : Nat) : Nat := 0x20900100 + 0x4 * g
def FC_STAT_ACTIVE (g : Nat) : FRef := ⟨0x20900100 + 0x4 * g, 31, 16⟩
def FC_STAT_LATCHED (g : Nat) : FRef := ⟨0x20900100 + 0x4 * g, 15, 0⟩
def a_FC_CNT (g : Nat) : Nat := 0x20900140 + 0x4 * g
def FC_CNT_CC_FT (g : Nat) : FRef := ⟨0x20900140 + 0x4 * g, 31, 16⟩
def FC_CNT_CE (g : Nat) : FRef := ⟨0x20900140 + 0x4 * g, 15, 0⟩
/-! ### POWER block (R416) -/

def a_PWR_STATE : Nat := 0x20A00000
def PWR_STATE_BUSY : FRef := ⟨0x20A00000, 20, 20⟩
def PWR_STATE_RESULT : FRef := ⟨0x20A00000, 18, 16⟩
def PWR_STATE_REQ : FRef := ⟨0x20A00000, 9, 8⟩
def PWR_STATE_STATE : FRef := ⟨0x20A00000, 1, 0⟩
def a_PWR_BUDGET : Nat := 0x20A00004
def PWR_BUDGET_TOKENS : FRef := ⟨0x20A00004, 8, 0⟩
def a_PWR_STATUS : Nat := 0x20A00008
def PWR_STATUS_THROTTLE : FRef := ⟨0x20A00008, 31, 31⟩
def PWR_STATUS_IN_FORCE : FRef := ⟨0x20A00008, 24, 16⟩
def PWR_STATUS_THERMAL_LIMIT : FRef := ⟨0x20A00008, 8, 0⟩
def a_PWR_HELD : Nat := 0x20A0000C
def PWR_HELD_FREE : FRef := ⟨0x20A0000C, 24, 16⟩
def PWR_HELD_HELD : FRef := ⟨0x20A0000C, 8, 0⟩
def a_PWR_GRANT : Nat := 0x20A00010
def PWR_GRANT_BANKED_FREE : FRef := ⟨0x20A00010, 31, 24⟩
def PWR_GRANT_XFER : FRef := ⟨0x20A00010, 19, 16⟩
def PWR_GRANT_DEC : FRef := ⟨0x20A00010, 11, 8⟩
def PWR_GRANT_ENC : FRef := ⟨0x20A00010, 3, 0⟩
def a_PWR_BE : Nat := 0x20A00014
def PWR_BE_XFER_MAX : FRef := ⟨0x20A00014, 19, 16⟩
def PWR_BE_DEC_MAX : FRef := ⟨0x20A00014, 11, 8⟩
def PWR_BE_ENC_MAX : FRef := ⟨0x20A00014, 3, 0⟩
def a_TH_CFG : Nat := 0x20A00018
def TH_CFG_PERIOD : FRef := ⟨0x20A00018, 23, 16⟩
def TH_CFG_STEP : FRef := ⟨0x20A00018, 15, 12⟩
def TH_CFG_HYST : FRef := ⟨0x20A00018, 11, 8⟩
def TH_CFG_THR : FRef := ⟨0x20A00018, 7, 0⟩
def a_TH_MIN : Nat := 0x20A0001C
def TH_MIN_MIN : FRef := ⟨0x20A0001C, 8, 0⟩
def a_TH_STATUS : Nat := 0x20A00020
def TH_STATUS_TJ : FRef := ⟨0x20A00020, 31, 16⟩
def TH_STATUS_HOT : FRef := ⟨0x20A00020, 3, 0⟩
def a_TH_VALID : Nat := 0x20A00024
def TH_VALID_VALID : FRef := ⟨0x20A00024, 15, 0⟩
def a_TH_SENSOR (i : Nat) : Nat := 0x20A00040 + 0x4 * i
def TH_SENSOR_TEMP (i : Nat) : FRef := ⟨0x20A00040 + 0x4 * i, 15, 0⟩
def a_AVS_CFG : Nat := 0x20A00080
def AVS_CFG_PERIOD : FRef := ⟨0x20A00080, 31, 24⟩
def AVS_CFG_MHI : FRef := ⟨0x20A00080, 23, 16⟩
def AVS_CFG_MLO : FRef := ⟨0x20A00080, 15, 8⟩
def AVS_CFG_RAIL : FRef := ⟨0x20A00080, 3, 0⟩
def a_AVS_STATUS : Nat := 0x20A00084
def AVS_STATUS_MARGIN : FRef := ⟨0x20A00084, 31, 24⟩
def AVS_STATUS_READ_MV : FRef := ⟨0x20A00084, 21, 12⟩
def AVS_STATUS_TARGET_MV : FRef := ⟨0x20A00084, 9, 0⟩
def a_PWR_INJ : Nat := 0x20A00088
def PWR_INJ_SEL : FRef := ⟨0x20A00088, 11, 8⟩
def PWR_INJ_CRIT : FRef := ⟨0x20A00088, 4, 4⟩
def PWR_INJ_MARGIN : FRef := ⟨0x20A00088, 3, 3⟩
def PWR_INJ_AVS : FRef := ⟨0x20A00088, 2, 2⟩
def PWR_INJ_SENSOR : FRef := ⟨0x20A00088, 1, 1⟩
def PWR_INJ_ARB : FRef := ⟨0x20A00088, 0, 0⟩
def a_PWR_ERR_INFO : Nat := 0x20A0008C
def PWR_ERR_INFO_FAULT : FRef := ⟨0x20A0008C, 7, 0⟩
/-! ### EMBER block (R417) -/

def a_EMB_STATUS : Nat := 0x20B00000
def EMB_STATUS_PGOOD_STUCK : FRef := ⟨0x20B00000, 9, 9⟩
def EMB_STATUS_PGOOD_LOST : FRef := ⟨0x20B00000, 8, 8⟩
def EMB_STATUS_RETAINED : FRef := ⟨0x20B00000, 4, 4⟩
def EMB_STATUS_WOKE_FROM : FRef := ⟨0x20B00000, 1, 0⟩
def a_EMB_WAKE_MASK : Nat := 0x20B00004
def EMB_WAKE_MASK_MASK : FRef := ⟨0x20B00004, 5, 0⟩
def a_EMB_WAKE_SEEN : Nat := 0x20B00008
def EMB_WAKE_SEEN_SEEN : FRef := ⟨0x20B00008, 5, 0⟩
def a_EMB_TIMER : Nat := 0x20B0000C
def EMB_TIMER_COUNT : FRef := ⟨0x20B0000C, 31, 0⟩
def a_EMB_TIMER_CMP : Nat := 0x20B00010
def EMB_TIMER_CMP_CMP : FRef := ⟨0x20B00010, 31, 0⟩
def a_EMB_FILTER : Nat := 0x20B00014
def EMB_FILTER_FSYNC_EDGE : FRef := ⟨0x20B00014, 16, 16⟩
def EMB_FILTER_CAN_US : FRef := ⟨0x20B00014, 15, 8⟩
def EMB_FILTER_WAKE_MS : FRef := ⟨0x20B00014, 7, 0⟩
def a_EMB_SCRATCH (k : Nat) : Nat := 0x20B00020 + 0x4 * k
def EMB_SCRATCH_DATA (k : Nat) : FRef := ⟨0x20B00020 + 0x4 * k, 31, 0⟩
/-! ### OD block (R394) -/

def a_OD_CTRL : Nat := 0x20C00000
def OD_CTRL_NODE : FRef := ⟨0x20C00000, 14, 8⟩
def OD_CTRL_CLASSIC_READ : FRef := ⟨0x20C00000, 4, 4⟩
def OD_CTRL_ID29 : FRef := ⟨0x20C00000, 3, 3⟩
def OD_CTRL_BUS_EN : FRef := ⟨0x20C00000, 2, 1⟩
def OD_CTRL_EN : FRef := ⟨0x20C00000, 0, 0⟩
def a_OD_STATUS : Nat := 0x20C00004
def OD_STATUS_SF_TIMEOUT : FRef := ⟨0x20C00004, 5, 5⟩
def OD_STATUS_SAFE_MODE : FRef := ⟨0x20C00004, 4, 4⟩
def OD_STATUS_SEG_OPEN : FRef := ⟨0x20C00004, 3, 1⟩
def OD_STATUS_RUNNING : FRef := ⟨0x20C00004, 0, 0⟩
def a_OD_ID : Nat := 0x20C00008
def OD_ID_PROOF_ID : FRef := ⟨0x20C00008, 26, 16⟩
def OD_ID_STATE_ID : FRef := ⟨0x20C00008, 10, 0⟩
def a_OD_ID29 : Nat := 0x20C0000C
def OD_ID29_BASE : FRef := ⟨0x20C0000C, 17, 0⟩
def a_OD_SF_CFG : Nat := 0x20C00010
def OD_SF_CFG_TIMEOUT : FRef := ⟨0x20C00010, 31, 16⟩
def OD_SF_CFG_TX_PERIOD : FRef := ⟨0x20C00010, 15, 8⟩
def OD_SF_CFG_TX_EN : FRef := ⟨0x20C00010, 0, 0⟩
def a_OD_AUTH_CFG : Nat := 0x20C00014
def OD_AUTH_CFG_SLOT_TX : FRef := ⟨0x20C00014, 14, 12⟩
def OD_AUTH_CFG_SLOT_S2 : FRef := ⟨0x20C00014, 10, 8⟩
def OD_AUTH_CFG_SLOT_S1 : FRef := ⟨0x20C00014, 6, 4⟩
def OD_AUTH_CFG_SLOT_S0 : FRef := ⟨0x20C00014, 2, 0⟩
def a_OD_FLOOR (k : Nat) : Nat := 0x20C00018 + 0x4 * k
def OD_FLOOR_FLOOR (k : Nat) : FRef := ⟨0x20C00018 + 0x4 * k, 31, 0⟩
def a_OD_AUTH_STAT : Nat := 0x20C00024
def OD_AUTH_STAT_DUP : FRef := ⟨0x20C00024, 31, 24⟩
def OD_AUTH_STAT_STALE : FRef := ⟨0x20C00024, 23, 12⟩
def OD_AUTH_STAT_MAC_FAIL : FRef := ⟨0x20C00024, 11, 0⟩
def a_OD_SKEW : Nat := 0x20C00028
def OD_SKEW_COUNT : FRef := ⟨0x20C00028, 31, 16⟩
def OD_SKEW_UNIT : FRef := ⟨0x20C00028, 4, 0⟩
def a_OD_INJ : Nat := 0x20C0002C
def OD_INJ_STORE : FRef := ⟨0x20C0002C, 3, 3⟩
def OD_INJ_SKEW : FRef := ⟨0x20C0002C, 2, 2⟩
def OD_INJ_RAM : FRef := ⟨0x20C0002C, 1, 1⟩
def OD_INJ_XFER : FRef := ⟨0x20C0002C, 0, 0⟩
def a_OD_ERR_INFO : Nat := 0x20C00030
def OD_ERR_INFO_BUS : FRef := ⟨0x20C00030, 17, 16⟩
def OD_ERR_INFO_FAULT : FRef := ⟨0x20C00030, 7, 0⟩
def a_CAN_NBT (n : Nat) : Nat := 0x20C00100 + 0x40 * n
def CAN_NBT_NTSEG2 (n : Nat) : FRef := ⟨0x20C00100 + 0x40 * n, 31, 25⟩
def CAN_NBT_NTSEG1 (n : Nat) : FRef := ⟨0x20C00100 + 0x40 * n, 24, 16⟩
def CAN_NBT_NSJW (n : Nat) : FRef := ⟨0x20C00100 + 0x40 * n, 15, 9⟩
def CAN_NBT_NBRP (n : Nat) : FRef := ⟨0x20C00100 + 0x40 * n, 8, 0⟩
def a_CAN_DBT (n : Nat) : Nat := 0x20C00104 + 0x40 * n
def CAN_DBT_DTSEG2 (n : Nat) : FRef := ⟨0x20C00104 + 0x40 * n, 27, 24⟩
def CAN_DBT_DTSEG1 (n : Nat) : FRef := ⟨0x20C00104 + 0x40 * n, 20, 16⟩
def CAN_DBT_DSJW (n : Nat) : FRef := ⟨0x20C00104 + 0x40 * n, 11, 8⟩
def CAN_DBT_DBRP (n : Nat) : FRef := ⟨0x20C00104 + 0x40 * n, 4, 0⟩
def a_CAN_TDC (n : Nat) : Nat := 0x20C00108 + 0x40 * n
def CAN_TDC_OFFSET (n : Nat) : FRef := ⟨0x20C00108 + 0x40 * n, 15, 8⟩
def CAN_TDC_EN (n : Nat) : FRef := ⟨0x20C00108 + 0x40 * n, 0, 0⟩
def a_CAN_STATUS (n : Nat) : Nat := 0x20C0010C + 0x40 * n
def CAN_STATUS_TEC (n : Nat) : FRef := ⟨0x20C0010C + 0x40 * n, 31, 24⟩
def CAN_STATUS_REC (n : Nat) : FRef := ⟨0x20C0010C + 0x40 * n, 23, 16⟩
def CAN_STATUS_BUSOFF_CNT (n : Nat) : FRef := ⟨0x20C0010C + 0x40 * n, 15, 8⟩
def CAN_STATUS_STATE (n : Nat) : FRef := ⟨0x20C0010C + 0x40 * n, 1, 0⟩
def a_CAN_CNT (n : Nat) : Nat := 0x20C00110 + 0x40 * n
def CAN_CNT_TX (n : Nat) : FRef := ⟨0x20C00110 + 0x40 * n, 31, 16⟩
def CAN_CNT_RX (n : Nat) : FRef := ⟨0x20C00110 + 0x40 * n, 15, 0⟩
def a_OWN (u : Nat) : Nat := 0x20C00200 + 0x4 * u
def OWN_GEN (u : Nat) : FRef := ⟨0x20C00200 + 0x4 * u, 31, 16⟩
def OWN_ASSIGN_TO (u : Nat) : FRef := ⟨0x20C00200 + 0x4 * u, 13, 12⟩
def OWN_REQ (u : Nat) : FRef := ⟨0x20C00200 + 0x4 * u, 9, 8⟩
def OWN_RESULT (u : Nat) : FRef := ⟨0x20C00200 + 0x4 * u, 5, 4⟩
def OWN_OWNER (u : Nat) : FRef := ⟨0x20C00200 + 0x4 * u, 1, 0⟩
/-! ### SECURITY block (R470) -/

def a_SEC_STATUS : Nat := 0x20D00000
def SEC_STATUS_LC_PEND : FRef := ⟨0x20D00000, 28, 28⟩
def SEC_STATUS_LC_NEXT : FRef := ⟨0x20D00000, 27, 26⟩
def SEC_STATUS_LC_RESULT : FRef := ⟨0x20D00000, 25, 24⟩
def SEC_STATUS_ROLLBACK : FRef := ⟨0x20D00000, 22, 16⟩
def SEC_STATUS_DBG_LOCKED : FRef := ⟨0x20D00000, 12, 12⟩
def SEC_STATUS_DBG_FAIL : FRef := ⟨0x20D00000, 11, 10⟩
def SEC_STATUS_DBG_OPEN : FRef := ⟨0x20D00000, 4, 4⟩
def SEC_STATUS_LC : FRef := ⟨0x20D00000, 2, 0⟩
def a_SEC_LC : Nat := 0x20D00004
def SEC_LC_KEY : FRef := ⟨0x20D00004, 31, 16⟩
def SEC_LC_TARGET : FRef := ⟨0x20D00004, 1, 0⟩
def a_SEC_DBG_CTRL : Nat := 0x20D00008
def SEC_DBG_CTRL_CLOSE : FRef := ⟨0x20D00008, 2, 2⟩
def SEC_DBG_CTRL_SUBMIT : FRef := ⟨0x20D00008, 1, 1⟩
def SEC_DBG_CTRL_CHAL_REQ : FRef := ⟨0x20D00008, 0, 0⟩
def a_SEC_DBG_CHAL (k : Nat) : Nat := 0x20D00010 + 0x4 * k
def SEC_DBG_CHAL_CHAL (k : Nat) : FRef := ⟨0x20D00010 + 0x4 * k, 31, 0⟩
def a_SEC_DBG_RESP (k : Nat) : Nat := 0x20D00020 + 0x4 * k
def SEC_DBG_RESP_RESP (k : Nat) : FRef := ⟨0x20D00020 + 0x4 * k, 31, 0⟩
def a_SEC_KEY_STATE : Nat := 0x20D00030
def SEC_KEY_STATE_CPK1 : FRef := ⟨0x20D00030, 19, 18⟩
def SEC_KEY_STATE_CPK0 : FRef := ⟨0x20D00030, 17, 16⟩
def SEC_KEY_STATE_SLOT_0 : FRef := ⟨0x20D00030, 1, 0⟩
def SEC_KEY_STATE_SLOT_1 : FRef := ⟨0x20D00030, 3, 2⟩
def SEC_KEY_STATE_SLOT_2 : FRef := ⟨0x20D00030, 5, 4⟩
def SEC_KEY_STATE_SLOT_3 : FRef := ⟨0x20D00030, 7, 6⟩
def SEC_KEY_STATE_SLOT_4 : FRef := ⟨0x20D00030, 9, 8⟩
def SEC_KEY_STATE_SLOT_5 : FRef := ⟨0x20D00030, 11, 10⟩
def SEC_KEY_STATE_SLOT_6 : FRef := ⟨0x20D00030, 13, 12⟩
def SEC_KEY_STATE_SLOT_7 : FRef := ⟨0x20D00030, 15, 14⟩
def a_SEC_KEY_DATA (k : Nat) : Nat := 0x20D00040 + 0x4 * k
def SEC_KEY_DATA_KEY (k : Nat) : FRef := ⟨0x20D00040 + 0x4 * k, 31, 0⟩
def a_SEC_KEY_CMD : Nat := 0x20D00050
def SEC_KEY_CMD_RESULT : FRef := ⟨0x20D00050, 23, 20⟩
def SEC_KEY_CMD_OVERRUN : FRef := ⟨0x20D00050, 18, 18⟩
def SEC_KEY_CMD_VALID : FRef := ⟨0x20D00050, 17, 17⟩
def SEC_KEY_CMD_BUSY : FRef := ⟨0x20D00050, 16, 16⟩
def SEC_KEY_CMD_CMD : FRef := ⟨0x20D00050, 10, 8⟩
def SEC_KEY_CMD_SLOT : FRef := ⟨0x20D00050, 2, 0⟩
def a_SEC_CPK_DATA (k : Nat) : Nat := 0x20D00060 + 0x4 * k
def SEC_CPK_DATA_HASH (k : Nat) : FRef := ⟨0x20D00060 + 0x4 * k, 31, 0⟩
def a_SEC_RECOVER_LEN : Nat := 0x20D00080
def SEC_RECOVER_LEN_BYTES : FRef := ⟨0x20D00080, 26, 0⟩
def a_SEC_RECOVER : Nat := 0x20D00084
def SEC_RECOVER_RESULT : FRef := ⟨0x20D00084, 7, 4⟩
def SEC_RECOVER_BUSY : FRef := ⟨0x20D00084, 2, 2⟩
def SEC_RECOVER_ACTIVE : FRef := ⟨0x20D00084, 1, 1⟩
def SEC_RECOVER_GO : FRef := ⟨0x20D00084, 0, 0⟩

end Reg

end Sys2Proof.Machine
end

