-- ==== Sys2Proof/Machine/RegTable.lean ====
section
/-! DEFINITION. The register maps as a table (R471, R473, R483): for every register its address pattern, the access code and
class of every field (Table 00.3) and the reset value of the register (R481), block by block, and the lookup of an address. -/
namespace Sys2Proof.Machine

/-- Access codes of Table 00.3. -/
inductive Acc where
  | rw | ro | wo | w1c | w1s | rwl
  deriving DecidableEq, Repr

/-- Field classes of Table 00.3 (R477). -/
inductive Cls where
  | live | frame | static
  deriving DecidableEq, Repr

/-- One field row of a register map. -/
structure FieldRow where
  hi : Nat
  lo : Nat
  acc : Acc
  cls : Cls
  deriving DecidableEq, Repr

/-- One index of a register's address: the stride, the first value and the number of values. -/
structure RegDim where
  stride : Nat
  first : Nat
  count : Nat
  deriving DecidableEq, Repr

/-- One register of Table 20.4: its name, the address with every index at 0, its indices, reset value and fields. -/
structure RegRow where
  name : RegName
  base : Nat
  dims : List RegDim
  reset : Nat
  fields : List FieldRow
  deriving DecidableEq, Repr

/-- GLOBAL register map, part 0 (R482). -/
def rowsGlobal0 : List RegRow := [
  ⟨.GLB_ID, 0x20000000, [], 0x0D96B000,
    [⟨31, 16, .ro, .live⟩, ⟨15, 8, .ro, .live⟩, ⟨7, 0, .ro, .live⟩]⟩,
  ⟨.GLB_LOCK, 0x20000004, [], 0x00000000,
    [⟨0, 0, .w1s, .live⟩]⟩,
  ⟨.SERIAL_LO, 0x20000008, [], 0x00000000,
    [⟨31, 0, .ro, .live⟩]⟩,
  ⟨.SERIAL_HI, 0x2000000C, [], 0x00000000,
    [⟨31, 0, .ro, .live⟩]⟩,
  ⟨.FW_VERSION, 0x20000010, [], 0x00000000,
    [⟨31, 0, .rw, .live⟩]⟩]

/-- GLOBAL register map (R482). -/
def rowsGlobal : List RegRow := rowsGlobal0

/-- ORBIT register map, part 0 (R57). -/
def rowsOrbit0 : List RegRow := [
  ⟨.ORB_CTRL, 0x20010000, [], 0x00000000,
    [⟨4, 4, .rwl, .static⟩, ⟨3, 0, .rwl, .static⟩]⟩,
  ⟨.ORB_STATUS, 0x20010004, [], 0x00000000,
    [⟨8, 8, .ro, .live⟩, ⟨7, 4, .ro, .live⟩, ⟨1, 1, .ro, .live⟩, ⟨0, 0, .ro, .live⟩]⟩,
  ⟨.STAMP_LO, 0x20010008, [], 0x00000000,
    [⟨31, 0, .ro, .live⟩]⟩,
  ⟨.STAMP_HI, 0x2001000C, [], 0x00000000,
    [⟨15, 0, .ro, .live⟩]⟩,
  ⟨.CAPACITY, 0x20010010, [], 0x00E00810,
    [⟨24, 16, .ro, .live⟩, ⟨11, 8, .ro, .live⟩, ⟨4, 0, .ro, .live⟩]⟩,
  ⟨.SHED_CTRL, 0x20010014, [], 0x00007801,
    [⟨16, 16, .w1s, .live⟩, ⟨15, 8, .rw, .live⟩, ⟨0, 0, .rw, .live⟩]⟩,
  ⟨.PIPE_ORBIT, 0x20010040, [⟨0x4, 0, 12⟩], 0x00200040,
    [⟨25, 16, .rw, .frame⟩, ⟨9, 0, .rw, .frame⟩]⟩,
  ⟨.PIPE_POS, 0x20010080, [⟨0x4, 0, 12⟩], 0x00000000,
    [⟨31, 16, .ro, .live⟩, ⟨12, 0, .ro, .live⟩]⟩,
  ⟨.PIPE_PEND, 0x200100C0, [⟨0x4, 0, 12⟩], 0x00000000,
    [⟨23, 16, .ro, .live⟩, ⟨15, 8, .ro, .live⟩, ⟨2, 2, .ro, .live⟩, ⟨1, 0, .ro, .live⟩]⟩,
  ⟨.CP_CTRL, 0x20010100, [⟨0x40, 0, 3⟩], 0x00000000,
    [⟨3, 3, .rw, .live⟩, ⟨2, 2, .rw, .live⟩, ⟨1, 1, .rw, .live⟩, ⟨0, 0, .w1s, .live⟩]⟩,
  ⟨.CP_PIPES, 0x20010104, [⟨0x40, 0, 3⟩], 0x00000000,
    [⟨11, 0, .rw, .live⟩]⟩,
  ⟨.CP_TARGET_LO, 0x20010108, [⟨0x40, 0, 3⟩], 0x00000000,
    [⟨31, 0, .rw, .live⟩]⟩,
  ⟨.CP_TARGET_HI, 0x2001010C, [⟨0x40, 0, 3⟩], 0x00000000,
    [⟨15, 0, .rw, .live⟩]⟩,
  ⟨.CP_TAG, 0x20010110, [⟨0x40, 0, 3⟩], 0x00000000,
    [⟨31, 0, .rw, .live⟩]⟩,
  ⟨.CP_RESULT, 0x20010114, [⟨0x40, 0, 3⟩], 0x00000000,
    [⟨31, 24, .ro, .live⟩, ⟨18, 18, .w1c, .live⟩, ⟨17, 17, .ro, .live⟩, ⟨16, 16, .ro, .live⟩, ⟨11, 11, .ro, .live⟩, ⟨10, 8, .ro, .live⟩, ⟨7, 4, .ro, .live⟩, ⟨3, 0, .ro, .live⟩]⟩,
  ⟨.CP_DETAIL, 0x20010118, [⟨0x40, 0, 3⟩], 0x00000000,
    [⟨31, 0, .ro, .live⟩]⟩,
  ⟨.ADM_CELLS, 0x20010200, [], 0x00000000,
    [⟨28, 16, .ro, .live⟩, ⟨12, 0, .ro, .live⟩]⟩,
  ⟨.ADM_HBW, 0x20010204, [], 0x00000000,
    [⟨19, 0, .ro, .live⟩]⟩,
  ⟨.ADM_HBW_AVAIL, 0x20010208, [], 0x00000000,
    [⟨19, 0, .ro, .live⟩]⟩,
  ⟨.ADM_LINK, 0x2001020C, [], 0x00000000,
    [⟨20, 0, .ro, .live⟩]⟩,
  ⟨.ADM_LINK_AVAIL, 0x20010210, [], 0x00000000,
    [⟨20, 0, .ro, .live⟩]⟩,
  ⟨.ADM_TOKENS, 0x20010214, [], 0x00000000,
    [⟨24, 16, .ro, .live⟩, ⟨8, 0, .ro, .live⟩]⟩,
  ⟨.SHED, 0x20010400, [⟨0x4, 0, 12⟩], 0x00000000,
    [⟨1, 0, .ro, .live⟩, ⟨3, 2, .ro, .live⟩, ⟨5, 4, .ro, .live⟩, ⟨7, 6, .ro, .live⟩, ⟨9, 8, .ro, .live⟩, ⟨11, 10, .ro, .live⟩, ⟨13, 12, .ro, .live⟩, ⟨15, 14, .ro, .live⟩]⟩]

/-- ORBIT register map (R57). -/
def rowsOrbit : List RegRow := rowsOrbit0

/-- HEARTH register map, part 0 (R86). -/
def rowsHearth0 : List RegRow := [
  ⟨.HM_CTRL, 0x20020000, [], 0x00000006,
    [⟨3, 0, .rw, .live⟩]⟩,
  ⟨.HM_STATUS, 0x20020004, [], 0x00000000,
    [⟨31, 24, .ro, .live⟩, ⟨23, 16, .w1c, .live⟩, ⟨4, 4, .w1c, .live⟩, ⟨3, 3, .ro, .live⟩, ⟨2, 2, .ro, .live⟩, ⟨1, 1, .ro, .live⟩, ⟨0, 0, .ro, .live⟩]⟩,
  ⟨.HEARTH_RSV, 0x20020008, [], 0x00000040,
    [⟨8, 0, .rwl, .static⟩]⟩,
  ⟨.HM_FREE, 0x2002000C, [], 0x00000000,
    [⟨28, 16, .ro, .live⟩, ⟨12, 0, .ro, .live⟩]⟩,
  ⟨.FENCE_CFG, 0x20020010, [], 0x00000604,
    [⟨19, 16, .w1s, .live⟩, ⟨11, 8, .rw, .live⟩, ⟨7, 0, .rw, .live⟩]⟩,
  ⟨.FENCE_INJ_HI, 0x20020014, [], 0x00000000,
    [⟨3, 0, .w1s, .live⟩]⟩,
  ⟨.ECC_INJ, 0x20020018, [], 0x00000000,
    [⟨8, 8, .rw, .live⟩, ⟨7, 0, .w1s, .live⟩]⟩,
  ⟨.ECC_LOG_ADDR, 0x2002001C, [], 0x00000000,
    [⟨27, 5, .ro, .live⟩]⟩,
  ⟨.ECC_LOG_INFO, 0x20020020, [], 0x00000000,
    [⟨17, 16, .ro, .live⟩, ⟨15, 13, .ro, .live⟩, ⟨12, 10, .ro, .live⟩, ⟨9, 0, .ro, .live⟩]⟩,
  ⟨.STAT_CTRL, 0x20020024, [], 0x0000003C,
    [⟨9, 9, .w1s, .live⟩, ⟨8, 8, .rw, .live⟩, ⟨7, 0, .rw, .live⟩]⟩,
  ⟨.STAT_RD, 0x20020100, [⟨0x20, 0, 8⟩], 0x00000000,
    [⟨31, 0, .ro, .live⟩]⟩,
  ⟨.STAT_WR, 0x20020104, [⟨0x20, 0, 8⟩], 0x00000000,
    [⟨31, 0, .ro, .live⟩]⟩,
  ⟨.STAT_SPEC_RD, 0x20020108, [⟨0x20, 0, 8⟩], 0x00000000,
    [⟨31, 0, .ro, .live⟩]⟩,
  ⟨.STAT_SPEC_WR, 0x2002010C, [⟨0x20, 0, 8⟩], 0x00000000,
    [⟨31, 0, .ro, .live⟩]⟩,
  ⟨.STAT_ERR, 0x20020110, [⟨0x20, 0, 8⟩], 0x00000000,
    [⟨31, 16, .ro, .live⟩, ⟨15, 0, .ro, .live⟩]⟩,
  ⟨.HP_SEL, 0x20020200, [⟨0x40, 0, 3⟩], 0x00000000,
    [⟨9, 0, .rw, .live⟩]⟩,
  ⟨.HP_CMD, 0x20020204, [⟨0x40, 0, 3⟩], 0x00000000,
    [⟨2, 0, .wo, .live⟩]⟩,
  ⟨.HP_RESULT, 0x20020208, [⟨0x40, 0, 3⟩], 0x00000000,
    [⟨18, 18, .w1c, .live⟩, ⟨17, 17, .ro, .live⟩, ⟨16, 16, .ro, .live⟩, ⟨3, 0, .ro, .live⟩]⟩,
  ⟨.HP_SIZE0, 0x2002020C, [⟨0x40, 0, 3⟩], 0x00000000,
    [⟨26, 0, .rw, .live⟩]⟩,
  ⟨.HP_SIZE1, 0x20020210, [⟨0x40, 0, 3⟩], 0x00000000,
    [⟨26, 0, .rw, .live⟩]⟩,
  ⟨.HP_SIZE2, 0x20020214, [⟨0x40, 0, 3⟩], 0x00000000,
    [⟨26, 0, .rw, .live⟩]⟩,
  ⟨.HP_STATUS, 0x20020218, [⟨0x40, 0, 3⟩], 0x00000000,
    [⟨28, 16, .ro, .live⟩, ⟨9, 8, .ro, .live⟩, ⟨7, 6, .ro, .live⟩, ⟨5, 5, .ro, .live⟩, ⟨3, 3, .ro, .live⟩, ⟨2, 0, .ro, .live⟩]⟩]

/-- HEARTH register map (R86). -/
def rowsHearth : List RegRow := rowsHearth0

/-- PIPE register map, part 0 (R112, R136, R137, R194). -/
def rowsPipe0 : List RegRow := [
  ⟨.TG_CTRL, 0x20100000, [⟨0x10000, 0, 12⟩], 0x00001100,
    [⟨15, 12, .rw, .frame⟩, ⟨11, 8, .rw, .frame⟩, ⟨3, 3, .rw, .frame⟩, ⟨2, 2, .rw, .frame⟩, ⟨1, 1, .rw, .frame⟩, ⟨0, 0, .rw, .frame⟩]⟩,
  ⟨.TG_RATE, 0x20100004, [⟨0x10000, 0, 12⟩], 0x0000EA60,
    [⟨17, 0, .rw, .frame⟩]⟩,
  ⟨.TG_HACT, 0x20100008, [⟨0x10000, 0, 12⟩], 0x08980780,
    [⟨29, 16, .rw, .frame⟩, ⟨12, 0, .rw, .frame⟩]⟩,
  ⟨.TG_HSYNC, 0x2010000C, [⟨0x10000, 0, 12⟩], 0x002C0058,
    [⟨27, 16, .rw, .frame⟩, ⟨11, 0, .rw, .frame⟩]⟩,
  ⟨.TG_VACT, 0x20100010, [⟨0x10000, 0, 12⟩], 0x04650438,
    [⟨28, 16, .rw, .frame⟩, ⟨12, 0, .rw, .frame⟩]⟩,
  ⟨.TG_VSYNC, 0x20100014, [⟨0x10000, 0, 12⟩], 0x00050004,
    [⟨27, 16, .rw, .frame⟩, ⟨11, 0, .rw, .frame⟩]⟩,
  ⟨.TG_SYNC, 0x20100018, [⟨0x10000, 0, 12⟩], 0x00080000,
    [⟨19, 16, .rw, .frame⟩, ⟨12, 0, .rw, .frame⟩]⟩,
  ⟨.TG_LINE_INT, 0x2010001C, [⟨0x10000, 0, 12⟩], 0x00000000,
    [⟨31, 31, .rw, .live⟩, ⟨12, 0, .rw, .live⟩]⟩,
  ⟨.TG_STATUS, 0x20100020, [⟨0x10000, 0, 12⟩], 0x00000000,
    [⟨31, 16, .ro, .live⟩, ⟨5, 5, .w1c, .live⟩, ⟨4, 4, .ro, .live⟩, ⟨3, 3, .ro, .live⟩, ⟨2, 0, .ro, .live⟩]⟩,
  ⟨.TG_PHASE, 0x20100024, [⟨0x10000, 0, 12⟩], 0x00000000,
    [⟨31, 0, .ro, .live⟩]⟩,
  ⟨.TG_VADJ, 0x20100028, [⟨0x10000, 0, 12⟩], 0x00000000,
    [⟨31, 16, .ro, .live⟩, ⟨15, 0, .ro, .live⟩]⟩,
  ⟨.BANK_CFG, 0x20100030, [⟨0x10000, 0, 12⟩], 0x00003C00,
    [⟨15, 8, .rw, .live⟩, ⟨0, 0, .rw, .live⟩]⟩,
  ⟨.BANK_STAT, 0x20100034, [⟨0x10000, 0, 12⟩], 0x00000000,
    [⟨31, 16, .ro, .live⟩, ⟨11, 8, .ro, .live⟩, ⟨7, 0, .ro, .live⟩]⟩,
  ⟨.PNL_SEQ, 0x20100080, [⟨0x10000, 0, 12⟩], 0x140A0214,
    [⟨31, 24, .rw, .static⟩, ⟨23, 16, .rw, .static⟩, ⟨15, 8, .rw, .static⟩, ⟨7, 0, .rw, .static⟩]⟩,
  ⟨.PNL_CFG, 0x20100084, [⟨0x10000, 0, 12⟩], 0x00000000,
    [⟨12, 12, .rw, .static⟩, ⟨9, 9, .rw, .static⟩, ⟨8, 8, .rw, .static⟩, ⟨5, 5, .rw, .static⟩, ⟨4, 4, .rw, .static⟩]⟩,
  ⟨.PNL_OUT, 0x20100088, [⟨0x10000, 0, 12⟩], 0x00000000,
    [⟨17, 17, .ro, .live⟩, ⟨16, 16, .ro, .live⟩, ⟨1, 1, .rw, .live⟩, ⟨0, 0, .rw, .live⟩]⟩,
  ⟨.BL_PWM_PERIOD, 0x20100090, [⟨0x10000, 0, 12⟩], 0x00013880,
    [⟨31, 31, .rw, .static⟩, ⟨19, 0, .rw, .static⟩]⟩,
  ⟨.BL_PWM_DUTY, 0x20100094, [⟨0x10000, 0, 12⟩], 0x00000000,
    [⟨19, 0, .rw, .live⟩]⟩,
  ⟨.BL_PWM_MIN, 0x20100098, [⟨0x10000, 0, 12⟩], 0x00000000,
    [⟨19, 0, .rw, .live⟩]⟩,
  ⟨.PB_BG, 0x20100400, [⟨0x10000, 0, 12⟩], 0x00000000,
    [⟨29, 20, .rw, .frame⟩, ⟨19, 10, .rw, .frame⟩, ⟨9, 0, .rw, .frame⟩]⟩,
  ⟨.CL_CTRL, 0x20100404, [⟨0x10000, 0, 12⟩], 0x00000210,
    [⟨9, 8, .rw, .frame⟩, ⟨5, 4, .rw, .frame⟩, ⟨3, 3, .rw, .frame⟩, ⟨2, 2, .rw, .frame⟩, ⟨1, 1, .rw, .frame⟩, ⟨0, 0, .rw, .frame⟩]⟩,
  ⟨.CL_MAT_0, 0x20100408, [⟨0x10000, 0, 12⟩], 0x00001000,
    [⟨31, 16, .rw, .frame⟩, ⟨15, 0, .rw, .frame⟩]⟩,
  ⟨.CL_MAT_1, 0x2010040C, [⟨0x10000, 0, 12⟩], 0x00000000,
    [⟨31, 16, .rw, .frame⟩, ⟨15, 0, .rw, .frame⟩]⟩,
  ⟨.CL_MAT_2, 0x20100410, [⟨0x10000, 0, 12⟩], 0x00001000,
    [⟨31, 16, .rw, .frame⟩, ⟨15, 0, .rw, .frame⟩]⟩]

/-- PIPE register map, part 1 (R112, R136, R137, R194). -/
def rowsPipe1 : List RegRow := [
  ⟨.CL_MAT_3, 0x20100414, [⟨0x10000, 0, 12⟩], 0x00000000,
    [⟨31, 16, .rw, .frame⟩, ⟨15, 0, .rw, .frame⟩]⟩,
  ⟨.CL_MAT_4, 0x20100418, [⟨0x10000, 0, 12⟩], 0x00001000,
    [⟨15, 0, .rw, .frame⟩]⟩,
  ⟨.CL_OFF_RG, 0x2010041C, [⟨0x10000, 0, 12⟩], 0x00000000,
    [⟨28, 16, .rw, .frame⟩, ⟨12, 0, .rw, .frame⟩]⟩,
  ⟨.CL_OFF_B, 0x20100420, [⟨0x10000, 0, 12⟩], 0x00000000,
    [⟨12, 0, .rw, .frame⟩]⟩,
  ⟨.CL_LUT_ADDR, 0x20100424, [⟨0x10000, 0, 12⟩], 0x00000000,
    [⟨16, 16, .rw, .live⟩, ⟨15, 15, .rw, .live⟩, ⟨14, 13, .rw, .live⟩, ⟨10, 0, .rw, .live⟩]⟩,
  ⟨.CL_LUT_DATA, 0x20100428, [⟨0x10000, 0, 12⟩], 0x00000000,
    [⟨12, 0, .rw, .static⟩]⟩,
  ⟨.CL_LUT_RESET, 0x2010042C, [⟨0x10000, 0, 12⟩], 0x00000000,
    [⟨1, 0, .w1s, .live⟩]⟩,
  ⟨.CL_LUT_USE, 0x20100430, [⟨0x10000, 0, 12⟩], 0x00000000,
    [⟨1, 0, .ro, .live⟩]⟩,
  ⟨.WB_CTRL, 0x20100500, [⟨0x10000, 0, 12⟩], 0x00010420,
    [⟨23, 16, .rw, .live⟩, ⟨11, 10, .rw, .live⟩, ⟨8, 8, .rw, .live⟩, ⟨5, 4, .rw, .live⟩, ⟨1, 0, .rw, .live⟩]⟩,
  ⟨.WB_HANDLE_0, 0x20100504, [⟨0x10000, 0, 12⟩], 0x00000000,
    [⟨9, 0, .rw, .live⟩]⟩,
  ⟨.WB_HANDLE_1, 0x20100508, [⟨0x10000, 0, 12⟩], 0x00000000,
    [⟨9, 0, .rw, .live⟩]⟩,
  ⟨.WB_HANDLE_2, 0x2010050C, [⟨0x10000, 0, 12⟩], 0x00000000,
    [⟨9, 0, .rw, .live⟩]⟩,
  ⟨.WB_STRIDE, 0x20100510, [⟨0x10000, 0, 12⟩], 0x00000000,
    [⟨19, 0, .rw, .live⟩]⟩,
  ⟨.WB_STATUS, 0x20100514, [⟨0x10000, 0, 12⟩], 0x00000000,
    [⟨31, 16, .ro, .live⟩, ⟨9, 8, .ro, .live⟩, ⟨5, 5, .w1c, .live⟩, ⟨4, 4, .w1c, .live⟩, ⟨3, 3, .w1c, .live⟩, ⟨2, 2, .w1c, .live⟩, ⟨1, 1, .w1c, .live⟩, ⟨0, 0, .ro, .live⟩]⟩,
  ⟨.WB_STAMP_LO, 0x20100518, [⟨0x10000, 0, 12⟩], 0x00000000,
    [⟨31, 0, .ro, .live⟩]⟩,
  ⟨.WB_STAMP_HI, 0x2010051C, [⟨0x10000, 0, 12⟩], 0x00000000,
    [⟨15, 0, .ro, .live⟩]⟩,
  ⟨.SC_COEF_ADDR, 0x20100E00, [⟨0x10000, 0, 12⟩], 0x00000000,
    [⟨17, 16, .rw, .live⟩, ⟨14, 14, .rw, .live⟩, ⟨13, 8, .rw, .live⟩, ⟨2, 0, .rw, .live⟩]⟩,
  ⟨.SC_COEF_DATA, 0x20100E04, [⟨0x10000, 0, 12⟩], 0x00000000,
    [⟨9, 0, .rw, .static⟩]⟩,
  ⟨.SC_COEF_RESET, 0x20100E08, [⟨0x10000, 0, 12⟩], 0x00000000,
    [⟨3, 0, .w1s, .live⟩]⟩,
  ⟨.SC_MAP, 0x20100E0C, [⟨0x10000, 0, 12⟩], 0x00000000,
    [⟨7, 7, .ro, .live⟩, ⟨6, 6, .ro, .live⟩, ⟨2, 0, .ro, .live⟩, ⟨15, 15, .ro, .live⟩, ⟨14, 14, .ro, .live⟩, ⟨10, 8, .ro, .live⟩, ⟨23, 23, .ro, .live⟩, ⟨22, 22, .ro, .live⟩, ⟨18, 16, .ro, .live⟩, ⟨31, 31, .ro, .live⟩, ⟨30, 30, .ro, .live⟩, ⟨26, 24, .ro, .live⟩]⟩,
  ⟨.SC_BANK_USE, 0x20100E10, [⟨0x10000, 0, 12⟩], 0x00000000,
    [⟨3, 0, .ro, .live⟩]⟩,
  ⟨.SL_CTRL, 0x20101000, [⟨0x10000, 0, 12⟩, ⟨0x1000, 0, 8⟩], 0x01100004,
    [⟨31, 24, .rw, .frame⟩, ⟨21, 20, .rw, .frame⟩, ⟨19, 19, .rw, .frame⟩, ⟨18, 18, .rw, .frame⟩, ⟨15, 8, .rw, .frame⟩, ⟨4, 4, .rw, .frame⟩, ⟨3, 3, .rw, .frame⟩, ⟨2, 2, .rw, .frame⟩, ⟨0, 0, .rw, .frame⟩]⟩,
  ⟨.SL_LAYER, 0x20101004, [⟨0x10000, 0, 12⟩, ⟨0x1000, 0, 8⟩], 0x00010200,
    [⟨31, 24, .rw, .frame⟩, ⟨23, 16, .rw, .frame⟩, ⟨9, 8, .rw, .frame⟩, ⟨7, 0, .rw, .frame⟩]⟩,
  ⟨.SL_HANDLE, 0x20101008, [⟨0x10000, 0, 12⟩, ⟨0x1000, 0, 8⟩], 0x00000000,
    [⟨9, 0, .rw, .frame⟩]⟩]

/-- PIPE register map, part 2 (R112, R136, R137, R194). -/
def rowsPipe2 : List RegRow := [
  ⟨.SL_SRC_SIZE, 0x2010100C, [⟨0x10000, 0, 12⟩, ⟨0x1000, 0, 8⟩], 0x00000000,
    [⟨29, 16, .rw, .frame⟩, ⟨13, 0, .rw, .frame⟩]⟩,
  ⟨.SL_STRIDE0, 0x20101010, [⟨0x10000, 0, 12⟩, ⟨0x1000, 0, 8⟩], 0x00000000,
    [⟨19, 0, .rw, .frame⟩]⟩,
  ⟨.SL_STRIDE1, 0x20101014, [⟨0x10000, 0, 12⟩, ⟨0x1000, 0, 8⟩], 0x00000000,
    [⟨19, 0, .rw, .frame⟩]⟩,
  ⟨.SL_CROP_POS, 0x20101018, [⟨0x10000, 0, 12⟩, ⟨0x1000, 0, 8⟩], 0x00000000,
    [⟨29, 16, .rw, .frame⟩, ⟨13, 0, .rw, .frame⟩]⟩,
  ⟨.SL_CROP_SIZE, 0x2010101C, [⟨0x10000, 0, 12⟩, ⟨0x1000, 0, 8⟩], 0x00000000,
    [⟨29, 16, .rw, .frame⟩, ⟨13, 0, .rw, .frame⟩]⟩,
  ⟨.SL_DST_POS, 0x20101020, [⟨0x10000, 0, 12⟩, ⟨0x1000, 0, 8⟩], 0x00000000,
    [⟨27, 16, .rw, .frame⟩, ⟨12, 0, .rw, .frame⟩]⟩,
  ⟨.SL_DST_SIZE, 0x20101024, [⟨0x10000, 0, 12⟩, ⟨0x1000, 0, 8⟩], 0x00000000,
    [⟨27, 16, .rw, .frame⟩, ⟨12, 0, .rw, .frame⟩]⟩,
  ⟨.SL_OPQ_POS, 0x20101028, [⟨0x10000, 0, 12⟩, ⟨0x1000, 0, 8⟩], 0x00000000,
    [⟨27, 16, .rw, .frame⟩, ⟨12, 0, .rw, .frame⟩]⟩,
  ⟨.SL_OPQ_SIZE, 0x2010102C, [⟨0x10000, 0, 12⟩, ⟨0x1000, 0, 8⟩], 0x00000000,
    [⟨27, 16, .rw, .frame⟩, ⟨12, 0, .rw, .frame⟩]⟩,
  ⟨.SL_FILL, 0x20101030, [⟨0x10000, 0, 12⟩, ⟨0x1000, 0, 8⟩], 0xFF000000,
    [⟨31, 0, .rw, .frame⟩]⟩,
  ⟨.SL_CONST, 0x20101034, [⟨0x10000, 0, 12⟩, ⟨0x1000, 0, 8⟩], 0x00000000,
    [⟨23, 0, .rw, .frame⟩]⟩,
  ⟨.SL_SCALE, 0x20101038, [⟨0x10000, 0, 12⟩, ⟨0x1000, 0, 8⟩], 0x00000044,
    [⟨6, 4, .rw, .frame⟩, ⟨2, 0, .rw, .frame⟩]⟩,
  ⟨.SL_PHASE_H, 0x2010103C, [⟨0x10000, 0, 12⟩, ⟨0x1000, 0, 8⟩], 0x00000000,
    [⟨17, 0, .rw, .frame⟩]⟩,
  ⟨.SL_PHASE_V, 0x20101040, [⟨0x10000, 0, 12⟩, ⟨0x1000, 0, 8⟩], 0x00000000,
    [⟨17, 0, .rw, .frame⟩]⟩,
  ⟨.SL_STATUS, 0x20101048, [⟨0x10000, 0, 12⟩, ⟨0x1000, 0, 8⟩], 0x00000000,
    [⟨21, 12, .ro, .live⟩, ⟨11, 8, .ro, .live⟩, ⟨3, 3, .ro, .live⟩, ⟨2, 2, .ro, .live⟩, ⟨1, 1, .ro, .live⟩, ⟨0, 0, .ro, .live⟩]⟩,
  ⟨.SL_FETCH, 0x2010104C, [⟨0x10000, 0, 12⟩, ⟨0x1000, 0, 8⟩], 0x00000000,
    [⟨31, 0, .ro, .live⟩]⟩,
  ⟨.SL_CULL, 0x20101050, [⟨0x10000, 0, 12⟩, ⟨0x1000, 0, 8⟩], 0x00000000,
    [⟨31, 0, .ro, .live⟩]⟩,
  ⟨.SL_BLEND, 0x20101080, [⟨0x10000, 0, 12⟩, ⟨0x1000, 0, 8⟩], 0x0FFF0000,
    [⟨27, 16, .rw, .frame⟩, ⟨0, 0, .rw, .frame⟩]⟩,
  ⟨.SL_PALETTE, 0x20101400, [⟨0x10000, 0, 12⟩, ⟨0x1000, 0, 8⟩, ⟨0x4, 0, 256⟩], 0x00000000,
    [⟨31, 0, .rw, .frame⟩]⟩]

/-- PIPE register map (R112, R136, R137, R194). -/
def rowsPipe : List RegRow := rowsPipe0 ++ rowsPipe1 ++ rowsPipe2

/-- SCAN register map, part 0 (R195). -/
def rowsScan0 : List RegRow := [
  ⟨.FSYNC_PERIOD, 0x201F0000, [], 0x00065B9B,
    [⟨23, 0, .rwl, .static⟩]⟩,
  ⟨.FSYNC_CFG, 0x201F0004, [], 0x00000305,
    [⟨11, 8, .rwl, .live⟩, ⟨7, 0, .rwl, .live⟩]⟩,
  ⟨.FSYNC_STATUS, 0x201F0008, [], 0x00000000,
    [⟨31, 16, .ro, .live⟩, ⟨15, 8, .ro, .live⟩, ⟨1, 1, .ro, .live⟩, ⟨0, 0, .ro, .live⟩]⟩,
  ⟨.FSYNC_OUT_CFG, 0x201F000C, [], 0x00FA00F0,
    [⟨31, 16, .rwl, .live⟩, ⟨7, 4, .rwl, .live⟩, ⟨1, 1, .rwl, .live⟩, ⟨0, 0, .rwl, .live⟩]⟩]

/-- SCAN register map (R195). -/
def rowsScan : List RegRow := rowsScan0

/-- BEACON register map, part 0 (R170). -/
def rowsBeacon0 : List RegRow := [
  ⟨.BC_CTRL, 0x20200000, [], 0x00000000,
    [⟨0, 0, .w1s, .live⟩]⟩,
  ⟨.BC_STATUS, 0x20200004, [], 0x00000000,
    [⟨27, 24, .ro, .live⟩, ⟨23, 20, .ro, .live⟩, ⟨19, 16, .ro, .live⟩, ⟨11, 8, .ro, .live⟩, ⟨4, 4, .ro, .live⟩, ⟨3, 0, .ro, .live⟩]⟩,
  ⟨.BC_E2E_CFG, 0x20200008, [], 0x00003C00,
    [⟨16, 16, .rw, .live⟩, ⟨15, 8, .rw, .live⟩, ⟨1, 0, .rw, .live⟩]⟩,
  ⟨.BC_INJ, 0x2020000C, [], 0x00000000,
    [⟨5, 5, .w1s, .live⟩, ⟨4, 4, .w1s, .live⟩, ⟨3, 0, .w1s, .live⟩]⟩,
  ⟨.BC_SHOWN, 0x20200010, [⟨0x4, 0, 4⟩], 0x00000000,
    [⟨1, 0, .ro, .live⟩, ⟨3, 2, .ro, .live⟩, ⟨5, 4, .ro, .live⟩, ⟨7, 6, .ro, .live⟩, ⟨9, 8, .ro, .live⟩, ⟨11, 10, .ro, .live⟩, ⟨13, 12, .ro, .live⟩, ⟨15, 14, .ro, .live⟩, ⟨17, 16, .ro, .live⟩, ⟨19, 18, .ro, .live⟩, ⟨21, 20, .ro, .live⟩, ⟨23, 22, .ro, .live⟩, ⟨25, 24, .ro, .live⟩, ⟨27, 26, .ro, .live⟩, ⟨29, 28, .ro, .live⟩, ⟨31, 30, .ro, .live⟩]⟩,
  ⟨.BC_PROOF, 0x20200020, [⟨0x4, 0, 4⟩], 0x00000000,
    [⟨1, 0, .ro, .live⟩, ⟨3, 2, .ro, .live⟩, ⟨5, 4, .ro, .live⟩, ⟨7, 6, .ro, .live⟩, ⟨9, 8, .ro, .live⟩, ⟨11, 10, .ro, .live⟩, ⟨13, 12, .ro, .live⟩, ⟨15, 14, .ro, .live⟩, ⟨17, 16, .ro, .live⟩, ⟨19, 18, .ro, .live⟩, ⟨21, 20, .ro, .live⟩, ⟨23, 22, .ro, .live⟩, ⟨25, 24, .ro, .live⟩, ⟨27, 26, .ro, .live⟩, ⟨29, 28, .ro, .live⟩, ⟨31, 30, .ro, .live⟩]⟩,
  ⟨.BE_CFG, 0x20200100, [⟨0x40, 0, 4⟩], 0x00000000,
    [⟨31, 31, .rw, .frame⟩, ⟨3, 0, .rw, .frame⟩]⟩,
  ⟨.BE_BG, 0x20200104, [⟨0x40, 0, 4⟩], 0x00000000,
    [⟨29, 0, .rw, .frame⟩]⟩,
  ⟨.BE_FAULT, 0x20200108, [⟨0x40, 0, 4⟩], 0x00000000,
    [⟨29, 0, .rw, .frame⟩]⟩,
  ⟨.BE_HOLD_START, 0x2020010C, [⟨0x40, 0, 4⟩], 0x00000000,
    [⟨31, 0, .rw, .live⟩]⟩,
  ⟨.BE_POS_0, 0x20200110, [⟨0x40, 0, 4⟩], 0x00000000,
    [⟨27, 16, .rw, .frame⟩, ⟨12, 0, .rw, .frame⟩]⟩,
  ⟨.BE_SIZE_0, 0x20200114, [⟨0x40, 0, 4⟩], 0x00000000,
    [⟨27, 16, .rw, .frame⟩, ⟨12, 0, .rw, .frame⟩]⟩,
  ⟨.BE_POS_1, 0x20200118, [⟨0x40, 0, 4⟩], 0x00000000,
    [⟨27, 16, .rw, .frame⟩, ⟨12, 0, .rw, .frame⟩]⟩,
  ⟨.BE_SIZE_1, 0x2020011C, [⟨0x40, 0, 4⟩], 0x00000000,
    [⟨27, 16, .rw, .frame⟩, ⟨12, 0, .rw, .frame⟩]⟩,
  ⟨.BE_POS_2, 0x20200120, [⟨0x40, 0, 4⟩], 0x00000000,
    [⟨27, 16, .rw, .frame⟩, ⟨12, 0, .rw, .frame⟩]⟩,
  ⟨.BE_SIZE_2, 0x20200124, [⟨0x40, 0, 4⟩], 0x00000000,
    [⟨27, 16, .rw, .frame⟩, ⟨12, 0, .rw, .frame⟩]⟩,
  ⟨.BE_POS_3, 0x20200128, [⟨0x40, 0, 4⟩], 0x00000000,
    [⟨27, 16, .rw, .frame⟩, ⟨12, 0, .rw, .frame⟩]⟩,
  ⟨.BE_SIZE_3, 0x2020012C, [⟨0x40, 0, 4⟩], 0x00000000,
    [⟨27, 16, .rw, .frame⟩, ⟨12, 0, .rw, .frame⟩]⟩,
  ⟨.BE_CRC, 0x20200130, [⟨0x40, 0, 4⟩], 0x00000000,
    [⟨31, 0, .ro, .live⟩]⟩,
  ⟨.BE_RX_CRC, 0x20200134, [⟨0x40, 0, 4⟩], 0x00000000,
    [⟨31, 0, .ro, .live⟩]⟩,
  ⟨.BE_E2E, 0x20200138, [⟨0x40, 0, 4⟩], 0x00000000,
    [⟨31, 16, .ro, .live⟩, ⟨15, 8, .ro, .live⟩, ⟨3, 3, .w1c, .live⟩, ⟨2, 2, .w1c, .live⟩, ⟨1, 0, .ro, .live⟩]⟩,
  ⟨.BE_HOLD_LEN, 0x2020013C, [⟨0x40, 0, 4⟩], 0x00000000,
    [⟨31, 31, .ro, .live⟩, ⟨30, 30, .ro, .live⟩, ⟨10, 0, .rw, .live⟩]⟩,
  ⟨.TT_CFG, 0x20201000, [⟨0x10, 0, 64⟩], 0x00000000,
    [⟨31, 31, .rw, .frame⟩, ⟨29, 28, .rw, .frame⟩, ⟨25, 16, .rw, .frame⟩, ⟨15, 15, .rw, .frame⟩, ⟨9, 0, .rw, .frame⟩]⟩,
  ⟨.TT_POS, 0x20201004, [⟨0x10, 0, 64⟩], 0x00000000,
    [⟨27, 16, .rw, .frame⟩, ⟨12, 0, .rw, .frame⟩]⟩]

/-- BEACON register map, part 1 (R170). -/
def rowsBeacon1 : List RegRow := [
  ⟨.TT_MODE, 0x20201008, [⟨0x10, 0, 64⟩], 0x0A001818,
    [⟨31, 24, .rw, .frame⟩, ⟨17, 16, .rw, .frame⟩, ⟨15, 8, .rw, .frame⟩, ⟨7, 0, .rw, .frame⟩]⟩,
  ⟨.TT_STATE, 0x2020100C, [⟨0x10, 0, 64⟩], 0xFFFF0000,
    [⟨31, 16, .ro, .live⟩, ⟨13, 12, .ro, .live⟩, ⟨10, 10, .w1c, .live⟩, ⟨9, 9, .ro, .live⟩, ⟨8, 8, .ro, .live⟩, ⟨5, 4, .ro, .live⟩, ⟨1, 0, .rw, .frame⟩]⟩,
  ⟨.CLU_CTRL, 0x20202000, [], 0x00000100,
    [⟨15, 8, .rw, .live⟩, ⟨0, 0, .rw, .live⟩]⟩,
  ⟨.CLU_TARGET, 0x20202004, [], 0x00000000,
    [⟨19, 16, .rw, .live⟩, ⟨6, 4, .rw, .live⟩]⟩,
  ⟨.CLU_HANDLE, 0x20202008, [], 0x00000000,
    [⟨25, 16, .rw, .live⟩, ⟨9, 0, .rw, .live⟩]⟩,
  ⟨.CLU_DL, 0x2020200C, [], 0x00000000,
    [⟨31, 0, .rw, .live⟩]⟩,
  ⟨.CLU_BG, 0x20202010, [], 0x00000000,
    [⟨31, 0, .rw, .live⟩]⟩,
  ⟨.CLU_STATUS, 0x20202014, [], 0x00000000,
    [⟨23, 20, .ro, .live⟩, ⟨4, 4, .ro, .live⟩, ⟨3, 3, .ro, .live⟩, ⟨2, 2, .ro, .live⟩, ⟨1, 1, .ro, .live⟩, ⟨0, 0, .ro, .live⟩]⟩]

/-- BEACON register map (R170). -/
def rowsBeacon : List RegRow := rowsBeacon0 ++ rowsBeacon1

/-- DMA register map, part 0 (R227). -/
def rowsDma0 : List RegRow := [
  ⟨.DMA_CFG, 0x20300000, [], 0x00320000,
    [⟨31, 16, .rwl, .static⟩]⟩,
  ⟨.DMA_STAGE, 0x20300004, [], 0x00006040,
    [⟨15, 8, .rw, .live⟩, ⟨7, 0, .rw, .live⟩]⟩,
  ⟨.DMA_STATUS, 0x20300008, [], 0x00000000,
    [⟨26, 16, .ro, .live⟩, ⟨7, 0, .ro, .live⟩]⟩,
  ⟨.DMA_SVC_PORT, 0x2030000C, [], 0xF5555555,
    [⟨1, 0, .rwl, .static⟩, ⟨3, 2, .rwl, .static⟩, ⟨5, 4, .rwl, .static⟩, ⟨7, 6, .rwl, .static⟩, ⟨9, 8, .rwl, .static⟩, ⟨11, 10, .rwl, .static⟩, ⟨13, 12, .rwl, .static⟩, ⟨15, 14, .rwl, .static⟩, ⟨17, 16, .rwl, .static⟩, ⟨19, 18, .rwl, .static⟩, ⟨21, 20, .rwl, .static⟩, ⟨23, 22, .rwl, .static⟩, ⟨25, 24, .rwl, .static⟩, ⟨27, 26, .rwl, .static⟩, ⟨29, 28, .rwl, .static⟩, ⟨31, 30, .rwl, .static⟩]⟩,
  ⟨.DMA_NOW_LO, 0x20300010, [], 0x00000000,
    [⟨31, 0, .ro, .live⟩]⟩,
  ⟨.DMA_NOW_HI, 0x20300014, [], 0x00000000,
    [⟨31, 0, .ro, .live⟩]⟩,
  ⟨.DMA_INJ, 0x20300018, [], 0x00000000,
    [⟨1, 1, .w1s, .live⟩, ⟨0, 0, .w1s, .live⟩]⟩,
  ⟨.DMA_ERR_INFO, 0x2030001C, [], 0x00000000,
    [⟨22, 16, .ro, .live⟩, ⟨15, 12, .ro, .live⟩, ⟨7, 0, .ro, .live⟩]⟩,
  ⟨.DMA_ERR_ADDR_LO, 0x20300020, [], 0x00000000,
    [⟨31, 0, .ro, .live⟩]⟩,
  ⟨.DMA_ERR_ADDR_HI, 0x20300024, [], 0x00000000,
    [⟨31, 0, .ro, .live⟩]⟩]

/-- DMA register map (R227). -/
def rowsDma : List RegRow := rowsDma0

/-- DMACH register map, part 0 (R228). -/
def rowsDmach0 : List RegRow := [
  ⟨.CH_CTRL, 0x20310000, [⟨0x100, 0, 112⟩], 0x00000000,
    [⟨2, 2, .w1s, .live⟩, ⟨1, 1, .w1s, .live⟩, ⟨0, 0, .rw, .live⟩]⟩,
  ⟨.CH_CFG, 0x20310004, [⟨0x100, 0, 112⟩], 0x00641044,
    [⟨31, 16, .rw, .static⟩, ⟨15, 8, .rw, .static⟩, ⟨7, 4, .rw, .static⟩, ⟨3, 2, .rw, .static⟩]⟩,
  ⟨.CH_DB_LO, 0x20310008, [⟨0x100, 0, 112⟩], 0x00000000,
    [⟨31, 6, .rw, .live⟩]⟩,
  ⟨.CH_DB_HI, 0x2031000C, [⟨0x100, 0, 112⟩], 0x00000000,
    [⟨31, 0, .wo, .live⟩]⟩,
  ⟨.CH_STATUS, 0x20310010, [⟨0x100, 0, 112⟩], 0x00000000,
    [⟨26, 26, .w1c, .live⟩, ⟨25, 25, .w1c, .live⟩, ⟨24, 24, .w1c, .live⟩, ⟨23, 23, .w1c, .live⟩, ⟨22, 22, .w1c, .live⟩, ⟨21, 21, .w1c, .live⟩, ⟨20, 20, .w1c, .live⟩, ⟨19, 19, .w1c, .live⟩, ⟨18, 18, .w1c, .live⟩, ⟨17, 17, .w1c, .live⟩, ⟨16, 16, .w1c, .live⟩, ⟨11, 11, .ro, .live⟩, ⟨10, 8, .ro, .live⟩, ⟨6, 4, .ro, .live⟩, ⟨2, 0, .ro, .live⟩]⟩,
  ⟨.CH_CUR_LO, 0x20310014, [⟨0x100, 0, 112⟩], 0x00000000,
    [⟨31, 0, .ro, .live⟩]⟩,
  ⟨.CH_CUR_HI, 0x20310018, [⟨0x100, 0, 112⟩], 0x00000000,
    [⟨31, 0, .ro, .live⟩]⟩,
  ⟨.CH_REMAIN, 0x2031001C, [⟨0x100, 0, 112⟩], 0x00000000,
    [⟨31, 0, .ro, .live⟩]⟩,
  ⟨.CH_OPEN, 0x20310020, [⟨0x100, 0, 112⟩], 0x00000000,
    [⟨26, 16, .ro, .live⟩, ⟨15, 0, .ro, .live⟩]⟩,
  ⟨.CH_DEADLINE_LO, 0x20310024, [⟨0x100, 0, 112⟩], 0x00000000,
    [⟨31, 0, .ro, .live⟩]⟩,
  ⟨.CH_DEADLINE_HI, 0x20310028, [⟨0x100, 0, 112⟩], 0x00000000,
    [⟨31, 0, .ro, .live⟩]⟩,
  ⟨.CH_LAST, 0x2031002C, [⟨0x100, 0, 112⟩], 0x00000000,
    [⟨31, 0, .ro, .live⟩]⟩,
  ⟨.CH_LAST_STATUS, 0x20310030, [⟨0x100, 0, 112⟩], 0x00000000,
    [⟨31, 16, .ro, .live⟩, ⟨15, 8, .ro, .live⟩, ⟨7, 0, .ro, .live⟩]⟩,
  ⟨.CH_STAT_BYTES, 0x20310034, [⟨0x100, 0, 112⟩], 0x00000000,
    [⟨31, 0, .ro, .live⟩]⟩,
  ⟨.CH_STAT_SPEC, 0x20310038, [⟨0x100, 0, 112⟩], 0x00000000,
    [⟨31, 0, .ro, .live⟩]⟩,
  ⟨.CH_STAT_LATE, 0x2031003C, [⟨0x100, 0, 112⟩], 0x00000000,
    [⟨31, 0, .ro, .live⟩]⟩]

/-- DMACH register map (R228). -/
def rowsDmach : List RegRow := rowsDmach0

/-- DECODER register map, part 0 (R252, R253). -/
def rowsDecoder0 : List RegRow := [
  ⟨.DEC_CTRL, 0x20400000, [], 0x00000000,
    [⟨0, 0, .w1s, .live⟩]⟩,
  ⟨.DEC_STATUS, 0x20400004, [], 0x00000000,
    [⟨31, 16, .ro, .live⟩, ⟨1, 1, .ro, .live⟩, ⟨0, 0, .ro, .live⟩]⟩,
  ⟨.DEC_ADM_CELLS, 0x20400008, [], 0x00000000,
    [⟨12, 0, .ro, .live⟩]⟩,
  ⟨.DEC_ADM_HBW, 0x2040000C, [], 0x00000000,
    [⟨19, 0, .ro, .live⟩]⟩,
  ⟨.DEC_ADM_LINK, 0x20400010, [], 0x00000000,
    [⟨20, 0, .ro, .live⟩]⟩,
  ⟨.DEC_ADM_POWER, 0x20400014, [], 0x00000000,
    [⟨24, 16, .ro, .live⟩, ⟨15, 0, .ro, .live⟩]⟩,
  ⟨.DEC_ADM_LUMA, 0x20400018, [], 0x00000000,
    [⟨11, 0, .ro, .live⟩]⟩,
  ⟨.DEC_INJ, 0x2040001C, [], 0x00000000,
    [⟨3, 3, .w1s, .live⟩, ⟨2, 2, .w1s, .live⟩, ⟨1, 1, .w1s, .live⟩, ⟨0, 0, .w1s, .live⟩]⟩,
  ⟨.DEC_ERR_INFO, 0x20400020, [], 0x00000000,
    [⟨19, 16, .ro, .live⟩, ⟨7, 0, .ro, .live⟩]⟩,
  ⟨.DS_CMD, 0x20401000, [⟨0x100, 0, 16⟩], 0x00000000,
    [⟨2, 0, .wo, .live⟩]⟩,
  ⟨.DS_RESULT, 0x20401004, [⟨0x100, 0, 16⟩], 0x00000000,
    [⟨31, 24, .ro, .live⟩, ⟨18, 18, .w1c, .live⟩, ⟨17, 17, .ro, .live⟩, ⟨16, 16, .ro, .live⟩, ⟨3, 0, .ro, .live⟩]⟩,
  ⟨.DS_DETAIL, 0x20401008, [⟨0x100, 0, 16⟩], 0x00000000,
    [⟨31, 0, .ro, .live⟩]⟩,
  ⟨.DS_GEOM, 0x2040100C, [⟨0x100, 0, 16⟩], 0x00000000,
    [⟨28, 16, .rw, .static⟩, ⟨13, 0, .rw, .static⟩]⟩,
  ⟨.DS_PARAM, 0x20401010, [⟨0x100, 0, 16⟩], 0x00000000,
    [⟨20, 16, .rw, .static⟩, ⟨0, 0, .rw, .static⟩]⟩,
  ⟨.DS_RATE, 0x20401014, [⟨0x100, 0, 16⟩], 0x00000000,
    [⟨18, 0, .rw, .static⟩]⟩,
  ⟨.DS_KBPS, 0x20401018, [⟨0x100, 0, 16⟩], 0x00000000,
    [⟨17, 0, .rw, .static⟩]⟩,
  ⟨.DS_CFG, 0x2040101C, [⟨0x100, 0, 16⟩], 0x00000300,
    [⟨9, 8, .rw, .static⟩]⟩,
  ⟨.DS_OUT_HANDLE, 0x20401020, [⟨0x100, 0, 16⟩], 0x00000000,
    [⟨29, 20, .rw, .static⟩, ⟨19, 10, .rw, .static⟩, ⟨9, 0, .rw, .static⟩]⟩,
  ⟨.DS_OUT_STRIDE, 0x20401024, [⟨0x100, 0, 16⟩], 0x00000000,
    [⟨31, 16, .rw, .static⟩, ⟨15, 0, .rw, .static⟩]⟩,
  ⟨.DS_LAYER, 0x20401028, [⟨0x100, 0, 16⟩], 0x00000000,
    [⟨8, 8, .rw, .static⟩, ⟨7, 0, .rw, .static⟩]⟩,
  ⟨.DS_POLICY, 0x2040102C, [⟨0x100, 0, 16⟩], 0x00000002,
    [⟨1, 1, .rw, .live⟩, ⟨0, 0, .rw, .live⟩]⟩,
  ⟨.DS_STATUS, 0x20401030, [⟨0x100, 0, 16⟩], 0x00000000,
    [⟨26, 24, .ro, .live⟩, ⟨21, 20, .ro, .live⟩, ⟨13, 13, .w1c, .live⟩, ⟨12, 12, .w1c, .live⟩, ⟨11, 11, .w1c, .live⟩, ⟨10, 10, .w1c, .live⟩, ⟨9, 9, .w1c, .live⟩, ⟨8, 8, .w1c, .live⟩, ⟨2, 0, .ro, .live⟩]⟩,
  ⟨.DS_INFO, 0x20401034, [⟨0x100, 0, 16⟩], 0x00000000,
    [⟨31, 24, .ro, .live⟩, ⟨23, 16, .ro, .live⟩, ⟨15, 15, .ro, .live⟩, ⟨14, 14, .ro, .live⟩, ⟨11, 11, .ro, .live⟩, ⟨10, 10, .ro, .live⟩, ⟨9, 8, .ro, .live⟩, ⟨7, 0, .ro, .live⟩]⟩,
  ⟨.DS_OUT_SIZE, 0x20401038, [⟨0x100, 0, 16⟩], 0x00000000,
    [⟨28, 16, .ro, .live⟩, ⟨13, 0, .ro, .live⟩]⟩]

/-- DECODER register map, part 1 (R252, R253). -/
def rowsDecoder1 : List RegRow := [
  ⟨.DS_OUT_LAST, 0x2040103C, [⟨0x100, 0, 16⟩], 0x00000000,
    [⟨31, 16, .ro, .live⟩, ⟨15, 15, .ro, .live⟩, ⟨11, 10, .ro, .live⟩, ⟨9, 0, .ro, .live⟩]⟩,
  ⟨.DS_CNT_DEC, 0x20401040, [⟨0x100, 0, 16⟩], 0x00000000,
    [⟨31, 16, .ro, .live⟩, ⟨15, 0, .ro, .live⟩]⟩,
  ⟨.DS_CNT_OUT, 0x20401044, [⟨0x100, 0, 16⟩], 0x00000000,
    [⟨31, 16, .ro, .live⟩, ⟨15, 0, .ro, .live⟩]⟩,
  ⟨.DS_IN, 0x20401048, [⟨0x100, 0, 16⟩], 0x00000000,
    [⟨31, 0, .ro, .live⟩]⟩]

/-- DECODER register map (R252, R253). -/
def rowsDecoder : List RegRow := rowsDecoder0 ++ rowsDecoder1

/-- ENCODER register map, part 0 (R273, R274). -/
def rowsEncoder0 : List RegRow := [
  ⟨.ENC_CTRL, 0x20410000, [], 0x00000000,
    [⟨0, 0, .w1s, .live⟩]⟩,
  ⟨.ENC_STATUS, 0x20410004, [], 0x00000000,
    [⟨27, 16, .ro, .live⟩, ⟨1, 1, .ro, .live⟩, ⟨0, 0, .ro, .live⟩]⟩,
  ⟨.ENC_CELLS, 0x20410008, [], 0x00000000,
    [⟨12, 0, .ro, .live⟩]⟩,
  ⟨.ENC_GRANT, 0x2041000C, [], 0x00000000,
    [⟨26, 16, .ro, .live⟩, ⟨3, 0, .ro, .live⟩]⟩,
  ⟨.ENC_INJ, 0x20410010, [], 0x00000000,
    [⟨2, 2, .w1s, .live⟩, ⟨1, 1, .w1s, .live⟩, ⟨0, 0, .w1s, .live⟩]⟩,
  ⟨.ENC_ERR_INFO, 0x20410014, [], 0x00000000,
    [⟨19, 16, .ro, .live⟩, ⟨7, 0, .ro, .live⟩]⟩,
  ⟨.ES_CMD, 0x20411000, [⟨0x200, 0, 12⟩], 0x00000000,
    [⟨2, 0, .wo, .live⟩]⟩,
  ⟨.ES_RESULT, 0x20411004, [⟨0x200, 0, 12⟩], 0x00000000,
    [⟨31, 24, .ro, .live⟩, ⟨18, 18, .w1c, .live⟩, ⟨17, 17, .ro, .live⟩, ⟨16, 16, .ro, .live⟩, ⟨3, 0, .ro, .live⟩]⟩,
  ⟨.ES_DETAIL, 0x20411008, [⟨0x200, 0, 12⟩], 0x00000000,
    [⟨31, 0, .ro, .live⟩]⟩,
  ⟨.ES_GEOM, 0x2041100C, [⟨0x200, 0, 12⟩], 0x00000000,
    [⟨28, 16, .rw, .static⟩, ⟨13, 0, .rw, .static⟩]⟩,
  ⟨.ES_CFG, 0x20411010, [⟨0x200, 0, 12⟩], 0x3C011020,
    [⟨31, 24, .rw, .static⟩, ⟨23, 16, .rw, .static⟩, ⟨13, 12, .rw, .static⟩, ⟨8, 8, .rw, .static⟩, ⟨5, 4, .rw, .static⟩, ⟨3, 0, .rw, .static⟩]⟩,
  ⟨.ES_OUT, 0x20411014, [⟨0x200, 0, 12⟩], 0x00000020,
    [⟨7, 0, .rw, .static⟩]⟩,
  ⟨.ES_RATE, 0x20411018, [⟨0x200, 0, 12⟩], 0x00001F40,
    [⟨17, 0, .rw, .live⟩]⟩,
  ⟨.ES_RC, 0x2041101C, [⟨0x200, 0, 12⟩], 0x0A042096,
    [⟨29, 24, .rw, .live⟩, ⟨21, 16, .rw, .live⟩, ⟨13, 8, .rw, .live⟩, ⟨7, 0, .rw, .live⟩]⟩,
  ⟨.ES_ROI_EN, 0x20411020, [⟨0x200, 0, 12⟩], 0x00000000,
    [⟨15, 0, .rw, .live⟩]⟩,
  ⟨.ES_STATUS, 0x20411024, [⟨0x200, 0, 12⟩], 0x00000000,
    [⟨19, 16, .ro, .live⟩, ⟨11, 11, .w1c, .live⟩, ⟨10, 10, .w1c, .live⟩, ⟨9, 9, .w1c, .live⟩, ⟨8, 8, .w1c, .live⟩, ⟨1, 0, .ro, .live⟩]⟩,
  ⟨.ES_FRAMES, 0x20411028, [⟨0x200, 0, 12⟩], 0x00000000,
    [⟨31, 16, .ro, .live⟩, ⟨15, 0, .ro, .live⟩]⟩,
  ⟨.ES_DEBT, 0x2041102C, [⟨0x200, 0, 12⟩], 0x00000000,
    [⟨31, 26, .ro, .live⟩, ⟨25, 0, .ro, .live⟩]⟩,
  ⟨.ES_STAMP_LO, 0x20411030, [⟨0x200, 0, 12⟩], 0x00000000,
    [⟨31, 0, .ro, .live⟩]⟩,
  ⟨.ES_STAMP_HI, 0x20411034, [⟨0x200, 0, 12⟩], 0x00000000,
    [⟨15, 0, .ro, .live⟩]⟩,
  ⟨.ES_OUT_LEVEL, 0x20411038, [⟨0x200, 0, 12⟩], 0x00000000,
    [⟨26, 0, .ro, .live⟩]⟩,
  ⟨.ES_ROI_POS, 0x20411040, [⟨0x200, 0, 12⟩, ⟨0x10, 0, 16⟩], 0x00000000,
    [⟨27, 16, .rw, .live⟩, ⟨12, 0, .rw, .live⟩]⟩,
  ⟨.ES_ROI_SIZE, 0x20411044, [⟨0x200, 0, 12⟩, ⟨0x10, 0, 16⟩], 0x00000000,
    [⟨27, 16, .rw, .live⟩, ⟨12, 0, .rw, .live⟩]⟩,
  ⟨.ES_ROI_QP, 0x20411048, [⟨0x200, 0, 12⟩, ⟨0x10, 0, 16⟩], 0x00000033,
    [⟨14, 8, .rw, .live⟩, ⟨5, 0, .rw, .live⟩]⟩]

/-- ENCODER register map (R273, R274). -/
def rowsEncoder : List RegRow := rowsEncoder0

/-- AKNUM register map, part 0 (R303). -/
def rowsAknum0 : List RegRow := [
  ⟨.AK_CTRL, 0x20500000, [], 0x00000004,
    [⟨2, 2, .rw, .live⟩, ⟨1, 1, .w1s, .live⟩, ⟨0, 0, .w1s, .live⟩]⟩,
  ⟨.AK_STATUS, 0x20500004, [], 0x00000000,
    [⟨31, 31, .ro, .live⟩, ⟨30, 30, .ro, .live⟩, ⟨20, 16, .ro, .live⟩, ⟨10, 8, .ro, .live⟩, ⟨3, 0, .ro, .live⟩]⟩,
  ⟨.AK_CFG, 0x20500008, [], 0x0A140014,
    [⟨31, 24, .rw, .live⟩, ⟨23, 16, .rw, .live⟩, ⟨15, 0, .rw, .live⟩]⟩,
  ⟨.AK_LANE_CFG, 0x2050000C, [], 0x00000608,
    [⟨11, 8, .rw, .live⟩, ⟨7, 0, .rw, .live⟩]⟩,
  ⟨.AK_CRED_0, 0x20500010, [], 0x00000000,
    [⟨31, 16, .ro, .live⟩, ⟨15, 0, .ro, .live⟩]⟩,
  ⟨.AK_CRED_1, 0x20500014, [], 0x00000000,
    [⟨31, 16, .ro, .live⟩, ⟨15, 0, .ro, .live⟩]⟩,
  ⟨.AK_SEQ, 0x20500018, [], 0x00000000,
    [⟨27, 16, .ro, .live⟩, ⟨11, 0, .ro, .live⟩]⟩,
  ⟨.AK_CNT_REPLAY, 0x2050001C, [], 0x00000000,
    [⟨31, 16, .ro, .live⟩, ⟨15, 0, .ro, .live⟩]⟩,
  ⟨.AK_CNT_TRAIN, 0x20500020, [], 0x00000000,
    [⟨31, 16, .ro, .live⟩, ⟨15, 0, .ro, .live⟩]⟩,
  ⟨.AK_ERR_LOG, 0x20500024, [], 0x00000000,
    [⟨31, 28, .ro, .live⟩, ⟨27, 24, .ro, .live⟩, ⟨23, 22, .ro, .live⟩, ⟨11, 0, .ro, .live⟩]⟩,
  ⟨.AK_INJ, 0x20500028, [], 0x00000000,
    [⟨21, 21, .w1s, .live⟩, ⟨20, 16, .rw, .live⟩, ⟨4, 4, .w1s, .live⟩, ⟨3, 3, .w1s, .live⟩, ⟨2, 2, .w1s, .live⟩, ⟨1, 1, .w1s, .live⟩, ⟨0, 0, .w1s, .live⟩]⟩]

/-- AKNUM register map (R303). -/
def rowsAknum : List RegRow := rowsAknum0

/-- AKLANE register map, part 0 (R303). -/
def rowsAklane0 : List RegRow := [
  ⟨.LN_STATUS, 0x20510000, [⟨0x20, 0, 20⟩], 0x001F0000,
    [⟨31, 31, .w1c, .live⟩, ⟨28, 24, .ro, .live⟩, ⟨20, 16, .ro, .live⟩, ⟨1, 0, .ro, .live⟩]⟩,
  ⟨.LN_ERR, 0x20510004, [⟨0x20, 0, 20⟩], 0x00000000,
    [⟨31, 16, .ro, .live⟩, ⟨15, 0, .ro, .live⟩]⟩,
  ⟨.LN_EQ, 0x20510008, [⟨0x20, 0, 20⟩], 0x00000804,
    [⟨15, 8, .ro, .live⟩, ⟨7, 0, .ro, .live⟩]⟩]

/-- AKLANE register map (R303). -/
def rowsAklane : List RegRow := rowsAklane0

/-- CAGAN register map, part 0 (R322). -/
def rowsCagan0 : List RegRow := [
  ⟨.CG_CTRL, 0x20600000, [⟨0x1000, 0, 12⟩], 0x00000000,
    [⟨0, 0, .w1s, .live⟩]⟩,
  ⟨.CG_RATE, 0x20600004, [⟨0x1000, 0, 12⟩], 0x00000003,
    [⟨1, 0, .rw, .frame⟩]⟩,
  ⟨.CG_STATUS, 0x20600008, [⟨0x1000, 0, 12⟩], 0x00000000,
    [⟨11, 11, .ro, .live⟩, ⟨10, 8, .ro, .live⟩, ⟨6, 6, .ro, .live⟩, ⟨5, 4, .ro, .live⟩, ⟨3, 0, .ro, .live⟩]⟩,
  ⟨.CG_CAPS, 0x2060000C, [⟨0x1000, 0, 12⟩], 0x00000000,
    [⟨28, 16, .ro, .live⟩, ⟨10, 8, .ro, .live⟩, ⟨5, 5, .ro, .live⟩, ⟨4, 4, .ro, .live⟩, ⟨3, 0, .ro, .live⟩]⟩,
  ⟨.CG_CAPS2, 0x20600010, [⟨0x1000, 0, 12⟩], 0x00000000,
    [⟨31, 16, .ro, .live⟩, ⟨11, 0, .ro, .live⟩]⟩,
  ⟨.CG_EQ_0, 0x20600014, [⟨0x1000, 0, 12⟩], 0x00000A02,
    [⟨15, 8, .ro, .live⟩, ⟨7, 0, .ro, .live⟩]⟩,
  ⟨.CG_EQ_1, 0x20600018, [⟨0x1000, 0, 12⟩], 0x00000A02,
    [⟨15, 8, .ro, .live⟩, ⟨7, 0, .ro, .live⟩]⟩,
  ⟨.CG_ERR, 0x2060001C, [⟨0x1000, 0, 12⟩], 0x00000000,
    [⟨31, 16, .ro, .live⟩, ⟨15, 0, .ro, .live⟩]⟩,
  ⟨.CG_CFG, 0x20600020, [⟨0x1000, 0, 12⟩], 0x00000610,
    [⟨11, 8, .rw, .live⟩, ⟨7, 0, .rw, .live⟩]⟩,
  ⟨.CG_BW, 0x20600024, [⟨0x1000, 0, 12⟩], 0x00000000,
    [⟨31, 16, .ro, .live⟩, ⟨15, 0, .ro, .live⟩]⟩,
  ⟨.CG_INJ, 0x20600028, [⟨0x1000, 0, 12⟩], 0x00000000,
    [⟨3, 3, .w1s, .live⟩, ⟨2, 2, .w1s, .live⟩, ⟨1, 1, .w1s, .live⟩, ⟨0, 0, .w1s, .live⟩]⟩]

/-- CAGAN register map (R322). -/
def rowsCagan : List RegRow := rowsCagan0

/-- CLOCK register map, part 0 (R342). -/
def rowsClock0 : List RegRow := [
  ⟨.CLK_STATUS, 0x20700000, [], 0x00000000,
    [⟨18, 18, .ro, .live⟩, ⟨17, 17, .ro, .live⟩, ⟨16, 16, .ro, .live⟩, ⟨14, 0, .ro, .live⟩]⟩,
  ⟨.CLK_LOCKMON, 0x20700004, [], 0x80007000,
    [⟨31, 31, .rwl, .live⟩, ⟨14, 0, .rwl, .live⟩]⟩,
  ⟨.CLK_INJ, 0x20700008, [], 0x00000000,
    [⟨10, 10, .w1s, .live⟩, ⟨9, 9, .w1s, .live⟩, ⟨8, 8, .w1s, .live⟩, ⟨3, 0, .rw, .live⟩]⟩,
  ⟨.CLK_ERR_INFO, 0x2070000C, [], 0x00000000,
    [⟨19, 16, .ro, .live⟩, ⟨7, 0, .ro, .live⟩]⟩,
  ⟨.PLL_CTRL, 0x20700100, [⟨0x20, 0, 15⟩], 0x00000001,
    [⟨2, 2, .w1s, .live⟩, ⟨0, 0, .rw, .live⟩]⟩,
  ⟨.PLL_CEIL, 0x20700104, [⟨0x20, 0, 15⟩], 0x0000041A,
    [⟨10, 0, .rw, .live⟩]⟩,
  ⟨.PLL_SEED, 0x20700108, [⟨0x20, 0, 15⟩], 0x00000000,
    [⟨22, 0, .rw, .live⟩]⟩,
  ⟨.PLL_STATUS, 0x2070010C, [⟨0x20, 0, 15⟩], 0x00000000,
    [⟨31, 16, .ro, .live⟩, ⟨13, 8, .ro, .live⟩, ⟨3, 3, .ro, .live⟩, ⟨2, 0, .ro, .live⟩]⟩,
  ⟨.PLL_N, 0x20700110, [⟨0x20, 0, 15⟩], 0x00000000,
    [⟨31, 24, .ro, .live⟩, ⟨23, 0, .ro, .live⟩]⟩,
  ⟨.PLL_TARGET, 0x20700114, [⟨0x20, 0, 15⟩], 0x00000000,
    [⟨31, 0, .ro, .live⟩]⟩,
  ⟨.PLL_MEAS, 0x20700118, [⟨0x20, 0, 15⟩], 0x00000000,
    [⟨31, 0, .ro, .live⟩]⟩,
  ⟨.PLL_SSC, 0x2070011C, [⟨0x20, 0, 15⟩], 0x00000300,
    [⟨31, 31, .rw, .static⟩, ⟨16, 16, .ro, .static⟩, ⟨15, 8, .rw, .static⟩, ⟨3, 0, .rw, .static⟩]⟩]

/-- CLOCK register map (R342). -/
def rowsClock : List RegRow := rowsClock0

/-- INTC register map, part 0 (R365). -/
def rowsIntc0 : List RegRow := [
  ⟨.INTC_INJ, 0x20800020, [], 0x00000000,
    [⟨6, 4, .rw, .live⟩, ⟨2, 2, .w1s, .live⟩, ⟨1, 1, .w1s, .live⟩, ⟨0, 0, .w1s, .live⟩]⟩,
  ⟨.SRC_PEND, 0x20800100, [⟨0x4, 0, 8⟩], 0x00000000,
    [⟨31, 0, .w1s, .live⟩]⟩,
  ⟨.SRC_UNPEND, 0x20800120, [⟨0x4, 0, 8⟩], 0x00000000,
    [⟨31, 0, .wo, .live⟩]⟩,
  ⟨.SRC_ACTIVE, 0x20800140, [⟨0x4, 0, 8⟩], 0x00000000,
    [⟨31, 0, .ro, .live⟩]⟩,
  ⟨.REC_SEL, 0x20800200, [], 0x00000000,
    [⟨7, 0, .rw, .live⟩]⟩,
  ⟨.REC_STAT, 0x20800204, [], 0x00000000,
    [⟨20, 16, .ro, .live⟩, ⟨15, 0, .ro, .live⟩]⟩,
  ⟨.REC_D0, 0x20800208, [], 0x00000000,
    [⟨31, 0, .ro, .live⟩]⟩,
  ⟨.REC_D1, 0x2080020C, [], 0x00000000,
    [⟨31, 0, .ro, .live⟩]⟩,
  ⟨.REC_D2, 0x20800210, [], 0x00000000,
    [⟨31, 0, .ro, .live⟩]⟩,
  ⟨.MBOX_RING, 0x20800214, [], 0x00000000,
    [⟨7, 0, .w1s, .live⟩]⟩,
  ⟨.MOD, 0x20800300, [⟨0x4, 1, 15⟩], 0x00000000,
    [⟨15, 0, .rw, .live⟩]⟩,
  ⟨.SRC_CFG, 0x20800400, [⟨0x4, 0, 256⟩], 0x00000000,
    [⟨31, 31, .rw, .live⟩, ⟨27, 24, .rw, .live⟩, ⟨23, 22, .ro, .live⟩, ⟨15, 8, .rw, .live⟩, ⟨3, 0, .rw, .live⟩]⟩,
  ⟨.TGT_CLAIM, 0x20800800, [⟨0x20, 0, 8⟩], 0x000003FF,
    [⟨9, 0, .ro, .live⟩]⟩,
  ⟨.TGT_EOI, 0x20800804, [⟨0x20, 0, 8⟩], 0x00000000,
    [⟨7, 0, .wo, .live⟩]⟩,
  ⟨.TGT_STATE, 0x20800808, [⟨0x20, 0, 8⟩], 0x03FF0000,
    [⟨25, 16, .ro, .live⟩, ⟨11, 11, .w1c, .live⟩, ⟨10, 10, .ro, .live⟩, ⟨9, 9, .ro, .live⟩, ⟨8, 4, .ro, .live⟩, ⟨3, 0, .ro, .live⟩]⟩,
  ⟨.TGT_VBASE, 0x2080080C, [⟨0x20, 0, 8⟩], 0x30000000,
    [⟨31, 12, .rw, .live⟩]⟩,
  ⟨.HQ_CFG, 0x20800810, [⟨0x20, 0, 8⟩], 0x00000040,
    [⟨8, 0, .rw, .live⟩]⟩,
  ⟨.HQ_ACK, 0x20800814, [⟨0x20, 0, 8⟩], 0x00000000,
    [⟨15, 0, .rw, .live⟩]⟩,
  ⟨.HQ_STATUS, 0x20800818, [⟨0x20, 0, 8⟩], 0x00000000,
    [⟨31, 16, .ro, .live⟩, ⟨8, 0, .ro, .live⟩]⟩]

/-- INTC register map (R365). -/
def rowsIntc : List RegRow := rowsIntc0

/-- FAULT register map, part 0 (R455). -/
def rowsFault0 : List RegRow := [
  ⟨.FC_STATUS, 0x20900000, [], 0x00000000,
    [⟨31, 31, .ro, .live⟩, ⟨30, 30, .ro, .live⟩, ⟨29, 29, .ro, .live⟩, ⟨28, 28, .w1c, .live⟩, ⟨2, 2, .ro, .live⟩, ⟨1, 1, .ro, .live⟩, ⟨0, 0, .ro, .live⟩]⟩,
  ⟨.FC_CFG, 0x20900004, [], 0x00003C00,
    [⟨30, 17, .rwl, .live⟩, ⟨15, 8, .rwl, .live⟩, ⟨0, 0, .rwl, .live⟩]⟩,
  ⟨.FC_WDT, 0x20900008, [], 0x0064000A,
    [⟨23, 16, .rwl, .live⟩, ⟨7, 0, .rwl, .live⟩]⟩,
  ⟨.FC_KICK, 0x2090000C, [], 0x00000000,
    [⟨15, 0, .wo, .live⟩]⟩,
  ⟨.FC_SCKICK, 0x20900010, [], 0x00000000,
    [⟨1, 0, .w1s, .live⟩]⟩,
  ⟨.FC_CLEAR, 0x20900014, [], 0x00000000,
    [⟨15, 0, .wo, .live⟩]⟩,
  ⟨.FC_FIRST, 0x20900018, [], 0x00000000,
    [⟨31, 31, .w1c, .live⟩, ⟨30, 30, .ro, .live⟩, ⟨29, 29, .ro, .live⟩, ⟨25, 24, .ro, .live⟩, ⟨15, 0, .ro, .live⟩]⟩,
  ⟨.FC_FIRST_STAMP_LO, 0x2090001C, [], 0x00000000,
    [⟨31, 0, .ro, .live⟩]⟩,
  ⟨.FC_FIRST_STAMP_HI, 0x20900020, [], 0x00000000,
    [⟨15, 0, .ro, .live⟩]⟩,
  ⟨.FC_IRQ_EN, 0x20900024, [], 0x00007FFE,
    [⟨14, 1, .rw, .live⟩]⟩,
  ⟨.FC_LOG_SEL, 0x20900028, [], 0x00000000,
    [⟨4, 0, .rw, .live⟩]⟩,
  ⟨.FC_LOG_INFO, 0x2090002C, [], 0x00000000,
    [⟨31, 31, .ro, .live⟩, ⟨30, 30, .ro, .live⟩, ⟨25, 24, .ro, .live⟩, ⟨15, 0, .ro, .live⟩]⟩,
  ⟨.FC_LOG_STAMP, 0x20900030, [], 0x00000000,
    [⟨31, 0, .ro, .live⟩]⟩,
  ⟨.FC_LOG_CNT, 0x20900034, [], 0x00000000,
    [⟨15, 0, .ro, .live⟩]⟩,
  ⟨.FC_INJ, 0x20900038, [], 0x00000000,
    [⟨18, 18, .rw, .live⟩, ⟨17, 16, .rw, .live⟩, ⟨15, 12, .rw, .live⟩, ⟨10, 10, .w1s, .live⟩, ⟨9, 9, .w1s, .live⟩, ⟨8, 8, .w1s, .live⟩, ⟨7, 7, .w1s, .live⟩, ⟨6, 6, .w1s, .live⟩, ⟨5, 5, .w1s, .live⟩, ⟨4, 4, .w1s, .live⟩, ⟨3, 3, .w1s, .live⟩, ⟨2, 2, .w1s, .live⟩, ⟨1, 1, .w1s, .live⟩, ⟨0, 0, .w1s, .live⟩]⟩,
  ⟨.FC_STAT, 0x20900100, [⟨0x4, 1, 14⟩], 0x00000000,
    [⟨31, 16, .ro, .live⟩, ⟨15, 0, .w1c, .live⟩]⟩,
  ⟨.FC_CNT, 0x20900140, [⟨0x4, 1, 14⟩], 0x00000000,
    [⟨31, 16, .ro, .live⟩, ⟨15, 0, .ro, .live⟩]⟩]

/-- FAULT register map (R455). -/
def rowsFault : List RegRow := rowsFault0

/-- POWER register map, part 0 (R416). -/
def rowsPower0 : List RegRow := [
  ⟨.PWR_STATE, 0x20A00000, [], 0x00000001,
    [⟨20, 20, .ro, .live⟩, ⟨18, 16, .ro, .live⟩, ⟨9, 8, .wo, .live⟩, ⟨1, 0, .ro, .live⟩]⟩,
  ⟨.PWR_BUDGET, 0x20A00004, [], 0x000000E0,
    [⟨8, 0, .rw, .live⟩]⟩,
  ⟨.PWR_STATUS, 0x20A00008, [], 0x00E00120,
    [⟨31, 31, .ro, .live⟩, ⟨24, 16, .ro, .live⟩, ⟨8, 0, .ro, .live⟩]⟩,
  ⟨.PWR_HELD, 0x20A0000C, [], 0x00000000,
    [⟨24, 16, .ro, .live⟩, ⟨8, 0, .ro, .live⟩]⟩,
  ⟨.PWR_GRANT, 0x20A00010, [], 0x00000000,
    [⟨31, 24, .ro, .live⟩, ⟨19, 16, .ro, .live⟩, ⟨11, 8, .ro, .live⟩, ⟨3, 0, .ro, .live⟩]⟩,
  ⟨.PWR_BE, 0x20A00014, [], 0x00040808,
    [⟨19, 16, .rw, .live⟩, ⟨11, 8, .rw, .live⟩, ⟨3, 0, .rw, .live⟩]⟩,
  ⟨.TH_CFG, 0x20A00018, [], 0x003C8670,
    [⟨23, 16, .rw, .live⟩, ⟨15, 12, .rw, .live⟩, ⟨11, 8, .rw, .live⟩, ⟨7, 0, .rw, .live⟩]⟩,
  ⟨.TH_MIN, 0x20A0001C, [], 0x00000060,
    [⟨8, 0, .rw, .live⟩]⟩,
  ⟨.TH_STATUS, 0x20A00020, [], 0x00000000,
    [⟨31, 16, .ro, .live⟩, ⟨3, 0, .ro, .live⟩]⟩,
  ⟨.TH_VALID, 0x20A00024, [], 0x0000FFFF,
    [⟨15, 0, .ro, .live⟩]⟩,
  ⟨.TH_SENSOR, 0x20A00040, [⟨0x4, 0, 16⟩], 0x00000000,
    [⟨15, 0, .ro, .live⟩]⟩,
  ⟨.AVS_CFG, 0x20A00080, [], 0x14502800,
    [⟨31, 24, .rw, .live⟩, ⟨23, 16, .rw, .live⟩, ⟨15, 8, .rw, .live⟩, ⟨3, 0, .rw, .live⟩]⟩,
  ⟨.AVS_STATUS, 0x20A00084, [], 0x000002EE,
    [⟨31, 24, .ro, .live⟩, ⟨21, 12, .ro, .live⟩, ⟨9, 0, .ro, .live⟩]⟩,
  ⟨.PWR_INJ, 0x20A00088, [], 0x00000000,
    [⟨11, 8, .rw, .live⟩, ⟨4, 4, .w1s, .live⟩, ⟨3, 3, .w1s, .live⟩, ⟨2, 2, .w1s, .live⟩, ⟨1, 1, .w1s, .live⟩, ⟨0, 0, .w1s, .live⟩]⟩,
  ⟨.PWR_ERR_INFO, 0x20A0008C, [], 0x00000000,
    [⟨7, 0, .ro, .live⟩]⟩]

/-- POWER register map (R416). -/
def rowsPower : List RegRow := rowsPower0

/-- EMBER register map, part 0 (R417). -/
def rowsEmber0 : List RegRow := [
  ⟨.EMB_STATUS, 0x20B00000, [], 0x00000000,
    [⟨9, 9, .w1c, .live⟩, ⟨8, 8, .w1c, .live⟩, ⟨4, 4, .ro, .live⟩, ⟨1, 0, .ro, .live⟩]⟩,
  ⟨.EMB_WAKE_MASK, 0x20B00004, [], 0x00000007,
    [⟨5, 0, .rw, .live⟩]⟩,
  ⟨.EMB_WAKE_SEEN, 0x20B00008, [], 0x00000000,
    [⟨5, 0, .ro, .live⟩]⟩,
  ⟨.EMB_TIMER, 0x20B0000C, [], 0x00000000,
    [⟨31, 0, .ro, .live⟩]⟩,
  ⟨.EMB_TIMER_CMP, 0x20B00010, [], 0xFFFFFFFF,
    [⟨31, 0, .rw, .live⟩]⟩,
  ⟨.EMB_FILTER, 0x20B00014, [], 0x00000501,
    [⟨16, 16, .rw, .live⟩, ⟨15, 8, .rw, .live⟩, ⟨7, 0, .rw, .live⟩]⟩,
  ⟨.EMB_SCRATCH, 0x20B00020, [⟨0x4, 0, 4⟩], 0x00000000,
    [⟨31, 0, .rw, .live⟩]⟩]

/-- EMBER register map (R417). -/
def rowsEmber : List RegRow := rowsEmber0

/-- OD register map, part 0 (R394). -/
def rowsOd0 : List RegRow := [
  ⟨.OD_CTRL, 0x20C00000, [], 0x00002117,
    [⟨14, 8, .rwl, .static⟩, ⟨4, 4, .rwl, .static⟩, ⟨3, 3, .rwl, .static⟩, ⟨2, 1, .rwl, .static⟩, ⟨0, 0, .rwl, .live⟩]⟩,
  ⟨.OD_STATUS, 0x20C00004, [], 0x00000000,
    [⟨5, 5, .ro, .live⟩, ⟨4, 4, .ro, .live⟩, ⟨3, 1, .ro, .live⟩, ⟨0, 0, .ro, .live⟩]⟩,
  ⟨.OD_ID, 0x20C00008, [], 0x00C900C8,
    [⟨26, 16, .rwl, .static⟩, ⟨10, 0, .rwl, .static⟩]⟩,
  ⟨.OD_ID29, 0x20C0000C, [], 0x00000000,
    [⟨17, 0, .rwl, .static⟩]⟩,
  ⟨.OD_SF_CFG, 0x20C00010, [], 0x00641401,
    [⟨31, 16, .rw, .live⟩, ⟨15, 8, .rw, .live⟩, ⟨0, 0, .rw, .live⟩]⟩,
  ⟨.OD_AUTH_CFG, 0x20C00014, [], 0x00003210,
    [⟨14, 12, .rwl, .static⟩, ⟨10, 8, .rwl, .static⟩, ⟨6, 4, .rwl, .static⟩, ⟨2, 0, .rwl, .static⟩]⟩,
  ⟨.OD_FLOOR, 0x20C00018, [⟨0x4, 0, 3⟩], 0x00000000,
    [⟨31, 0, .ro, .live⟩]⟩,
  ⟨.OD_AUTH_STAT, 0x20C00024, [], 0x00000000,
    [⟨31, 24, .ro, .live⟩, ⟨23, 12, .ro, .live⟩, ⟨11, 0, .ro, .live⟩]⟩,
  ⟨.OD_SKEW, 0x20C00028, [], 0x00000000,
    [⟨31, 16, .ro, .live⟩, ⟨4, 0, .ro, .live⟩]⟩,
  ⟨.OD_INJ, 0x20C0002C, [], 0x00000000,
    [⟨3, 3, .w1s, .live⟩, ⟨2, 2, .w1s, .live⟩, ⟨1, 1, .w1s, .live⟩, ⟨0, 0, .w1s, .live⟩]⟩,
  ⟨.OD_ERR_INFO, 0x20C00030, [], 0x00000000,
    [⟨17, 16, .ro, .live⟩, ⟨7, 0, .ro, .live⟩]⟩,
  ⟨.CAN_NBT, 0x20C00100, [⟨0x40, 0, 2⟩], 0x203F2001,
    [⟨31, 25, .rwl, .live⟩, ⟨24, 16, .rwl, .live⟩, ⟨15, 9, .rwl, .live⟩, ⟨8, 0, .rwl, .live⟩]⟩,
  ⟨.CAN_DBT, 0x20C00104, [⟨0x40, 0, 2⟩], 0x081F0800,
    [⟨27, 24, .rwl, .live⟩, ⟨20, 16, .rwl, .live⟩, ⟨11, 8, .rwl, .live⟩, ⟨4, 0, .rwl, .live⟩]⟩,
  ⟨.CAN_TDC, 0x20C00108, [⟨0x40, 0, 2⟩], 0x00002001,
    [⟨15, 8, .rwl, .live⟩, ⟨0, 0, .rwl, .live⟩]⟩,
  ⟨.CAN_STATUS, 0x20C0010C, [⟨0x40, 0, 2⟩], 0x00000000,
    [⟨31, 24, .ro, .live⟩, ⟨23, 16, .ro, .live⟩, ⟨15, 8, .ro, .live⟩, ⟨1, 0, .ro, .live⟩]⟩,
  ⟨.CAN_CNT, 0x20C00110, [⟨0x40, 0, 2⟩], 0x00000000,
    [⟨31, 16, .ro, .live⟩, ⟨15, 0, .ro, .live⟩]⟩,
  ⟨.OWN, 0x20C00200, [⟨0x4, 0, 17⟩], 0x00000000,
    [⟨31, 16, .ro, .live⟩, ⟨13, 12, .rw, .live⟩, ⟨9, 8, .wo, .live⟩, ⟨5, 4, .ro, .live⟩, ⟨1, 0, .ro, .live⟩]⟩]

/-- OD register map (R394). -/
def rowsOd : List RegRow := rowsOd0

/-- SECURITY register map, part 0 (R470). -/
def rowsSecurity0 : List RegRow := [
  ⟨.SEC_STATUS, 0x20D00000, [], 0x00000000,
    [⟨28, 28, .ro, .live⟩, ⟨27, 26, .ro, .live⟩, ⟨25, 24, .ro, .live⟩, ⟨22, 16, .ro, .live⟩, ⟨12, 12, .ro, .live⟩, ⟨11, 10, .ro, .live⟩, ⟨4, 4, .ro, .live⟩, ⟨2, 0, .ro, .live⟩]⟩,
  ⟨.SEC_LC, 0x20D00004, [], 0x00000000,
    [⟨31, 16, .wo, .live⟩, ⟨1, 0, .wo, .live⟩]⟩,
  ⟨.SEC_DBG_CTRL, 0x20D00008, [], 0x00000000,
    [⟨2, 2, .w1s, .live⟩, ⟨1, 1, .w1s, .live⟩, ⟨0, 0, .w1s, .live⟩]⟩,
  ⟨.SEC_DBG_CHAL, 0x20D00010, [⟨0x4, 0, 4⟩], 0x00000000,
    [⟨31, 0, .ro, .live⟩]⟩,
  ⟨.SEC_DBG_RESP, 0x20D00020, [⟨0x4, 0, 4⟩], 0x00000000,
    [⟨31, 0, .wo, .live⟩]⟩,
  ⟨.SEC_KEY_STATE, 0x20D00030, [], 0x00000000,
    [⟨19, 18, .ro, .live⟩, ⟨17, 16, .ro, .live⟩, ⟨1, 0, .ro, .live⟩, ⟨3, 2, .ro, .live⟩, ⟨5, 4, .ro, .live⟩, ⟨7, 6, .ro, .live⟩, ⟨9, 8, .ro, .live⟩, ⟨11, 10, .ro, .live⟩, ⟨13, 12, .ro, .live⟩, ⟨15, 14, .ro, .live⟩]⟩,
  ⟨.SEC_KEY_DATA, 0x20D00040, [⟨0x4, 0, 4⟩], 0x00000000,
    [⟨31, 0, .wo, .live⟩]⟩,
  ⟨.SEC_KEY_CMD, 0x20D00050, [], 0x00000000,
    [⟨23, 20, .ro, .live⟩, ⟨18, 18, .w1c, .live⟩, ⟨17, 17, .ro, .live⟩, ⟨16, 16, .ro, .live⟩, ⟨10, 8, .rw, .live⟩, ⟨2, 0, .rw, .live⟩]⟩,
  ⟨.SEC_CPK_DATA, 0x20D00060, [⟨0x4, 0, 8⟩], 0x00000000,
    [⟨31, 0, .wo, .live⟩]⟩,
  ⟨.SEC_RECOVER_LEN, 0x20D00080, [], 0x00000000,
    [⟨26, 0, .rw, .live⟩]⟩,
  ⟨.SEC_RECOVER, 0x20D00084, [], 0x00000000,
    [⟨7, 4, .ro, .live⟩, ⟨2, 2, .ro, .live⟩, ⟨1, 1, .ro, .live⟩, ⟨0, 0, .w1s, .live⟩]⟩]

/-- SECURITY register map (R470). -/
def rowsSecurity : List RegRow := rowsSecurity0

/-- The indices that make `off` (an offset from a register's base address) an instance of the register, outermost first. -/
def matchDims : List RegDim → Nat → Option (List Nat)
  | [], off => if off = 0 then some [] else none
  | d :: ds, off =>
    let i := off / d.stride
    if d.first ≤ i ∧ i < d.first + d.count then (matchDims ds (off % d.stride)).map (i :: ·) else none

/-- The row of a block that holds address `a`, with the indices of the instance. -/
def findRow : List RegRow → Nat → Option (RegRow × List Nat)
  | [], _ => none
  | r :: rs, a =>
    if r.base ≤ a then
      match matchDims r.dims (a - r.base) with
      | some is => some (r, is)
      | none => findRow rs a
    else findRow rs a

/-- The register block whose extent holds address `a` (Table 20.2, R473); `none` outside every extent. -/
def blockRows (a : Nat) : Option (List RegRow) :=
  if a < 0x20000000 then none
  else if a < 0x20010000 then some rowsGlobal
  else if a < 0x20020000 then some rowsOrbit
  else if a < 0x20030000 then some rowsHearth
  else if a < 0x20100000 then none
  else if a < 0x201C0000 then some rowsPipe
  else if a < 0x201F0000 then none
  else if a < 0x20200000 then some rowsScan
  else if a < 0x20210000 then some rowsBeacon
  else if a < 0x20300000 then none
  else if a < 0x20310000 then some rowsDma
  else if a < 0x20317000 then some rowsDmach
  else if a < 0x20400000 then none
  else if a < 0x20410000 then some rowsDecoder
  else if a < 0x20420000 then some rowsEncoder
  else if a < 0x20500000 then none
  else if a < 0x20510000 then some rowsAknum
  else if a < 0x20520000 then some rowsAklane
  else if a < 0x20600000 then none
  else if a < 0x2060C000 then some rowsCagan
  else if a < 0x20700000 then none
  else if a < 0x20710000 then some rowsClock
  else if a < 0x20800000 then none
  else if a < 0x20810000 then some rowsIntc
  else if a < 0x20900000 then none
  else if a < 0x20910000 then some rowsFault
  else if a < 0x20A00000 then none
  else if a < 0x20A10000 then some rowsPower
  else if a < 0x20B00000 then none
  else if a < 0x20B10000 then some rowsEmber
  else if a < 0x20C00000 then none
  else if a < 0x20C10000 then some rowsOd
  else if a < 0x20D00000 then none
  else if a < 0x20D10000 then some rowsSecurity
  else none

/-- The register at address `a`, if the maps list one. -/
@[irreducible] def regAt (a : Nat) : Option (RegRow × List Nat) :=
  match blockRows a with
  | some rows => findRow rows a
  | none => none

/-- The sensing mode of interrupt source `n` (Table 14.1, Table 15.11): 0 LEVEL, 1 EDGE, 2 EVENT; reserved sources read 0. -/
def srcMode (n : Nat) : Nat :=
  if n ≤ 135 then 2
  else if n ≤ 147 then 0
  else if n ≤ 175 then 2
  else if n ≤ 183 then 1
  else if n ≤ 185 then 2
  else if n ≤ 194 then 0
  else if n ≤ 199 then 0
  else if n ≤ 201 then 0
  else if n = 202 then 2
  else if n = 203 then 0
  else if n = 204 then 1
  else if n ≤ 207 then 0
  else if n ≤ 221 then 1
  else if n ≤ 223 then 0
  else 1

/-- Depth of the record FIFO of source `n` (Table 14.1); 0 where the source is no EVENT source. -/
def srcDepth (n : Nat) : Nat :=
  if srcMode n = 2 then (if 112 ≤ n ∧ n ≤ 123 then 16 else 8) else 0

/-- The owner after reset of unit `u` (Table 01.4), in the encoding 0 NONE, 1 HOST, 2 VEHICLE, 3 FIRMWARE: pipes 0-11 NONE,
12 Beacon FIRMWARE, 13 cluster NONE (raised by Kindling where the flash configures it), 14 decoder and 15 encoder NONE,
16 power policy FIRMWARE. -/
def ownReset (u : Nat) : Nat := if u = 12 ∨ u = 16 then 3 else 0

/-- The reset value of the register at address `a` (R481). The registers whose map gives a rule in place of a number
follow that rule: SRC_CFG (Table 14.1), PLL_SEED, OWN (Table 01.4), SEC_KEY_STATE (slot 7 is VALID, R463). -/
@[irreducible] def regReset (a : Nat) : Word :=
  match regAt a with
  | some (r, is) =>
    match r.name, is with
    | .SRC_CFG, [n] => BitVec.ofNat 32 (srcMode n * 0x400000)
    | .PLL_SEED, [i] => BitVec.ofNat 32 ((i + 1) * 0x10001)
    | .OWN, [u] => BitVec.ofNat 32 (ownReset u)
    | .SEC_KEY_STATE, _ => 0x4000#32
    | .TGT_VBASE, [t] => if t < 4 then 0x30000000#32 else 0#32
    | .HQ_CFG, [t] => if 4 ≤ t then 0x40#32 else 0#32
    | _, _ => BitVec.ofNat 32 r.reset
  | none => 0#32

end Sys2Proof.Machine
end

