-- ==== Sys2Proof/Machine/SMap.lean ====
section
/-! DEFINITION. Sparse tables as plain data: a list of (key, value) pairs with strictly rising keys and no entry equal to what an
unlisted key reads as. Registers, Hearth, the service SRAM and every numbered unit of the device are held in this one form. -/
namespace Sys2Proof.Machine

/-- A sparse table from numbers to `α`. What an unlisted key reads as is given at each access. -/
abbrev SMap (α : Type) := List (Nat × α)

/-- The value at key `k`; `d` where the table lists none. -/
def SMap.get {α : Type} (d : α) : List (Nat × α) → Nat → α
  | [], _ => d
  | (k', v) :: m, k => if k = k' then v else SMap.get d m k

/-- The table without key `k`. -/
def SMap.erase {α : Type} (m : List (Nat × α)) (k : Nat) : List (Nat × α) := m.filter fun e => e.1 != k

/-- The table with `v` listed at key `k`, keys in rising order. -/
def SMap.insert {α : Type} : List (Nat × α) → Nat → α → List (Nat × α)
  | [], k, v => [(k, v)]
  | (k', v') :: m, k, v =>
    if k < k' then (k, v) :: (k', v') :: m
    else if k = k' then (k, v) :: m
    else (k', v') :: SMap.insert m k v

/-- The table with `v` at key `k`, in the canonical form: keys stay in rising order, and a value equal to `d`, what the
unlisted key reads as, removes the entry. -/
def SMap.set {α : Type} [DecidableEq α] (d : α) (m : List (Nat × α)) (k : Nat) (v : α) : List (Nat × α) :=
  if v = d then SMap.erase m k else SMap.insert m k v

/-- Every key of the list lies above `lo`, keys rise strictly and no entry equals what its key reads as unlisted. -/
def SMap.wfFrom {α : Type} [DecidableEq α] (d : Nat → α) : Option Nat → List (Nat × α) → Bool
  | _, [] => true
  | lo, (k, v) :: m =>
    (match lo with
      | none => true
      | some l => decide (l < k)) && decide (v ≠ d k) && SMap.wfFrom d (some k) m

/-- The canonical form. -/
def SMap.wf {α : Type} [DecidableEq α] (d : Nat → α) (m : List (Nat × α)) : Bool := SMap.wfFrom d none m

end Sys2Proof.Machine
end

