-- ==== Sys2Proof/Machine/State.lean ====
section
/-! DEFINITION. The state of the TD96 as plain data. Registers are held in one sparse table keyed by device address (what an
unlisted address reads as is its reset value); beside it stand the parts of the device that no register shows whole: layer
states and pending commits, handles and Hearth contents, queues, record FIFOs, sessions, link buffers, keys and pins. -/
namespace Sys2Proof.Machine

/-- Reasons a command can stop the model with a fault. No meaning raises one: every command of the table has an effect in the
spec. The constructor stands for an internal contradiction and is safe. -/
inductive Fault where
  /-- Never raised. Safe. -/
  | impossible
  deriving DecidableEq, Repr

/-- Reasons a command has no meaning. -/
inductive Refusal where
  /-- The command has no meaning in this model yet; raised by `exec` only. Safe. -/
  | notModelled (mnemonic : String)
  deriving DecidableEq, Repr

/-! ### Interrupt controller (R343–R364) -/

/-- A 12-byte record of an EVENT source (R345). -/
structure EvRec where
  code : Nat
  unit : Nat
  stamp : Nat
  arg : Nat
  deriving DecidableEq, Repr

/-- One interrupt source (R343, R348): pending and active flags, the target that holds its claim, the level of its input, whether
the input was seen de-asserted since the claim, its record FIFO (oldest first), LOST and the loss mark of R359, whether its
configuration failed parity (Table 14.6) and whether its next record read meets an injected stored double error. -/
structure Src where
  pend : Bool := false
  active : Bool := false
  tgt : Nat := 0
  input : Bool := false
  low : Bool := false
  fifo : List EvRec := []
  lost : Nat := 0
  lostMsg : Bool := false
  parBad : Bool := false
  deriving DecidableEq, Repr

/-- One interrupt target (R350, R356, R361): its priority stack, top first, as (vector, priority); whether its core reports
idle; whether its core is held in reset; and the moderation groups whose hold-off timer runs. -/
structure Tgt where
  stack : List (Nat × Nat) := []
  idle : Bool := false
  held : Bool := false
  timers : List Nat := []
  deriving DecidableEq, Repr

structure IntcSt where
  srcs : List (Nat × Src) := []
  tgts : List (Nat × Tgt) := []
  deriving DecidableEq, Repr

/-! ### Fault collector (R435–R455) -/

/-- One entry of the fault log (R443). -/
structure LogEntry where
  code : Nat
  cls : FClass
  inj : Bool
  esc : Bool
  stamp : Nat
  deriving DecidableEq, Repr

/-- The collector beside its registers: the log, newest first, at most 32 entries; the full stamp of FC_FIRST; the orbit count at
the last report of each fault code, or at the end of its condition (R440); Glow and the kick check (R444); the service-core
watchdogs (R445); the cores held in reset and halted by DEBUG (R462); the conditions in force of the condition checkers; armed META injections. -/
structure FaultSt where
  log : List LogEntry := []
  firstStamp : Nat := 0
  lastReport : List (Nat × Nat) := []
  glow : Bool := false
  armed : Bool := false
  kicked : Bool := false
  expectSecond : Bool := false
  kickedMc2 : Bool := false
  kickedMc3 : Bool := false
  heldMc2 : Bool := false
  heldMc3 : Bool := false
  halted : List Nat := []
  conds : List Nat := []
  metaInj : Nat := 0
  deriving DecidableEq, Repr

/-! ### Orbit time and commits (R14–R57) -/

/-- A pending commit as one member pipe holds it (R19, R23, R24, R41): its number, tag, target stamp and effective target,
whether T was 0, its policy, its members, the port, whether its group has been released (0 no, 1 every
slot was ready, 2 a STALE_LIMIT was reached), the layer state copied from the
shadows of this pipe, the refresh fixed at acceptance (in millihertz, as a fraction), the frames it has waited, and the matrix writes
counted at its acceptance (R126). -/
structure Pend where
  id : Nat
  tag : Nat
  eff : Nat
  asap : Bool
  allOrHold : Bool
  group : List Nat
  port : Nat
  released : Nat
  img : List (Nat × Word)
  fNum : Nat
  fDen : Nat
  waits : Nat
  mat : Nat
  deriving DecidableEq, Repr

/-- A commit between its GO write and its result (R21): the CP_ registers as captured. -/
structure GoCap where
  pipes : Nat
  target : Nat
  tag : Nat
  allOrHold : Bool
  lateOk : Bool
  testOnly : Bool
  deriving DecidableEq, Repr

/-- A line that a slot has fetched and the pipe has not emitted yet (R47): whether it belongs to the next frame, the line, and the words that
were read for it. -/
structure RunLine where
  ahead : Bool
  line : Nat
  words : List Nat
  deriving DecidableEq, Repr

/-- One layer slot beside its registers: held under R40 with its held-frame count and the slot state it waits for; STALE_ACTION in
force (R42); the action of R74 in force, or due at the next boundary; scalers held; words fetched and culled in the running
statistics window; whether words were skipped in the current frame, and in the last one; its run-ahead lines (R47). -/
structure SlotSt where
  held : Bool := false
  heldFrames : Nat := 0
  wait : List (Nat × Word) := []
  stale : Bool := false
  failed : Bool := false
  failNext : Bool := false
  scalers : Nat := 0
  fetch : Nat := 0
  cull : Nat := 0
  culling : Bool := false
  culled : Bool := false
  run : List RunLine := []
  deriving DecidableEq, Repr

/-- The layer state that the commit line of frame n fixed for frame n + 1 (R38–R42), with the matrix writes of its commit (R126). -/
structure NextState where
  id : Nat
  tag : Option Nat
  img : List (Nat × Word)
  fNum : Nat
  fDen : Nat
  held : List (Nat × List (Nat × Word))
  stale : List Nat
  failed : List Nat
  mat : Nat
  deriving DecidableEq, Repr

/-- A captured writeback frame whose acknowledgements are outstanding (R133): which of the two writer numbers of the pipe wrote it, its
handle and its stamp. -/
structure WbClose where
  par : Nat
  handle : Nat
  stamp : Nat
  deriving DecidableEq, Repr

/-- A writeback writer beside its registers (R132–R135): whether a frame is being captured, under which of its two writer numbers, its handle
and its stamp; the captured frames whose acknowledgements are outstanding, oldest first; frames counted towards DIV, a ONE_SHOT frame still
to begin, and a WB_CTRL value that waits for the frame in progress. -/
structure WbSt where
  capturing : Bool := false
  par : Nat := 0
  closing : List WbClose := []
  handle : Nat := 0
  divCount : Nat := 0
  shots : Nat := 0
  deferred : Option Nat := none
  stamp : Nat := 0
  deriving DecidableEq, Repr

/-- A part of a line that cannot be drawn (R74, Table 18.2): whether it belongs to the next frame, slot, line, and the columns. -/
structure BadSpan where
  ahead : Bool
  slot : Nat
  line : Nat
  x0 : Nat
  x1 : Nat
  deriving DecidableEq, Repr

/-- The Beacon entry in force on a pipe (R141, R142): the entry and the image of its registers. -/
structure BcnForce where
  entry : Nat
  img : List (Nat × Word)
  deriving DecidableEq, Repr

/-- A tell-tale as latched at a Beacon line for one frame (R148, R152): register set, shown code, glyph drawn (none: no glyph), position,
GLYPH_BAD and PLACE_BAD. -/
structure TtShown where
  i : Nat
  code : Nat
  glyph : Option Nat
  x : Nat
  y : Nat
  bad : Bool
  misplaced : Bool
  deriving DecidableEq, Repr

/-- A replaced buffer that is still to be released (R46): its handle, the last line that reads it, and whether its layer was hidden by shed
step 3 when it was replaced, so that its cells return to the free pool (R53). -/
structure Replaced where
  handle : Nat
  line : Nat
  hidden : Bool
  deriving DecidableEq, Repr

/-- A parity bypass of the colour stage (R126): the step (0 pre-LUT, 1 matrix, 2 post-LUT); the LUT bank that it concerns, or the matrix writes
counted when the fault was raised; and whether it still waits for the next frame boundary. -/
structure ClBad where
  step : Nat
  mark : Nat
  due : Bool
  deriving DecidableEq, Repr

/-- One output pipe beside its registers; `clBad` holds the parity bypasses and `matWrites` counts the writes of matrix registers (R126); `ttImg`
holds the tell-tale fields of class F of the frame being emitted, `ttImgNext` those latched for the next (R152, R386). -/
structure PipeSt where
  shown : List (Nat × Word) := []
  fNum : Nat := 0
  fDen : Nat := 1
  pend : List Pend := []
  next : Option NextState := none
  slots : List (Nat × SlotSt) := []
  frameStamp : Nat := 0
  sameStamp : Nat := 0
  boundaryAt : Nat := 0
  nextLine : Nat := 0
  commitDone : Bool := false
  beaconDone : Bool := false
  vExtra : Int := 0
  tailPixels : Int := 0
  startAt : Option Nat := none
  prefetched : Bool := false
  restart : Bool := false
  seqStep : Nat := 0
  pllOk : Bool := false
  trainOk : Bool := false
  blOnIn : Option Nat := none
  holdSent : Bool := false
  holdAck : Bool := false
  wakeNext : Bool := false
  wakeLate : Bool := false
  quietChange : Bool := false
  pwrPin : Bool := false
  blPin : Bool := false
  pwmOn : Bool := false
  pwmDuty : Nat := 0
  spans : List BadSpan := []
  lut : List (Nat × Nat) := []
  coef : List (Nat × Int) := []
  wb : WbSt := {}
  clBad : List ClBad := []
  matWrites : Nat := 0
  bcn : Option BcnForce := none
  bcnNext : Option (Option BcnForce) := none
  ttNow : List TtShown := []
  ttNext : List TtShown := []
  ttImg : Option (List (Nat × Word)) := none
  ttImgNext : Option (List (Nat × Word)) := none
  bcnCrc : Nat := 0xFFFFFFFF
  bcnFlip : Bool := false
  suspect : List Nat := []
  rel : List Replaced := []
  shedVis : List (Nat × Nat) := []
  shedDue : List (Nat × Nat × Bool) := []
  deriving DecidableEq, Repr

/-- A shed step as applied (R55): the layer, the step, and the unfenced channels, inbound lanes and budget in force just before the
change of capacity whose re-run applied it. -/
structure ShedRec where
  layer : Nat
  step : Nat
  ch : Nat
  lanes : Nat
  budget : Nat
  deriving DecidableEq, Repr

/-- Orbit time and admission beside the registers: the stamp (R15); master orbits or grants counted (R440); commits numbered; the shed step of
each LAYER_ID (R54) and the steps in the order applied, last first (R55); the orbits for which the capacities before the earliest step in force
have been regained; whether a step was restored in this orbit; ADMIT_EXHAUSTED in force (R56); commits in admission by port (R21); shadow writes
held while their pipe is in admission (R111); FSYNC_IN: measured period and consecutive return edges (R179, R180); the time of the last master
boundary. -/
structure OrbitSt where
  stamp : Nat := 0
  orbits : Nat := 0
  commits : Nat := 0
  sheds : List (Nat × Nat) := []
  shedOrder : List ShedRec := []
  stable : Nat := 0
  restored : Bool := false
  exhausted : Bool := false
  go : List (Nat × GoCap) := []
  heldWrites : List (Option Origin × Nat × Word) := []
  fsPeriod : Nat := 0
  fsReturn : Nat := 0
  masterAt : Nat := 0
  deriving DecidableEq, Repr

/-! ### Cagan ports and clocks (R303–R342) -/

/-- A Cagan port beside its registers: what makes it send SAFE (bit 0 the safe state, bits 1 to 4 BC_E2E_CFG.ACTION for entries 0 to 3); whether
the training in progress is a retrain from CLOCK; the time of the last retrain; HOLD outstanding; orbit counts of LINE_ERR increases; whether the
link is down after CG_LINK_DOWN; whether a CAPS of this training was accepted; whether the next line meets an uncorrectable FIFO word; whether
the port waits for the next FH after SAFE; whether an injection caused the retrain in progress, the next LINE_ERR increase, and an increase that
counts towards the threshold; FRAME[7:0] of the frame that the receiver holds; and the bits of the last STATUS of this training. -/
structure CgSt where
  safe : Nat := 0
  retraining : Bool := false
  lastRetrain : Option Nat := none
  holdOut : Bool := false
  errs : List Nat := []
  down : Bool := false
  capsOk : Bool := false
  badLine : Bool := false
  waitFh : Bool := false
  retrainInj : Bool := false
  lineInj : Bool := false
  thrInj : Bool := false
  heldFrame : Nat := 0
  status : Nat := 0
  deriving DecidableEq, Repr

/-- A PLL beside its registers: a planned relock (R183), a repeated lock after a loss or failure (R338), the time of the last loss, the
oscillator ceiling in Hz and the seed that the lock took at its start (R327, R332), whether the pipe was stopped by its failure, whether an
injection caused the repeated lock. -/
structure PllSt where
  planned : Bool := false
  retry : Bool := false
  lostAt : Option Nat := none
  ceil : Nat := 0
  seed : Nat := 0
  failed : Bool := false
  retryInj : Bool := false
  deriving DecidableEq, Repr

/-- The clock block: its PLLs, the minimum low time of the LOCKMON pin (R336), REFCLK lost (R340). -/
structure ClkSt where
  plls : List (Nat × PllSt) := []
  lockmonHold : Bool := false
  refLost : Bool := false
  deriving DecidableEq, Repr

/-! ### Power (R397–R434) -/

/-- The arbiter, the throttle and the AVS loop beside their registers: grants since the thermal limit last changed (none: never); grants
in a row without a reading at or above THR − HYST, and whether one was seen since the last grant; AVS periods in a row with a margin
above MHI; armed AVS injections; and the loop stopped by AVS_BUS. -/
structure PwrSt where
  sinceChange : Option Nat := none
  cool : Nat := 0
  hot : Bool := false
  easy : Nat := 0
  avsInj : Nat := 0
  avsStopped : Bool := false
  deriving DecidableEq, Repr

/-! ### Beacon (R138–R170) -/

/-- A tell-tale beside its registers (R150–R152, R158): the time at which its signal age was last set (none: the age is saturated),
and the age in ms then; an ON or BLINK request made since the last latch, the epoch of its blinking, whether it was blinking at the last latch, and
whether its glyph mismatched in the last frame. -/
structure TtSt where
  ageAt : Option Nat := none
  age0 : Nat := 0
  captured : Option Nat := none
  epoch : Nat := 0
  blinking : Bool := false
  reread : Bool := false
  clearReq : Bool := false
  deriving DecidableEq, Repr

/-- A kept Beacon CRC (R159): pipe frame count (8 low bits), the CRC, whether its outcome is decided, and the tell-tales whose glyph did not
match its CRC in that frame (R158). -/
structure KeptCrc where
  frame : Nat
  crc : Nat
  decided : Bool
  suspect : List Nat
  deriving DecidableEq, Repr

/-- A Beacon entry beside its registers: kept CRCs, newest first; consecutive frames without a MATCH; a change under a hold window whose
first whole frame is awaited (R156). -/
structure EntrySt where
  kept : List KeptCrc := []
  noMatch : Nat := 0
  covered : Bool := false
  deriving DecidableEq, Repr

/-- A cluster signal (R166, Table 06.7): its value bytes, the time its age was set and the age in ms then, and its timeout in
ms where sub 2 was written. Its value before the first write is the model's. (DESIGN CHOICE, log 617.) -/
structure ClusterSig where
  value : List Byte := []
  ageAt : Option Nat := none
  age0 : Nat := 0
  timeout : Option Nat := none
  deriving DecidableEq, Repr

/-- The Beacon block beside its registers: tell-tales, entries, a validated APPLY that waits for its pipes (the new entry images and
the pipes still to latch), the cluster signals, the orbits since the last redraw, the buffer and target of a redraw in
progress, what the last redraw drew from, and sprites skipped after CLU_ATLAS. -/
structure BeaconSt where
  tts : List (Nat × TtSt) := []
  entries : List (Nat × EntrySt) := []
  applyImg : List (Nat × Word) := []
  applyPipes : List Nat := []
  sigs : List (Nat × ClusterSig) := []
  sinceRedraw : Nat := 0
  redraw : Option (Nat × Nat × Nat) := none
  redrawOrbits : Nat := 0
  lastDrawn : List (List Byte) := []
  badSprites : List Nat := []
  deriving DecidableEq, Repr

/-! ### Hearth (R58–R86) -/

/-- Buffer states (R44, R66). -/
inductive BufSt where
  | empty | filling | sealed | shown | released | faulted
  deriving DecidableEq, Repr

/-- The encoding of HP_STATUS.STATE (R66). -/
def BufSt.code : BufSt → Nat
  | .empty => 0 | .filling => 1 | .sealed => 2 | .shown => 3 | .released => 4 | .faulted => 5

/-- A buffer handle (R61): whether it is allocated, the port that allocated it (1 HOST, 2 VEHICLE, 3 FIRMWARE), the size of each
plane in bytes, the size plane 1 had at ALLOC (before any TRIM), the cell list of each plane, and the buffer state. -/
structure Handle where
  alloc : Bool := false
  owner : Nat := 0
  sizes : List Nat := []
  alloc1 : Nat := 0
  cells : List (List Nat) := []
  st : BufSt := .empty
  deriving DecidableEq, Repr

/-- A handle command between its write and its result (R62): the command, the handle selected, its result code, and whether it
has run (before READY it is held at the controller, R84). -/
structure HpCmd where
  cmd : Nat
  sel : Nat
  code : Nat
  ran : Bool
  deriving DecidableEq, Repr

/-- A Hearth write that has not been acknowledged: the writer (a DMA channel 0–111, a decoder session 128 + s, a writeback writer
160 + p or 192 + p, the cluster engine 180), where it goes, its bytes, and whether evacuation has taken its cell (R79). -/
structure HmWrite where
  writer : Nat
  handle : Nat
  plane : Nat
  off : Nat
  bytes : List Byte
  stale : Bool
  deriving DecidableEq, Repr

/-- What is held at the Hearth controller before READY (R62, R84), in the order of arrival: a window access of requester `o` at address `a`,
the bytes of a write, the length, and the tag of an RRD; or the handle command of a port. -/
inductive Held where
  | access (o : Origin) (a : Nat) (wr : Option (List Byte)) (n : Nat) (tag : Option Nat)
  | command (port : Nat)
  deriving DecidableEq, Repr

/-- Words that a writer has written into a cell of a buffer that is not SEALED yet (R85): the writer, the cell, how many, and whether they
belong to its descriptor in progress. -/
structure Unsealed where
  writer : Nat
  cell : Nat
  words : Nat
  cur : Bool
  deriving DecidableEq, Repr

/-- An uncorrectable first read that awaits its re-read (R73). -/
structure Reread where
  r : Reader
  a : Nat
  synd : Nat
  inj : Bool
  deriving DecidableEq, Repr

/-- Hearth beside its registers: its bytes; the words stored with an uncorrectable pattern (R72, R77); corrected words that await their
write-back and first reads that await their re-read (R73); the handle table; the cells that codec sessions hold, by session number (decoder s,
encoder 32 + s); the retained copies of the handle table with the verdict of their CRC (R82); armed injections as channel masks (R77); for each
channel the distinct uncorrectable words of the window with the orbit count of each, and the orbit count of the last checker report (R77, R80);
the channels that HM_CH_FENCE fenced, as a mask (R442); channels being zero-initialised (R80); the traffic counters of the running window (R85);
handle commands in progress; writes in flight, writers that met an error acknowledgement, and those that met one of R218; and the writers whose
descriptor or picture is in progress with their handles (R64); what is held before READY, in the order of arrival; and the words written into
buffers that are not SEALED yet (R85). -/
structure HearthSt where
  mem : List Host.Cell := []
  badWords : List Nat := []
  pendingWb : List Nat := []
  rereads : List Reread := []
  handles : List (Nat × Handle) := []
  codecCells : List (Nat × List Nat) := []
  metaCopies : List (Bool × List (Nat × Handle)) := []
  injRead : Nat := 0
  injStore : Nat := 0
  injPar : Nat := 0
  uncorr : List (Nat × List (Nat × Nat)) := []
  quietFrom : List (Nat × Nat) := []
  wordFenced : Nat := 0
  zeroing : List Nat := []
  scrubAt : Nat := 0
  rdRun : List (Nat × Nat) := []
  wrRun : List (Nat × Nat) := []
  specRd : List (Nat × Nat) := []
  specWr : List (Nat × Nat) := []
  winOrbits : Nat := 0
  busy : List (Nat × HpCmd) := []
  writes : List HmWrite := []
  writeErr : List Nat := []
  writeRemap : List Nat := []
  writers : List (Nat × Nat) := []
  heldAcc : List Held := []
  unsealed : List Unsealed := []
  deriving DecidableEq, Repr

/-! ### DMA (R196–R228) -/

/-- A descriptor as read from host memory (R198), little-endian fields in the order of Table 08.1, with the address it was read from
and the queued list whose first descriptor it is. -/
structure Desc where
  addr : Nat
  next : Nat
  host : Nat
  ctrl : Nat
  target : Nat
  off : Nat
  rowBytes : Nat
  rows : Nat
  hostStride : Nat
  hearthStride : Nat
  sealWord : Nat
  tag : Nat
  rsv : Nat
  list : Option Nat
  deriving DecidableEq, Repr

/-- The current descriptor of a channel: its attempt, the bytes requested in this attempt, the cause of a failure of this attempt (0 none;
DMA_ERR_INFO.CAUSE) and of the one before, whether the source changed (R222), whether another fill held the buffer at the first Hearth write
(R206), bytes written into Hearth, codec bytes arrived by offset, codec bytes the port has taken, whether a whole encoder record was taken and
where its PAD record begins (R270), and bytes that wait in staging for the rest of their word (R212). -/
structure Cur where
  d : Desc
  attempt : Nat := 1
  asked : Nat := 0
  cause : Nat := 0
  prior : Nat := 0
  changed : Bool := false
  conflict : Bool := false
  wrote : Nat := 0
  arrived : List (Nat × List Byte) := []
  taken : Nat := 0
  whole : Bool := false
  pad : Option Nat := none
  gather : Nat := 0
  deriving DecidableEq, Repr

/-- An open fill (R204–R206): its handle and the address of its FIRST descriptor; the pass (R221); the running CRC-32C; whether its first
Hearth write has been decided, whether it was dropped as PINNED, whether a descriptor of it did not complete OK, whether its LAST
descriptor has completed; the queued lists entered since FIRST; and whether the second pass waits for FIRST to become current. -/
structure Fill where
  handle : Nat
  first : Nat
  pass : Nat := 1
  crc : Nat := 0xFFFFFFFF
  started : Bool := false
  dropped : Bool := false
  bad : Bool := false
  ended : Bool := false
  lists : List Nat := []
  rerun : Bool := false
  deriving DecidableEq, Repr

/-- A descriptor read in progress: its address, the queued list that it starts, and whether it only re-reads NEXT (R202). -/
structure Reading where
  addr : Nat
  list : Option Nat
  reload : Bool
  deriving DecidableEq, Repr

/-- A DMA channel beside its registers: queued lists, and how many at their head were entered before and are entered again; the current
descriptor; descriptors read ahead; the address of the next descriptor to read (0 none); the read in progress and its result (some none: failed);
whether it is the second read of R219; the address at which the channel stops; the open fill; ABORT in progress; the address of the descriptor
whose NEXT a RELOAD is to read again; the deadline; the staging share used up; and the bytes of the running statistics window. -/
structure Chan where
  lists : List Nat := []
  again : Nat := 0
  cur : Option Cur := none
  pre : List Desc := []
  next : Nat := 0
  reading : Option Reading := none
  result : Option (Option (List Byte)) := none
  retry : Bool := false
  stopAt : Option Nat := none
  fill : Option Fill := none
  aborting : Bool := false
  reload : Option Nat := none
  deadline : Option Nat := none
  stageStop : Bool := false
  statBytes : Nat := 0
  statSpec : Nat := 0
  deriving DecidableEq, Repr

/-- An open read request (R210): its tag, channel, host address and length; whether it reads a descriptor; where its data belongs in
the descriptor (linear offset); the bytes received so far; and whether its data is no longer wanted. -/
structure Req where
  tag : Nat
  chan : Nat
  host : Nat
  len : Nat
  desc : Bool
  at_ : Nat
  data : List Byte
  dead : Bool
  deriving DecidableEq, Repr

/-- The DMA beside its registers: channels, open requests, held tags with their channels (R215), the total staging limit reached for
ranks 3 and 4 (R211), and the service channel last served at rank 4. -/
structure DmaSt where
  chans : List (Nat × Chan) := []
  reqs : List Req := []
  held : List (Nat × Nat) := []
  stageStop : Bool := false
  lastBest : Nat := 111
  deriving DecidableEq, Repr

/-! ### Codec (R229–R274) -/

/-- Where the samples of a picture come from: mid-grey (R245); the decoding of a picture, by the index of its free values; or a picture whose
CTUs `lost`, of size `ctb` in rows of `w` luma samples, are those of another one (R246). -/
inductive Pix where
  | grey
  | coded (n : Nat)
  | patch (base : Pix) (under : Pix) (ctb : Nat) (w : Nat) (lost : List Nat)
  deriving DecidableEq, Repr

/-- A picture of a decoder session (R238–R249): POC, coded size, conformance window (offset and size), luma and chroma bit depth, CTB size,
taint, whether it awaits output, whether bumping has made its output due and its latency count (Annex C.5.2), whether it is still a reference,
its hash SEI, its samples, the DPB entry that holds it, and the number of its coded video sequence in the session. -/
structure DecPic where
  poc : Int
  cw : Nat
  ch : Nat
  cx : Nat := 0
  cy : Nat := 0
  w : Nat
  h : Nat
  dy : Nat
  dc : Nat
  ctb : Nat := 64
  taint : Bool
  waiting : Bool
  bumped : Bool := false
  late : Nat := 0
  isRef : Bool
  hash : Option PicHash := none
  src : Pix
  slot : Option Nat := none
  seq : Nat := 0
  deriving DecidableEq, Repr

/-- An output being written (R240): the ring entry, the handle, the picture. -/
structure DecWr where
  entry : Nat
  handle : Nat
  pic : DecPic
  deriving DecidableEq, Repr

/-- A decoder session beside its registers: input FIFO (64 KiB) and how many of its bytes end in a LAST mark; waiting for FIRST data after a
discontinuity; DPB; the picture being decoded; outputs in progress; the result of a command in progress; the credit of R243 as a fraction; a
watchdog expiry of the last picture, and whether an injection caused it; FLUSH in progress; a refused SPS; the path whose accepted OPEN waits for
its result; the number of the coded video sequence; whether its IRAP picture had NoRaslOutputFlag 1 (R245); and the bumping limits of the active
SPS: reorder, latency, DPB size. -/
structure DecSes where
  fifo : List Byte := []
  whole : Nat := 0
  dpb : List DecPic := []
  cur : Option DecPic := none
  writing : Option DecWr := none
  busy : Option (Nat × Nat) := none
  creditN : Nat := 0
  creditD : Nat := 1
  expired : Bool := false
  expInj : Bool := false
  flushing : Bool := false
  spsBad : Bool := false
  openBy : Nat := 0
  seq : Nat := 0
  noRasl : Bool := false
  limits : Nat × Nat × Nat := (0, 0, 16)
  deriving DecidableEq, Repr

structure DecSt where
  ses : List (Nat × DecSes) := []
  deriving DecidableEq, Repr

/-- A recorded frame: its number in the session, stamp, PIPE_POS.FRAME and size; whether the pipe is Banked; the capture frame that holds its
samples (none for a Banked one); the SEI fields of its Witness close and the drops known then; its refresh rate and Beacon entry; the lines
captured, and the chroma sums of a line that waits for its partner (R259-R261, R268). -/
structure CapFrame where
  seq : Nat
  stamp : Nat
  frame : Nat
  w : Nat
  h : Nat
  banked : Bool
  slot : Option Nat
  sei : List Byte := []
  drops : Nat := 0
  refresh : Nat × Nat
  beacon : Option (Nat × List (Nat × Word))
  lines : Nat := 0
  half : List (Nat × Nat) := []
  deriving DecidableEq, Repr

/-- A region of interest in active pixels with its QP offset and cap (R265). -/
structure Roi where
  x : Nat
  y : Nat
  w : Nat
  h : Nat
  off : Int
  cap : Nat
  deriving DecidableEq, Repr

/-- What the start of a picture fixes (R255, R265, R266, R274): whether it is IDR, F, H, qf, MIN_QP, and the regions of the session and of Beacon
that are enabled. -/
structure EncPlan where
  idr : Bool := false
  f : Nat := 0
  h : Nat := 0
  qf : Nat := 0
  minQp : Nat := 0
  rois : List Roi := []
  bcn : List Roi := []
  deriving DecidableEq, Repr

/-- What the parameter sets of a stream declare (R254): general_profile_idc (1 Main, 2 Main 10), general_level_idc, the padded size, what the
conformance window crops at the right and at the bottom, the bit depth and ES_CFG.CSC. -/
structure StreamParams where
  profile : Nat
  level : Nat
  w : Nat
  h : Nat
  cropR : Nat
  cropB : Nat
  depth : Nat
  csc : Nat
  deriving DecidableEq, Repr

/-- A prediction unit of a P slice with its vector in quarter samples (R264). -/
structure Pu where
  x : Nat
  y : Nat
  w : Nat
  h : Nat
  mv : Int × Int
  deriving DecidableEq, Repr

/-- A coded CTU: its QP, none where it is skip-coded; its bits; and its inter prediction units (R264, R266). -/
structure CtuCode where
  qp : Option Nat
  bits : Nat
  pus : List Pu
  deriving DecidableEq, Repr

/-- A coded picture: what its stream declares, whether its one slice is an I slice of an IDR picture, and its CTUs in raster order (R254). -/
structure CodedPic where
  params : StreamParams
  idr : Bool
  ctus : List CtuCode
  deriving DecidableEq, Repr

/-- An encoder session beside its registers: frames towards DIV and recorded frames; the capture in progress; captured frames that wait; the
picture being coded and its plan; the output queue in its cells (the lengths of its records, the place of the first byte that is left, and the
bytes of the first record that are gone); the drops that no GAP record reports yet (frame, stamp, reason); the drops since the last delivered
access unit; pictures since IDR; FORCE_IDR; the size of the previous coded picture; whether its unit was dropped; the rate control of R266
(whether no picture was coded yet; QP, bits and F of the previous picture, the last 8 overshoots, the picture itself); the result of a command in
progress; the path whose accepted OPEN waits for its result. -/
structure EncSes where
  divCount : Nat := 0
  seq : Nat := 0
  cap : Option CapFrame := none
  frames : List CapFrame := []
  coding : Option CapFrame := none
  plan : EncPlan := {}
  recs : List Nat := []
  head : Nat := 0
  part : Nat := 0
  drops : List (Nat × Nat × Nat) := []
  dropsAu : Nat := 0
  sinceIdr : Nat := 0
  forceIdr : Bool := false
  lastSize : Option (Nat × Nat) := none
  lastDropped : Bool := false
  first : Bool := true
  qprev : Nat := 0
  sprev : Nat := 0
  fprev : Nat := 0
  overs : List Nat := []
  prev : Option CodedPic := none
  busy : Option (Nat × Nat) := none
  openBy : Nat := 0
  deriving DecidableEq, Repr

/-- The encoder beside its registers: sessions, the sessions of the captured pictures in the order of their Witness close instants (R263),
and whether the watchdog expired on the last picture, with the injection that made it (R272). -/
structure EncSt where
  ses : List (Nat × EncSes) := []
  order : List Nat := []
  expired : Option Bool := none
  deriving DecidableEq, Repr

/-! ### Aknum (R275–R303) -/

/-- An outbound packet (Table 11.9); `own` is the DMA channel whose data or STATUS an MWR carries. -/
inductive Pkt where
  | mrd (tag host len : Nat)
  | mwr (host : Nat) (bs : List Byte) (own : Option Nat)
  | cpl (status tag off : Nat) (bs : List Byte)
  | msg (q : Nat) (bs : List Byte)
  | mgt (bs : List Byte)
  deriving DecidableEq, Repr

/-- An outbound PAYLOAD or LINK flit that is not yet acknowledged (R285): its number, TYPE, FPS, 240 payload bytes, the packets that it
completes, and how often it was replayed. -/
structure TxFlit where
  seq : Nat
  kind : Nat
  fps : Nat
  payload : List Byte
  pkts : List Pkt
  replays : Nat
  deriving DecidableEq, Repr

/-- The copy of an inbound flit that failed its CRC (R286, R288): its position among the flits since training, its bytes, the physical
lane of each logical lane at the time, and whether the failure was injected. -/
structure FailedCopy where
  pos : Nat
  bs : List Byte
  lanes : List Nat
  inj : Bool
  deriving DecidableEq, Repr

/-- The last equaliser request for an inbound lane (R281): its number, lane, tap (1 pre, 2 post), whether the step is +1, its time and
whether its acknowledgement is awaited. -/
structure EqReq where
  num : Nat
  lane : Nat
  tap : Nat
  up : Bool
  at_ : Nat
  waits : Bool
  deriving DecidableEq, Repr

/-- An inbound packet that waits behind an RWR that has not taken effect (R292): its header word, its units that no credit return covers yet, the
number of its flit, its data, what Hearth reads meet, and whether no assembly of an object view matches. -/
structure InPkt where
  w : Nat
  units : Nat
  seq : Nat
  data : List Byte
  ecc : ReadEvent
  skew : Bool
  deriving DecidableEq, Repr

/-- The Aknum link beside its registers: packets queued outbound, in order; LINK flit payloads queued; unacknowledged flits, oldest first;
the position in them of the replay under way; the rest of a packet that spans flits, and that packet; receive side: flits since training, the
failed copy, NAK wanted, the packet that spans flits, a delivery not yet acknowledged; credits: units sent by VC since INIT, the totals
returned by the adapter, units received and the totals told to the adapter, the VC told next; INIT received; stage of a replay failure
(1 after its fast retrain); whether training has begun since reset, and whether the training under way is a fast retrain; IDLE_ENTER sent
and the IDLE flits still to send after the exchange; equaliser requests; fences to be cleared; for each lane the window its errors
count in (index + 1), and lanes whose last error was injected; and the packets that wait behind an RWR. -/
structure AkSt where
  queue : List Pkt := []
  links : List (List Byte) := []
  unacked : List TxFlit := []
  replayAt : Option Nat := none
  rest : List Byte := []
  restPkt : Option Pkt := none
  flits : Nat := 0
  failed : Option FailedCopy := none
  nak : Bool := false
  part : List Byte := []
  ackDue : Bool := false
  sent : List Nat := [0, 0, 0, 0]
  freed : List Nat := [0, 0, 0, 0]
  got : List Nat := [0, 0, 0, 0]
  told : List Nat := [0, 0, 0, 0]
  crNext : Nat := 0
  rxInit : Bool := false
  failStage : Nat := 0
  begun : Bool := false
  fast : Bool := false
  idleSent : Bool := false
  idleLeft : Nat := 0
  eqReqs : List EqReq := []
  eqNext : Nat := 0
  clearLanes : List Nat := []
  laneErrs : List (Nat × Nat) := []
  laneInj : List Nat := []
  inq : List InPkt := []
  deriving DecidableEq, Repr

/-! ### Object dictionary and CAN (R366–R396) -/

/-- A segmented transfer (R375): whether it writes; TXN, index and subindex of its INIT; the length; the bytes so far (of a write) or the whole
value (of a read); the next segment expected or to be sent, and the first one not acknowledged; whether a gap was answered and no segment
in order has arrived since; whether it is the second attempt of a write, and
whether the failure of the first was injected; and whether its frames switch the bit rate. -/
structure Seg where
  write : Bool
  txn : Nat
  index : Nat
  sub : Nat
  total : Nat
  data : List Byte := []
  seq : Nat := 0
  acked : Nat := 0
  gap : Bool := false
  second : Bool := false
  inj : Bool := false
  brs : Bool := false
  deriving DecidableEq, Repr

/-- The fill of a buffer through object 0x2005 (R388): whether DATA took it to FILLING, the CRC-32C register over the bytes written since, and
whether a SEAL was refused. -/
structure OdFill where
  open_ : Bool := false
  crc : Nat := 0xFFFFFFFF
  refused : Bool := false
  inj : Bool := false
  deriving DecidableEq, Repr

/-- What an answer repeats of its request (R372): the bus (2 Aknum), TXN, index, subindex, the CMD of a good answer, and whether the request
was a classic frame, or switched the bit rate (R369). -/
structure OdReq where
  bus : Nat
  txn : Nat
  index : Nat
  sub : Nat
  cmd : Nat
  classic : Bool := false
  brs : Bool := false
  deriving DecidableEq, Repr

/-- A frame that waits for the engine (R370): the frame, whether the next view assembly fails, and what Hearth reads meet. -/
structure OdArrival where
  fr : CanFrame
  skew : Bool
  e : ReadEvent
  deriving DecidableEq, Repr

/-- The object dictionary beside its registers: the open segmented transfer of each bus (0 CAN0, 1 CAN1, 2 Aknum); the last nonce issued on each
stream, plus 1 (R381); the TX counter (R383); the bus and counter of the last accepted state frame (R380); the result of the last request of each
path for each unit (4 u + path); REG_ADDR of each pipe; handle, plane and offset of each pipe's fill, and the fills by handle; objects refused
for a descriptor parity error (Table 15.13); the last bus-off of each controller (R390); the answer that waits for commit port 1; the answers
that wait for a write held by a BUSY commit port, by register address (R111, R370); the stamp of the last COMMIT_SHOWN of each pipe (R387);
acceptances of each stream since its floor was saved (R381); the read that waits for its unit's line boundary, with whether it is segmented and
whether the mismatch was injected, and the frames that wait behind it (R370, R386); the hold request of object 0x3050: PIPE, START, LENGTH and
its outcome, 0 none, 1 granted, 2 refused (R154). -/
structure OdSt where
  segs : List (Nat × Option Seg) := []
  nonces : List (Nat × Nat) := []
  txCtr : Nat := 0
  lastSf : Option (Nat × Nat) := none
  results : List (Nat × Nat) := []
  regAddr : List (Nat × Nat) := []
  fillSel : List (Nat × Nat × Nat × Nat) := []
  fills : List (Nat × OdFill) := []
  badObjs : List Nat := []
  busOffAt : List (Nat × Nat) := []
  waiting : Option OdReq := none
  heldReqs : List (Nat × OdReq) := []
  shownStamp : List (Nat × Nat) := []
  accepted : List (Nat × Nat) := []
  skewed : Option (OdReq × Bool × Bool) := none
  inbox : List OdArrival := []
  holdPipe : Nat := 0
  holdStart : Nat := 0
  holdLen : Nat := 0
  holdState : Nat := 0
  deriving DecidableEq, Repr

/-! ### Ember, Kindling, keys and flash (R397–R403, R418–R434, R456–R470, R489–R497) -/

/-- The Ember domain and the pins that it drives (R398–R403, R419, R489, R497), beside its registers: the Ember supplies present; the
power-on reset still running; the crystal in use; PMIC_EN, RET_EN and PGOOD; RESET_N high; the main domain out of reset; the power state
being entered or reached (0 none, 1 SMOULDER, 2 EMBER) and whether it is reached; inputs seen during entry (R402); a wake
under way; the time at which the Ember timer read 0; the fence state recorded for a restore (R82): FENCED and UNREADABLE; whether
Hearth is in self-refresh with valid contents; and whether the metadata copies of the handle table stand in Hearth. -/
structure EmbSt where
  supply : Bool := true
  crystal : Bool := false
  pmicEn : Bool := true
  retEn : Bool := true
  pgood : Bool := true
  resetN : Bool := true
  main : Bool := true
  target : Nat := 0
  parked : Bool := false
  seen : Nat := 0
  waking : Bool := false
  timerAt : Nat := 0
  fences : Nat := 0
  unreadable : Nat := 0
  retained : Bool := false
  deriving DecidableEq, Repr

/-- What the Kindling list waits for (Table 17.4). -/
inductive KinWait where
  | none | apply | start
  | draw (h : Nat)
  deriving DecidableEq, Repr

/-- Kindling (R418–R434), as object 0x1010 reports it and beside it: CAUSE, PHASE (0 BOOT, 1 CONFIG, 2 ASSETS, 3 STARTING, 4 DONE, 5
FAILED), TIME, SOURCE; the Ember timer at the start instant; the header in use; the entry of the list to apply next; what the list waits
for; whether it has ended; the pipes that it started; items 3 and 4 failed, and the pipes that
are not started because of item 3 (R428); the handles that it allocated with their sizes; the time of the last main reset release; the
handover (R431): the pipe, STATE; pipes handed over, and pipes released by the host that are to be taken back (R432); an FT
that stopped a warm Kindling (R451); a PGOOD loss to report at its end (R403). -/
structure KinSt where
  cause : Nat := 0
  phase : Nat := 0
  time : Nat := 0
  source : Nat := 0
  startTick : Nat := 0
  header : List Byte := []
  pos : Nat := 0
  wait : KinWait := .none
  ended : Bool := false
  pipes : List Nat := []
  bad3 : Bool := false
  bad4 : Bool := false
  barred : List Nat := []
  allocs : List (Nat × List Nat) := []
  resetAt : Nat := 0
  handPipe : Nat := 0
  handState : Nat := 0
  handed : List Nat := []
  reclaim : List Nat := []
  halted : Bool := false
  pgoodLoss : Bool := false
  deriving DecidableEq, Repr

/-- A key command in progress (R464): the OTP contents to program, and the slot or entry. -/
inductive KeyJob where
  | key (slot : Nat) (k : List Byte)
  | cpk (entry : Nat) (h : List Byte)
  | pwd (k : List Byte)
  | revoke (slot : Nat)
  | revokeCpk (entry : Nat)
  deriving DecidableEq, Repr

/-- The key store beside SEC_STATUS and SEC_KEY_STATE (R457–R468): key bits by slot, customer key hashes by entry, the debug password;
the key command in progress; the valid challenge of R461; whether a debug session is open. -/
structure SecSt where
  keys : List (Nat × List Byte) := []
  cpks : List (Nat × List Byte) := []
  pwd : Option (List Byte) := none
  job : Option KeyJob := none
  chal : Option (List Byte) := none
  session : Bool := false
  deriving DecidableEq, Repr

/-- The external flash (R371, R381, R420): its bytes; the saved authentication floors; the stored network settings by key (16 times the
object's last digit plus the subindex for 0x0200–0x0202, 48 plus the subindex for 0x1202), and whether settings of
0x0200–0x0202, and of 0x1202, await the next Kindling. -/
structure FlashSt where
  cells : List Host.Cell := []
  floors : List (Nat × Nat) := []
  net : List (Nat × Option Nat) := []
  netPending : Bool := false
  mapPending : Bool := false
  deriving DecidableEq, Repr


/-! ### What leaves the part -/

/-- The AVSBus commands that are used (R413): write-and-commit of Voltage, read of Voltage, read of Status. -/
inductive AvsCmd where
  | write | read | status
  deriving DecidableEq, Repr

/-- What left the part, or what a requester received, during the last command. -/
inductive Out where
  /-- The value a register or memory read returned. -/
  | data (o : Origin) (a : Nat) (bs : List Byte)
  /-- A refused access: UR on a host read, an access fault at a core (R471). -/
  | refused (o : Origin) (a : Nat)
  /-- Bytes of a Hearth word delivered to its reader (Table 03.4). -/
  | hmWord (a : Nat) (bs : List Byte)
  /-- An error response of Hearth (R60). -/
  | error (o : Origin) (a : Nat)
  /-- A Cagan control block that a port sends: its 64-bit payload (R308). -/
  | cgBlock (p : Nat) (payload : Nat)
  /-- What lanes of a port carry (none: Aknum; Cagan port p): runs of blocks in order, striped over the lanes, each a control block's payload or
  a block of PRBS31 (none) and its count; nothing stands for electrical idle. `on` tells that it repeats until the port sends something else (R280, R308–R310,
  R316–R318). -/
  | lanes (port : Option Nat) (ls : List Nat) (blocks : List (Option Nat × Nat)) (on : Bool)
  /-- A line that a Cagan port sends: LS, data blocks and LE, as 64-bit payloads (R306). -/
  | cgLine (p : Nat) (blocks : List Nat)
  /-- The vector a core target received at an acknowledge, and the address that its core jumps to (R353, R354). -/
  | vector (t : Nat) (v : Nat) (entry : Nat)
  /-- A CAN frame that the TD96 sends (R369, R373, R383): the bus, the identifier, whether it is an FD frame, its payload, whether it
  switches the bit rate (R369). -/
  | canFrame (bus id : Nat) (fd : Bool) (bs : List Byte) (brs : Bool)
  /-- A flit that the Aknum link sends (R284), and the lane whose sync header was inverted in it (R302). -/
  | akFlit (bs : List Byte) (viol : Option Nat)
  /-- A frame on AVSBus: the rail, the command, the voltage written in mV (R413). -/
  | avsFrame (rail : Nat) (cmd : AvsCmd) (mv : Nat)
  /-- A pulse on FSYNC_OUT: its width in REFCLK periods and whether it is high (R181, R195). -/
  | fsyncPulse (width : Nat) (high : Bool)
  deriving DecidableEq, Repr

/-- The level of output pins: FAULT_N driven low (R446), GLOW high (R444), LOCKMON high (R336). -/
structure PinSt where
  faultLow : Bool := true
  glow : Bool := false
  lockmon : Bool := false
  deriving DecidableEq, Repr

/-! ### The device -/

/-- The device: the commands that wait, first in first out; what left the part during the last command; the time in FABRIC_CLK
periods since power-up; a counter that indexes the free values; the registers; the service SRAM; the _HI latches of
each requester (R480), keyed by requester and address; the blocks; and the output pins. -/
structure State where
  pending : List Instr := []
  outbox : List Out := []
  now : Nat := 0
  freeCtr : Nat := 0
  regs : List (Nat × Word) := []
  sram : List Host.Cell := []
  latches : List (Nat × Word) := []
  intc : IntcSt := {}
  fc : FaultSt := {}
  orbit : OrbitSt := {}
  pipes : List (Nat × PipeSt) := []
  hm : HearthSt := {}
  bc : BeaconSt := {}
  cg : List (Nat × CgSt) := []
  clk : ClkSt := {}
  pwr : PwrSt := {}
  dma : DmaSt := {}
  dec : DecSt := {}
  enc : EncSt := {}
  ak : AkSt := {}
  od : OdSt := {}
  emb : EmbSt := {}
  kin : KinSt := {}
  sec : SecSt := {}
  flash : FlashSt := {}
  pins : PinSt := {}
  deriving DecidableEq, Repr

/-- The CORE, HEARTH and CAGAN PLLs as the release of the main domain leaves them: a lock has begun (R327, R328, R332, R419). -/
def resetPlls : List (Nat × PllSt) :=
  [(12, { ceil := 3150000000, seed := 13 * 0x10001 }), (13, { ceil := 3360000000, seed := 14 * 0x10001 }), (14, { ceil := 3150000000, seed := 15 * 0x10001 })]

/-- What the release shows in CLOCK: REFCLK is good and the holding clock is REFCLK (R331, R337); the settings of those PLLs, whose lock
begins. -/
def resetPllRegs : List (Nat × Word) :=
  [(0x20700000, 0x50000#32), (0x2070028C, 1#32), (0x20700290, 0x78000000#32), (0x20700294, 1200000000#32), (0x207002AC, 1#32),
   (0x207002B0, 0x80000000#32), (0x207002B4, 1600000000#32), (0x207002CC, 1#32), (0x207002D0, 0x78000000#32), (0x207002D4, 750000000#32)]

/-- MC2 and MC3 stay in reset when the main domain is released (R419). -/
def resetTgts : List (Nat × Tgt) := [(2, { held := true }), (3, { held := true })]

/-- The machine right after reset: the main domain has just left reset after power-on (R419, R481), every register at the value of its
Reset column but for what the release itself starts; the Aknum link is down, which source 190 reports. -/
def State.reset : State :=
  { regs := resetPllRegs
    clk := { plls := resetPlls }
    intc := { srcs := [(190, { input := true, pend := true })], tgts := resetTgts }
    fc := { heldMc2 := true, heldMc3 := true } }

end Sys2Proof.Machine
end

