-- ==== Sys2Proof/Machine/Ops.lean ====
section
/-! DEFINITION. The named operations over registers, tables, bytes of memory and what leaves the part, shared by every family. -/
namespace Sys2Proof.Machine

/-- The state in which a command starts: what left the part during the last command is gone. -/
def State.fresh (s : State) : State := { s with outbox := [] }

/-- Adds to what leaves the part. -/
def State.emit (s : State) (x : Out) : State := { s with outbox := s.outbox ++ [x] }

/-- The next index of the free values. (DESIGN CHOICE, log 2.) -/
def State.tick (s : State) : State := { s with freeCtr := s.freeCtr + 1 }

/-! ### Registers -/

/-- The word of a register image at an address. -/
def imgWord (m : List (Nat × Word)) (a : Nat) : Word := SMap.get (regReset a) m a

/-- A field of a register image. -/
def imgGet (m : List (Nat × Word)) (f : FRef) : Nat := bits (imgWord m f.addr).toNat f.hi f.lo

/-- The register image with a field replaced. -/
def imgPut (m : List (Nat × Word)) (f : FRef) (v : Nat) : List (Nat × Word) :=
  SMap.set (regReset f.addr) m f.addr (BitVec.ofNat 32 (setBits (imgWord m f.addr).toNat f.hi f.lo v))

/-- The stored word of a register. -/
def State.reg (s : State) (a : Nat) : Word := imgWord s.regs a

/-- Replaces the stored word of a register. -/
def State.setReg (s : State) (a : Nat) (w : Word) : State := { s with regs := SMap.set (regReset a) s.regs a w }

/-- A stored field. -/
def State.get (s : State) (f : FRef) : Nat := imgGet s.regs f

/-- Replaces a stored field. -/
def State.put (s : State) (f : FRef) (v : Nat) : State := { s with regs := imgPut s.regs f v }

/-- Whether a one-bit field is 1. -/
def State.is (s : State) (f : FRef) : Bool := s.get f == 1

/-- Sets the bits of `m` in a field. -/
def State.orBits (s : State) (f : FRef) (m : Nat) : State := s.put f (s.get f ||| m)

/-- Clears the bits of `m` in a field. -/
def State.clrBits (s : State) (f : FRef) (m : Nat) : State := s.put f (s.get f - (s.get f &&& m))

/-- Adds to a counting field, saturating at the field's largest value. (DEDUCED, log 15.) -/
def State.count (s : State) (f : FRef) (k : Nat) : State := s.put f (satAdd (s.get f) k (2 ^ (f.hi - f.lo + 1) - 1))

/-- Adds 1 to a field, modulo its width. (DEDUCED, log 15.) -/
def State.incr (s : State) (f : FRef) : State := s.put f (s.get f + 1)

/-! ### Units -/

/-- Output pipe `p`. -/
def State.pipe (s : State) (p : Nat) : PipeSt := SMap.get {} s.pipes p

/-- Replaces output pipe `p`. -/
def State.setPipe (s : State) (p : Nat) (x : PipeSt) : State := { s with pipes := SMap.set {} s.pipes p x }

/-- Changes output pipe `p`. -/
def State.modPipe (s : State) (p : Nat) (f : PipeSt → PipeSt) : State := s.setPipe p (f (s.pipe p))

/-- Slot `k` of a pipe. -/
def PipeSt.slot (x : PipeSt) (k : Nat) : SlotSt := SMap.get {} x.slots k

/-- Replaces slot `k` of a pipe. -/
def PipeSt.setSlot (x : PipeSt) (k : Nat) (v : SlotSt) : PipeSt := { x with slots := SMap.set {} x.slots k v }

/-- The field `f` of the shown layer state of pipe `p`. -/
def State.shownGet (s : State) (p : Nat) (f : FRef) : Nat := imgGet (s.pipe p).shown f

/-- Buffer handle `h`. -/
def State.handle (s : State) (h : Nat) : Handle := SMap.get {} s.hm.handles h

/-- Replaces buffer handle `h`. -/
def State.setHandle (s : State) (h : Nat) (x : Handle) : State :=
  { s with hm := { s.hm with handles := SMap.set {} s.hm.handles h x } }

/-- A channel whose TO_HOST transfer reads buffer `h` from Hearth notes that the buffer has left SEALED and SHOWN (R222). -/
def Chan.sourceLeft (x : Chan) (h : Nat) : Chan :=
  match x.cur with
  | some u =>
    if bit u.d.ctrl 0 && bits u.d.target 31 30 == 0 && bits u.d.target 9 0 == h && u.asked < u.d.rowBytes * u.d.rows then
      { x with cur := some { u with changed := true } }
    else x
  | none => x

/-- Changes the state of buffer `h` (R44). -/
def State.setBuf (s : State) (h : Nat) (b : BufSt) : State :=
  let s := s.setHandle h { s.handle h with st := b }
  if b = .sealed ∨ b = .shown then s
  else { s with dma := { s.dma with chans := s.dma.chans.map fun e => (e.1, e.2.sourceLeft h) } }

/-- The pipes of the device. -/
def allPipes : List Nat := [0, 1, 2, 3, 4, 5, 6, 7, 8, 9, 10, 11]

/-- The slots of a pipe. -/
def allSlots : List Nat := [0, 1, 2, 3, 4, 5, 6, 7]

/-- Applies an effect for every number of a list, in order. -/
def forAll (xs : List Nat) (f : Nat → State → State) (s : State) : State := xs.foldl (fun s x => f x s) s

/-- Applies an effect where a condition holds. -/
def State.when (s : State) (c : Bool) (f : State → State) : State := if c then f s else s

/-! ### Origins and paths (R456, R20, R11) -/

/-- The owner encoding of a path: 0 NONE, 1 HOST, 2 VEHICLE, 3 FIRMWARE. A write from DEBUG is judged by ownership as a write
from FIRMWARE (R456). (DEDUCED, log 11.) -/
def originPath : Origin → Nat
  | .sp | .debug => 3
  | .mc2 | .mc3 | .host => 1

/-- Whether a requester belongs to the HOST path (R20). -/
def isHostPath (o : Origin) : Bool := originPath o == 1

/-- Whether a requester is admitted to commit or handle port `n` (R20, R62, R456): port 0 the HOST path, port 1 the
object-dictionary engine alone (no register requester), port 2 the safety pair alone. -/
def portAdmits (n : Nat) (o : Origin) : Bool :=
  match n with
  | 0 => isHostPath o
  | 2 => o == .sp
  | _ => false

/-- The owner of unit `u` (R11). -/
def State.owner (s : State) (u : Nat) : Nat := s.get (Reg.OWN_OWNER u)

/-- The number of a requester, for its _HI latches (R480). -/
def originIx : Origin → Nat
  | .sp => 0 | .mc2 => 1 | .mc3 => 2 | .host => 3 | .debug => 4

/-- The generation of unit `u` advances (R386). -/
def State.bumpGen (s : State) (u : Nat) : State := s.incr (Reg.OWN_GEN u)

/-- The unit of Table 01.4 whose registers hold address `a` (R384): pipe p with its Cagan port, Beacon 12, the cluster engine 13, the
decoder 14, the encoder 15. -/
def unitOfAddr (a : Nat) : Option Nat :=
  if 0x20100000 ≤ a ∧ a < 0x201C0000 then some ((a - 0x20100000) / 0x10000)
  else if 0x20200000 ≤ a ∧ a < 0x20202000 then some 12
  else if 0x20202000 ≤ a ∧ a < 0x20210000 then some 13
  else if 0x20400000 ≤ a ∧ a < 0x20410000 then some 14
  else if 0x20410000 ≤ a ∧ a < 0x20420000 then some 15
  else if 0x20600000 ≤ a ∧ a < 0x2060C000 then some ((a - 0x20600000) / 0x1000)
  else if a = 0x20A00000 ∨ a = 0x20A00004 ∨ a = 0x20A00014 ∨ a = 0x20B00004 ∨ a = 0x20B00010 then some 16
  else none

/-- Whether debug access is open (R459): in BLANK and RETIRED, or during a session. -/
def State.debugOpen (s : State) : Bool := s.get Reg.SEC_STATUS_LC == 0 || s.get Reg.SEC_STATUS_LC == 3 || s.sec.session

/-! ### Bytes of memory -/

/-- What an unlisted byte of Hearth or of the service SRAM reads as: 0. For Hearth it is what initialisation leaves (R84); for the
service SRAM the spec gives no contents (DESIGN CHOICE, log entry 5). -/
def memDefault : Byte := 0#8

/-- The canonical form of a byte memory: addresses strictly rise, and no entry equals what an unlisted address reads as. -/
def Memory.wf (m : List Host.Cell) : Bool := SMap.wf (fun _ => memDefault) m

/-- A byte of Hearth. -/
def State.hmByte (s : State) (a : Nat) : Byte := SMap.get memDefault s.hm.mem a

/-- Stores bytes from an address upwards. -/
def storeBytes : List Host.Cell → Nat → List Byte → List Host.Cell
  | m, _, [] => m
  | m, a, b :: bs => storeBytes (SMap.set memDefault m a b) (a + 1) bs

/-- Reads `n` bytes from an address upwards. -/
def loadBytes (m : List Host.Cell) (a n : Nat) : List Byte := (rangeFrom a n).map fun i => SMap.get memDefault m i

/-- Drops every byte of [a, a + n) from a byte list, which makes it read as 0. -/
def zeroBytes (m : List Host.Cell) (a n : Nat) : List Host.Cell := m.filter fun c => c.1 < a || a + n ≤ c.1

/-- Stores bytes into Hearth. -/
def State.hmStore (s : State) (a : Nat) (bs : List Byte) : State := { s with hm := { s.hm with mem := storeBytes s.hm.mem a bs } }

/-- Stores bytes into the service SRAM. -/
def State.sramStore (s : State) (a : Nat) (bs : List Byte) : State := { s with sram := storeBytes s.sram a bs }

/-- Reads bytes of the service SRAM. -/
def State.sramLoad (s : State) (a n : Nat) : List Byte := loadBytes s.sram a n

/-- A little-endian 32-bit word of the service SRAM. -/
def State.sramWord (s : State) (a : Nat) : Nat := leNat (s.sramLoad a 4)

/-! ### Modes of a pipe (TG_STATUS.STATE, R194) -/

/-- The values of TG_STATUS.STATE. -/
inductive TgMode where
  | stopped | starting | relock | running | bankEntry | banked | bankExit | stopping
  deriving DecidableEq, Repr

/-- The encoding of TG_STATUS.STATE. -/
def TgMode.code : TgMode → Nat
  | .stopped => 0 | .starting => 1 | .relock => 2 | .running => 3
  | .bankEntry => 4 | .banked => 5 | .bankExit => 6 | .stopping => 7

/-- The mode of pipe `p`. -/
def State.mode (s : State) (p : Nat) : TgMode :=
  match s.get (Reg.TG_STATUS_STATE p) with
  | 0 => .stopped | 1 => .starting | 2 => .relock | 3 => .running
  | 4 => .bankEntry | 5 => .banked | 6 => .bankExit | _ => .stopping

/-- Sets the mode of pipe `p`. -/
def State.setMode (s : State) (p : Nat) (m : TgMode) : State := s.put (Reg.TG_STATUS_STATE p) m.code

/-- Whether the raster of pipe `p` counts frames (R175): not while stopped, starting or in a relock gap, nor from step 3 of the
stop sequence on (R186). -/
def State.counting (s : State) (p : Nat) : Bool :=
  match s.mode p with
  | .stopped | .starting | .relock => false
  | .stopping => (s.pipe p).seqStep == 1
  | _ => true

/-! ### Time -/

/-- The current orbit stamp, 48 bits (R15). -/
def stampMod : Nat := 2 ^ 48

/-- FABRIC_CLK periods in a millisecond: FABRIC_CLK runs at 1.0 GHz (01, The blocks). -/
def msNs : Nat := 1000000

end Sys2Proof.Machine
end

