-- ==== Sys2Proof/Machine/IntcOps.lean ====
section
/-! DEFINITION. Interrupt sources as the units of the device drive them: inputs, occurrences and records (R343–R349). -/
namespace Sys2Proof.Machine

/-- Interrupt source `n`. -/
def State.src (s : State) (n : Nat) : Src := SMap.get {} s.intc.srcs n

/-- Replaces interrupt source `n`. -/
def State.setSrc (s : State) (n : Nat) (x : Src) : State :=
  { s with intc := { s.intc with srcs := SMap.set {} s.intc.srcs n x } }

/-- Interrupt target `t`. -/
def State.tgt (s : State) (t : Nat) : Tgt := SMap.get {} s.intc.tgts t

/-- Replaces interrupt target `t`. -/
def State.setTgt (s : State) (t : Nat) (x : Tgt) : State :=
  { s with intc := { s.intc with tgts := SMap.set {} s.intc.tgts t x } }

/-- Whether source `n` exists (R344): the reserved sources never assert. -/
def srcExists (n : Nat) : Bool :=
  n < 256 && !(n == 191 || (195 ≤ n && n ≤ 199) || n == 206 || n == 207 || n == 222 || n == 223)

/-- Sets a source pending (Table 14.3): INACTIVE becomes PENDING, ACTIVE becomes ACTIVE+PENDING, further occurrences merge. -/
def State.setPending (s : State) (n : Nat) : State :=
  if srcExists n then s.setSrc n { s.src n with pend := true } else s

/-- An EDGE occurrence (R343). -/
def State.occur (s : State) (n : Nat) : State := s.setPending n

/-- The input of a LEVEL source takes a value (Table 14.3): asserting sets an inactive source pending, and an active one only
when its input was seen de-asserted since the claim. -/
def State.level (s : State) (n : Nat) (b : Bool) : State :=
  if srcExists n then
    let x := s.src n
    if b then
      if x.input then s
      else s.setSrc n { x with input := true, pend := x.pend || !x.active || x.low }
    else s.setSrc n { x with input := false, low := x.low || x.active }
  else s

/-- An event of an EVENT source appends a record (R345); with the FIFO full the record is dropped and counted in LOST. -/
def State.record (s : State) (n code unit arg : Nat) (stamp : Nat := s.orbit.stamp) : State :=
  let x := s.src n
  if x.fifo.length < srcDepth n then
    s.setSrc n { x with fifo := x.fifo ++ [⟨code, unit, stamp, arg % 2 ^ 32⟩], pend := true }
  else s.setSrc n { x with lost := satInc x.lost 65535, lostMsg := true }

/-- The state of a source after an end-of-interrupt (Table 14.3). -/
def Src.endOf (x : Src) (mode : Nat) : Src :=
  let again := x.pend || (mode == 0 && x.input) || (mode == 2 && !x.fifo.isEmpty)
  { x with active := false, low := false, pend := again }

/-- Empties the stack of target `t`: every source active on it changes state as at an end-of-interrupt (R356, Table 14.6). -/
def State.emptyStack (s : State) (t : Nat) : State :=
  let x := s.tgt t
  let s := x.stack.foldl (fun s e => s.setSrc e.1 ((s.src e.1).endOf (srcMode e.1))) s
  s.setTgt t { x with stack := [] }

/-- A commit is shown on pipe `p` (R39): COMMIT_SHOWN with its tag. -/
def State.commitShown (s : State) (p tag : Nat) : State :=
  let s := { s with od := { s.od with shownStamp := SMap.set 0 s.od.shownStamp p s.orbit.stamp } }
  s.record (112 + p) 0x10 p tag

end Sys2Proof.Machine
end

