-- ==== Sys2Proof/Machine/PortOps.lean ====
section
/-! DEFINITION. The Cagan ports and the PLLs as the rest of the device drives them: port states and what a port sends (R308–R318,
Table 12.4), PLL settings, the start and the stop of a lock (R325–R332), and the LOCKMON pin (R336). -/
namespace Sys2Proof.Machine

/-! ### Cagan ports -/

/-- Port `p` beside its registers. -/
def State.port (s : State) (p : Nat) : CgSt := SMap.get {} s.cg p

/-- Replaces port `p`. -/
def State.setPort (s : State) (p : Nat) (x : CgSt) : State := { s with cg := SMap.set {} s.cg p x }

/-- Whether TG_CTRL.RUN of pipe `p` is 1 in its active state. -/
def State.runShown (s : State) (p : Nat) : Bool := s.shownGet p (Reg.TG_CTRL_RUN p) == 1

/-- Interrupt source 136 + p: CG_STATUS.STATE is not ACTIVE while TG_CTRL.RUN of pipe p is 1 (Table 14.1). -/
def State.cgLevel (s : State) (p : Nat) : State :=
  s.level (136 + p) (s.runShown p && s.get (Reg.CG_STATUS_STATE p) != 6)

/-- The condition of a condition checker begins (R440). -/
def State.condBegins (s : State) (f : FaultId) : State :=
  if s.fc.conds.contains f.code then s else { s with fc := { s.fc with conds := f.code :: s.fc.conds } }

/-- The condition of a condition checker ends, and the count of QUIET orbits starts (R440). -/
def State.condEnds (s : State) (f : FaultId) : State :=
  if s.fc.conds.contains f.code then
    { s with fc := { s.fc with conds := s.fc.conds.filter fun c => c != f.code,
                               lastReport := SMap.set 0 s.fc.lastReport f.code s.orbit.orbits } }
  else s

/-- The conditions of the Cagan checkers: CG_LINK_DOWN while some port is down, CG_CAPS_MISMATCH while some port stays in CAPS for it. -/
def State.portConds (s : State) : State :=
  let s := s.when (allPipes.all fun p => !(s.port p).down) fun s => s.condEnds .CG_LINK_DOWN
  s.when (allPipes.all fun p => s.get (Reg.CG_STATUS_STATE p) != 2 || !s.is (Reg.CG_STATUS_CAPS_BAD p)) fun s => s.condEnds .CG_CAPS_MISMATCH

/-- The payload of a TS block (R280, R308): type, lane that sends it, STATE, PARAM and WIDTH_EQ. -/
def tsBlock (type lane st param wid : Nat) : Nat := type + lane * 2 ^ 8 + st * 2 ^ 16 + param * 2 ^ 24 + wid * 2 ^ 40

/-- The control block types of Table 12.2 that carry no field. -/
def blkIDLE : Nat := 0x1E
def blkVS : Nat := 0x78
def blkRESUME : Nat := 0xAA
def blkBLANK : Nat := 0xB4
def blkSAFE : Nat := 0xCC

/-- A TS block of port lane `l` in a state of Table 12.4. -/
def blkTS (l st : Nat) : Nat := tsBlock 0x33 l st 0 0

/-- What the lanes of port `p` carry from here on where nothing else is sent (Table 12.4, R309, R316–R318): electrical idle, PRBS31, TS blocks, or
IDLE, with one BLANK or SAFE block in every 64 where the port is in that state. -/
def State.cgFill (s : State) (p : Nat) : State :=
  let each := fun (f : Nat → List (Option Nat × Nat)) => (s.emit (.lanes (some p) [0] (f 0) true)).emit (.lanes (some p) [1] (f 1) true)
  let both := fun (bs : List (Option Nat × Nat)) => s.emit (.lanes (some p) [0, 1] bs true)
  match s.get (Reg.CG_STATUS_STATE p) with
  | 3 => both [(none, 1)]
  | 4 => each fun l => [(some (blkTS l 4), 1), (none, 63)]
  | 5 => each fun l => [(some (blkTS l 5), 1)]
  | 6 => both (match s.get (Reg.CG_STATUS_TX p) with
    | 1 => [(some blkBLANK, 1), (some blkIDLE, 63)]
    | 4 => [(some blkSAFE, 1), (some blkIDLE, 63)]
    | _ => [(some blkIDLE, 1)])
  | _ => both []

/-- The blocks of a training burst on each lane: ceil(128 ns / block time), a block being 66 bits at 6 × (RATE + 1) Gbit/s (R304, R317).
(DEDUCED, log 1204.) -/
def State.burstLen (s : State) (p : Nat) : Nat := cdiv (128 * 6 * (s.get (Reg.CG_STATUS_RATE p) + 1)) 66

/-- A training burst (R317). (DEDUCED, log 1204.) -/
def State.cgBurst (s : State) (p : Nat) : State :=
  let st := s.get (Reg.CG_STATUS_STATE p)
  [0, 1].foldl (fun s l => s.emit (.lanes (some p) [l] [(some (blkTS l st), s.burstLen p)] false)) s

/-- The port takes a training state (Table 12.4; 7 is IDLE, the forward lanes of a Banked pipe). -/
def State.setCgState (s : State) (p st : Nat) : State := ((s.put (Reg.CG_STATUS_STATE p) st).cgLevel p).portConds

/-- What the port sends (CG_STATUS.TX): 0 NORMAL, 1 BLANK, 2 HOLD_SENT, 3 BANKED, 4 SAFE. -/
def State.setTx (s : State) (p tx : Nat) : State := s.put (Reg.CG_STATUS_TX p) tx

/-- Whether port `p` is trained: ACTIVE, or in the electrical idle of a Banked pipe. -/
def State.cgTrained (s : State) (p : Nat) : Bool :=
  s.get (Reg.CG_STATUS_STATE p) == 6 || s.get (Reg.CG_STATUS_STATE p) == 7

/-- Whether the port delivers lines to the panel: ACTIVE, sending the frame schedule. (DEDUCED, log 707.) -/
def State.cgDelivers (s : State) (p : Nat) : Bool :=
  s.get (Reg.CG_STATUS_STATE p) == 6 && (s.get (Reg.CG_STATUS_TX p) == 0 || s.get (Reg.CG_STATUS_TX p) == 2) && !(s.port p).waitFh

/-- The FFE taps reset when the rate changes (R311). -/
def State.resetTaps (s : State) (p : Nat) : State :=
  (((s.put (Reg.CG_EQ_0_PRE p) 2).put (Reg.CG_EQ_0_POST p) 10).put (Reg.CG_EQ_1_PRE p) 2).put (Reg.CG_EQ_1_POST p) 10

/-- The port trains from DETECT at a lane rate (Table 12.4). LINE_ERR counts mismatches since training. -/
def State.cgDetect (s : State) (p rate : Nat) : State :=
  let s := if s.get (Reg.CG_STATUS_RATE p) == rate then s else s.resetTaps p
  let s := (s.put (Reg.CG_STATUS_RATE p) rate).put (Reg.CG_STATUS_BC_LOCK p) 0
  let s := s.put (Reg.CG_ERR_LINE_ERR p) 0
  let s := s.setPort p { s.port p with retraining := false, holdOut := false, status := 0 }
  (s.setCgState p 1).cgFill p

/-- The forward lanes enter electrical idle and the back-channel is not listened to. -/
def State.cgDown (s : State) (p : Nat) : State :=
  let s := s.put (Reg.CG_STATUS_BC_LOCK p) 0
  let s := s.setPort p { s.port p with retraining := false, holdOut := false, down := false }
  ((s.setTx p 0).setCgState p 0).cgFill p

/-- Sends one control block when the port is trained (R308). -/
def State.sendBlock (s : State) (p payload : Nat) : State := s.when (s.cgTrained p) fun s => s.emit (.cgBlock p payload)

/-- HOLD, with FRAME of the frame just sent. -/
def blkHOLD (frame : Nat) : Nat := 0x99 + (frame % 65536) * 2 ^ 8

/-- KEEP, with the current FRAME. -/
def blkKEEP (frame : Nat) : Nat := 0xD2 + (frame % 65536) * 2 ^ 8

/-- The port enters SAFE for a cause (R318): bit 0 the safe state, bit 1 ACTION of BC_E2E_CFG. A Banked port first sends a training
burst, and Banked ends at once (Table 12.6). -/
def State.portSafe (s : State) (p cause : Nat) : State :=
  let s := s.setPort p { s.port p with safe := (s.port p).safe ||| cause, holdOut := false }
  if !s.cgTrained p then s
  else
    let s := s.when (s.get (Reg.CG_STATUS_STATE p) == 7) fun s => s.cgBurst p
    let s := ((s.setCgState p 6).setTx p 4).cgFill p
    match s.mode p with
    | .banked | .bankEntry | .bankExit =>
      (s.setMode p .running).modPipe p fun x => { x with holdSent := false, holdAck := false, wakeNext := false, wakeLate := false }
    | _ => s

/-- A cause of SAFE is cleared; when none is left the port sends RESUME and takes up the frame schedule from the next FH (R318). -/
def State.portSafeEnd (s : State) (p cause : Nat) : State :=
  let x := s.port p
  let left := x.safe - (x.safe &&& cause)
  let s := s.setPort p { x with safe := left }
  if left = 0 ∧ s.get (Reg.CG_STATUS_TX p) = 4 then
    (((s.sendBlock p blkRESUME).setTx p (b2n (s.mode p == .relock))).setPort p { s.port p with waitFh := true }).cgFill p
  else s

/-! ### PLLs -/

/-- PLL `i` beside its registers. -/
def State.pll (s : State) (i : Nat) : PllSt := SMap.get {} s.clk.plls i

/-- Replaces PLL `i`. -/
def State.setPll (s : State) (i : Nat) (x : PllSt) : State := { s with clk := { s.clk with plls := SMap.set {} s.clk.plls i x } }

/-- Whether PLL `i` is locked (PLL_STATUS.STATE 6). -/
def State.pllLocked (s : State) (i : Nat) : Bool := s.get (Reg.PLL_STATUS_STATE i) == 6

/-- Whether PLL `i` lets LOCKMON be high (R336): locked, in a planned relock, or OFF. -/
def State.pllMonOk (s : State) (i : Nat) : Bool :=
  s.pllLocked i || s.get (Reg.PLL_STATUS_STATE i) == 0 || (s.pll i).planned

/-- Whether the LOCKMON pin is high (R336). -/
def State.lockmonHigh (s : State) : Bool :=
  s.emb.main && s.is Reg.CLK_LOCKMON_EN && !s.clk.lockmonHold && (maskBits 15 (s.get Reg.CLK_LOCKMON_MASK)).all fun i => s.pllMonOk i

/-- PLL `i` takes a state (R328); CLK_STATUS.LOCKED follows. -/
def State.setPllState (s : State) (i st : Nat) : State :=
  let s := s.put (Reg.PLL_STATUS_STATE i) st
  let s := s.put Reg.CLK_STATUS_LOCKED (setBit (s.get Reg.CLK_STATUS_LOCKED) i (st == 6))
  s.put Reg.CLK_STATUS_HOLD_REF (b2n (!s.pllLocked 12))

/-- ODIV of R325 for a pixel clock of `num / den` Hz: the smallest even integer with fp × ODIV ≥ 2.0 GHz. -/
def odivOf (num den : Nat) : Nat := if num = 0 then 0 else 2 * max 1 (cdiv (cdiv (2000000000 * den) num) 2)

/-- N = fosc / 25 MHz in units of 2^-24, halves rounded upward (R325), as (NINT, NFRAC). -/
def pllN (num den : Nat) : Nat × Nat :=
  let n := if den = 0 then 0 else (2 * num * odivOf num den * 2 ^ 24 + 25000000 * den) / (2 * 25000000 * den)
  (n / 2 ^ 24, n % 2 ^ 24)

/-- A pixel clock in Hz as a fraction (R171): H_TOTAL × V_TOTAL × refresh in millihertz / 1,000. -/
def pixelClock (hTot vTot fn fd : Nat) : Nat × Nat := (hTot * vTot * fn, 1000 * fd)

/-- Loads the settings of a pixel PLL (R325), which take effect at the relock. -/
def State.loadPll (s : State) (i num den : Nat) : State :=
  let n := pllN num den
  let s := (s.put (Reg.PLL_N_NINT i) n.1).put (Reg.PLL_N_NFRAC i) n.2
  let s := s.put (Reg.PLL_TARGET_HZ i) (if den = 0 then 0 else (2 * num + den) / (2 * den))
  s.put (Reg.PLL_STATUS_ODIV i) (odivOf num den)

/-- The settings of PLLs 12 to 14 (Table 13.1, R342): the oscillator in units of 25 MHz and the principal output in Hz.
(DEDUCED, log 1302.) -/
def internalPll (i : Nat) : Nat × Nat := if i = 12 then (120, 1200000000) else if i = 13 then (128, 1600000000) else (120, 750000000)

/-- Shows the settings of PLL 12, 13 or 14 from the start of its lock. -/
def State.loadInternal (s : State) (i : Nat) : State :=
  ((s.put (Reg.PLL_N_NINT i) (internalPll i).1).put (Reg.PLL_N_NFRAC i) 0).put (Reg.PLL_TARGET_HZ i) (internalPll i).2

/-- The oscillator frequency of PLL `i` in Hz, N × 25 MHz, rounded down (R324, R325). -/
def State.oscHz (s : State) (i : Nat) : Nat :=
  (s.get (Reg.PLL_N_NINT i) * 2 ^ 24 + s.get (Reg.PLL_N_NFRAC i)) * 25000000 / 2 ^ 24

/-- The absolute ceiling of the oscillator in Hz (R327): ODIV × 1.35 GHz, or where the fastest output of an internal PLL (Table 13.1: /2.5, /2, /4)
would reach 1.7 GHz. -/
def State.ceilLimit (s : State) (i : Nat) : Nat :=
  if i < 12 then s.get (Reg.PLL_STATUS_ODIV i) * 1350000000 else if i = 12 then 4250000000 else if i = 13 then 3400000000 else 6800000000

/-- PLL `i` starts a lock (R326–R328, R332): the ceiling and the seed are sampled. (DEDUCED, log 1306.) -/
def State.startLock (s : State) (i : Nat) (planned : Bool) : State :=
  let seed := s.get (Reg.PLL_SEED_SEED i)
  let pm := min 1500 (max 1001 (s.get (Reg.PLL_CEIL_PM i)))
  let s := s.when (12 ≤ i) fun s => s.loadInternal i
  let ceil := min (s.oscHz i * pm / 1000) (s.ceilLimit i)
  let s := s.setPll i { s.pll i with planned, ceil, seed := if seed = 0 then 1 else seed }
  s.setPllState i 1

/-- PLL `i` stops (R330). -/
def State.stopPll (s : State) (i : Nat) : State :=
  let s := s.setPll i { s.pll i with planned := false, retry := false }
  (s.put (Reg.PLL_MEAS_HZ i) 0).setPllState i 0

end Sys2Proof.Machine
end

