-- ==== Sys2Proof/Machine/SafeOps.lean ====
section
/-! DEFINITION. DMA channels, codec sessions and the Aknum link as the entry to the safe state and a reset leave them (R224, R298, Table
18.4): accessors, the status registers of a channel, the start of an abort, closing of sessions, and the codec's figures (R241,
R257). -/
namespace Sys2Proof.Machine

/-! ### DMA channels -/

/-- DMA channel `c` beside its registers. -/
def State.chan (s : State) (c : Nat) : Chan := SMap.get {} s.dma.chans c

/-- Replaces DMA channel `c`. -/
def State.setChan (s : State) (c : Nat) (x : Chan) : State := { s with dma := { s.dma with chans := SMap.set {} s.dma.chans c x } }

/-- The bytes of a descriptor. -/
def Desc.bytes (d : Desc) : Nat := d.rowBytes * d.rows

/-- The open requests of channel `c`. -/
def State.openReqs (s : State) (c : Nat) : List Req := s.dma.reqs.filter fun r => r.chan == c

/-- The bytes of channel `c` that await a Hearth acknowledgement. -/
def State.ackBytes (s : State) (c : Nat) : Nat :=
  sumNat ((s.hm.writes.filter fun w => w.writer == c).map fun w => w.bytes.length)

/-- CH_STATUS.STATE of channel `c` (R228). -/
def State.chState (s : State) (c : Nat) : Nat :=
  let x := s.chan c
  let busy := x.cur.isSome || !x.pre.isEmpty || x.reading.isSome || x.result.isSome || !x.lists.isEmpty || x.next != 0 ||
    x.reload.isSome
  if x.aborting then 4
  else if x.stopAt.isSome && x.cur.isNone && x.pre.isEmpty then 5
  else if busy && s.is (Reg.CH_CTRL_PAUSE c) && (s.openReqs c).isEmpty then 3
  else if x.cur.isSome then 2
  else if busy then 1
  else 0

/-- Brings the status registers of channel `c` up to date (R228). -/
def State.refreshChan (s : State) (c : Nat) : State :=
  let x := s.chan c
  let s := s.put (Reg.CH_STATUS_STATE c) (s.chState c)
  let s := (s.put (Reg.CH_STATUS_QUEUED c) (x.lists.length - x.again)).put (Reg.CH_STATUS_PREFETCHED c) x.pre.length
  let s := s.put (Reg.CH_STATUS_FILL_OPEN c) (match x.fill with
    | some f => b2n (f.started && !f.dropped)
    | none => 0)
  let s := match x.cur with
    | some u => ((s.put (Reg.CH_CUR_LO_ADDR c) (u.d.addr % 2 ^ 32)).put (Reg.CH_CUR_HI_ADDR c) (u.d.addr / 2 ^ 32)).put
        (Reg.CH_REMAIN_BYTES c) ((u.d.bytes - u.asked) % 2 ^ 32)
    | none => ((s.put (Reg.CH_CUR_LO_ADDR c) 0).put (Reg.CH_CUR_HI_ADDR c) 0).put (Reg.CH_REMAIN_BYTES c) 0
  let s := (s.put (Reg.CH_OPEN_REQUESTS c) (s.openReqs c).length).put (Reg.CH_OPEN_ACK_KIB c) (cdiv (s.ackBytes c) 1024)
  let dl := match x.deadline with
    | some t => (t - s.kin.resetAt) % 2 ^ 64
    | none => 2 ^ 64 - 1
  (s.put (Reg.CH_DEADLINE_LO_DEADLINE c) (dl % 2 ^ 32)).put (Reg.CH_DEADLINE_HI_DEADLINE c) (dl / 2 ^ 32)

/-- ABORT of channel `c` begins (R224): issuing stops; prefetched descriptors and queued lists are discarded; open requests drain. -/
def State.beginAbort (s : State) (c : Nat) : State :=
  if s.get (Reg.CH_STATUS_STATE c) = 0 then s
  else
    let x := s.chan c
    (s.setChan c { x with aborting := true, pre := [], lists := [], again := 0, next := 0, reading := none, result := none,
                          retry := false, reload := none, stopAt := none }).refreshChan c

/-! ### Codec sessions -/

/-- Decoder session `i` beside its registers. -/
def State.dses (s : State) (i : Nat) : DecSes := SMap.get {} s.dec.ses i

/-- Replaces decoder session `i`. -/
def State.setDses (s : State) (i : Nat) (x : DecSes) : State := { s with dec := { s.dec with ses := SMap.set {} s.dec.ses i x } }

/-- Encoder session `i` beside its registers. -/
def State.eses (s : State) (i : Nat) : EncSes := SMap.get {} s.enc.ses i

/-- Replaces encoder session `i`. -/
def State.setEses (s : State) (i : Nat) (x : EncSes) : State := { s with enc := { s.enc with ses := SMap.set {} s.enc.ses i x } }

/-- The decoder sessions and the encoder sessions. -/
def decSessions : List Nat := rangeFrom 0 16
def encSessions : List Nat := rangeFrom 0 12

/-- The open decoder sessions. -/
def State.openDec (s : State) : List Nat := decSessions.filter fun i => s.get (Reg.DS_STATUS_STATE i) != 0

/-- P of R241: the luma samples of the largest picture of decoder session `i`. -/
def State.decP (s : State) (i : Nat) : Nat := s.get (Reg.DS_GEOM_W i) * s.get (Reg.DS_GEOM_H i)

/-- E of R241: the cells of one DPB entry of decoder session `i`. -/
def State.decE (s : State) (i : Nat) : Nat :=
  let p := s.decP i
  let q := if s.is (Reg.DS_PARAM_DEPTH i) then 2 else 1
  cdiv (p * q) 65536 + cdiv (p * q / 2) 65536 + cdiv (cdiv p 16) 65536

/-- The cells of decoder session `i` (R241). -/
def State.decCells (s : State) (i : Nat) : Nat := (s.get (Reg.DS_PARAM_DPB i) + 1) * s.decE i

/-- The Hearth bandwidth of decoder session `i` in MB/s (R241). -/
def State.decHbw (s : State) (i : Nat) : Nat :=
  let b2 := if s.is (Reg.DS_PARAM_DEPTH i) then 6 else 3
  cdiv (7 * b2 * s.decP i * s.get (Reg.DS_RATE_MHZ i)) (2 * 1000 * 1000000)

/-- The link figure of decoder session `i` in Mbit/s (R241). -/
def State.decLink (s : State) (i : Nat) : Nat := cdiv (s.get (Reg.DS_KBPS_KBPS i) * 4232) 4096000

/-- The codec term of R35 in mW for a set of sessions (R241). -/
def State.decPower (s : State) (is : List Nat) : Nat :=
  if is.isEmpty then 0
  else cdiv (sumNat (is.map fun i => 50 * 10000000000 + 13 * s.decP i * s.get (Reg.DS_RATE_MHZ i)) + 200 * 10000000000) 10000000000

/-- Brings DEC_STATUS.OPEN and the DEC_ADM registers up to date (R241, R252). -/
def State.refreshDec (s : State) : State :=
  let is := s.openDec
  let mw := s.decPower is
  let s := s.put Reg.DEC_STATUS_OPEN (is.foldl (fun m i => m + 2 ^ i) 0)
  let s := (s.put Reg.DEC_ADM_CELLS_CELLS (sumNat (is.map s.decCells))).put Reg.DEC_ADM_HBW_MBPS (sumNat (is.map s.decHbw))
  let s := (s.put Reg.DEC_ADM_LINK_MBITPS (sumNat (is.map s.decLink))).put Reg.DEC_ADM_POWER_MW mw
  let s := s.put Reg.DEC_ADM_POWER_TOKENS (cdiv mw 125)
  s.put Reg.DEC_ADM_LUMA_MSPS (cdiv (sumNat (is.map fun i => s.decP i * s.get (Reg.DS_RATE_MHZ i))) 1000000000)

/-- Pc of R257: the cells of one picture of encoder session `i`. -/
def State.encPc (s : State) (i : Nat) : Nat :=
  let q := if s.is (Reg.ES_CFG_DEPTH i) then 2 else 1
  let y := 32 * cdiv (s.get (Reg.ES_GEOM_W i)) 32 * (32 * cdiv (s.get (Reg.ES_GEOM_H i)) 32) * q
  cdiv y 65536 + cdiv (y / 2) 65536

/-- The cells of encoder session `i` (R257). -/
def State.encCells (s : State) (i : Nat) : Nat := 3 * s.encPc i + s.get (Reg.ES_OUT_CELLS i)

/-- The encoder sessions that are not CLOSED. -/
def State.openEnc (s : State) : List Nat := encSessions.filter fun i => s.get (Reg.ES_STATUS_STATE i) != 0

/-- Brings ENC_CELLS and ENC_STATUS.OPEN up to date (R257, R273). -/
def State.refreshEnc (s : State) : State :=
  let is := s.openEnc
  (s.put Reg.ENC_CELLS_CELLS (sumNat (is.map s.encCells))).put Reg.ENC_STATUS_OPEN (is.foldl (fun m i => m + 2 ^ i) 0)

/-- Releases the cells that a codec session holds: decoder session `i` is number i, encoder session `i` number 32 + i. -/
def State.freeCodec (s : State) (n : Nat) : State := { s with hm := { s.hm with codecCells := SMap.set [] s.hm.codecCells n [] } }

/-- A writer's work in Hearth ends: nothing of it is in flight or in progress any more. -/
def State.dropWriter (s : State) (w : Nat) : State :=
  { s with hm := { s.hm with writes := s.hm.writes.filter (fun x => x.writer != w),
                             writers := s.hm.writers.filter (fun x => x.1 != w),
                             writeErr := s.hm.writeErr.filter (fun x => x != w),
                             writeRemap := s.hm.writeRemap.filter (fun x => x != w) } }

/-- A writer stops, and what it wrote into a buffer that is not SEALED is no longer followed (R85). -/
def State.quitWriter (s : State) (w : Nat) : State :=
  let s := s.dropWriter w
  { s with hm := { s.hm with unsealed := s.hm.unsealed.filter fun u => u.writer != w } }

/-- Decoder session `i` becomes CLOSED, its picture given up and nothing output (Table 09.3). -/
def State.closeDec (s : State) (i : Nat) : State :=
  let b := (s.dses i).busy
  let s := if (s.dses i).cur.isSome then s.put Reg.DEC_STATUS_BUSY 0 else s
  (((s.setDses i { busy := b }).put (Reg.DS_STATUS_STATE i) 0).freeCodec i).quitWriter (128 + i)

/-- Encoder session `i` becomes CLOSED, its queue discarded (R272). -/
def State.closeEnc (s : State) (i : Nat) : State :=
  let b := (s.eses i).busy
  let s := if (s.eses i).coding.isSome then s.put Reg.ENC_STATUS_BUSY 0 else s
  let s := { s with enc := { s.enc with order := s.enc.order.filter fun j => j != i } }
  (((s.setEses i { busy := b }).put (Reg.ES_STATUS_STATE i) 0).put (Reg.ES_OUT_LEVEL_BYTES i) 0).freeCodec (32 + i)

/-- Every codec session becomes CLOSED without output. -/
def State.closeCodec (s : State) : State :=
  let s := decSessions.foldl (fun s i => if s.get (Reg.DS_STATUS_STATE i) = 0 then s else s.closeDec i) s
  let s := encSessions.foldl (fun s i => if s.get (Reg.ES_STATUS_STATE i) = 0 then s else s.closeEnc i) s
  s.refreshDec.refreshEnc

/-! ### Aknum -/

/-- The inbound lanes, the outbound lanes and all lanes of the link (R303). -/
def inLanes : List Nat := rangeFrom 0 16
def outLanes : List Nat := rangeFrom 16 4
def akLanes : List Nat := rangeFrom 0 20

/-- The lanes of a list that are active (LN_STATUS.STATE 1). -/
def State.activeLanes (s : State) (ls : List Nat) : List Nat := ls.filter fun l => s.get (Reg.LN_STATUS_STATE l) == 1

/-- The link enters a state of Table 11.3: AK_STATUS and the input of source 190 follow. -/
def State.setAkState (s : State) (st : Nat) : State :=
  let width := fun (ls : List Nat) => if st = 6 then (s.activeLanes ls).length else 0
  let s := (s.put Reg.AK_STATUS_IN_WIDTH (width inLanes)).put Reg.AK_STATUS_OUT_WIDTH (width outLanes)
  (s.put Reg.AK_STATUS_STATE st).level 190 (st != 6 && st != 7)

/-- Queues a packet outbound. -/
def State.akSend (s : State) (x : Pkt) : State := { s with ak := { s.ak with queue := s.ak.queue ++ [x] } }

/-- Queues a LINK flit (Table 11.5). -/
def State.akLink (s : State) (bs : List Byte) : State := { s with ak := { s.ak with links := s.ak.links ++ [bs] } }

/-- The FATAL report of R298: a LINK flit with the fault code, then FATAL in every flit. -/
def State.akFatal (s : State) (code : Nat) : State :=
  (s.put Reg.AK_STATUS_FATAL_TX 1).akLink ([5#8, 0#8] ++ leBytes 2 code)

/-! ### A flit leaves (R283–R285) -/

/-- The CRC-32 over bytes 0–251 of a flit. -/
def flitCrc (bs : List Byte) : Nat := crcFinal (crc32Update 0xFFFFFFFF (bs.take 252))

/-- The finite VCs in the order of their credit returns. -/
def crOrder : List Nat := [0, 1, 3]

/-- Sends a flit with the trailer and the credit returns of this moment. -/
def State.emitFlit (s : State) (kind fps seq : Nat) (payload : List Byte) : State :=
  let a := crOrder.getD (s.ak.crNext % 3) 0
  let b := crOrder.getD ((s.ak.crNext + 1) % 3) 0
  let fatal := s.get Reg.FC_STATUS_SAFE
  let head := kind * 2 ^ 60 + fatal * 2 ^ 59 + fps * 2 ^ 54 + a * 2 ^ 50 + s.ak.got.getD a 0 * 2 ^ 36 + b * 2 ^ 34 + s.ak.got.getD b 0 * 2 ^ 20
  let ack := (s.get Reg.AK_SEQ_RX_EXPECT + 4095) % 4096
  let low := seq * 2 ^ 20 + ack * 2 ^ 8 + b2n s.ak.nak * 2 ^ 7
  let body := leBytes 8 head ++ padTo payload 240 ++ leBytes 4 low
  let l := s.get Reg.AK_INJ_LANE
  let hit := s.is Reg.AK_INJ_SYNC && (s.activeLanes outLanes).contains l
  let s := s.when hit fun s => s.put Reg.AK_INJ_SYNC 0
  let told := setAt (setAt s.ak.told a (s.ak.got.getD a 0)) b (s.ak.got.getD b 0)
  let s := { s with ak := { s.ak with nak := false, ackDue := false, crNext := (s.ak.crNext + 2) % 3, told } }
  s.emit (.akFlit (body ++ leBytes 4 (flitCrc body)) (if hit then some l else none))

/-- Sends an IDLE flit. -/
def State.emitIdle (s : State) : State := s.emitFlit 0 31 (s.get Reg.AK_SEQ_TX_NEXT) []

/-- Sends a new flit, which stays in the replay buffer until it is acknowledged. -/
def State.emitNew (s : State) (kind fps : Nat) (payload : List Byte) (pkts : List Pkt) : State :=
  let seq := s.get Reg.AK_SEQ_TX_NEXT
  let s := s.put Reg.AK_SEQ_TX_NEXT ((seq + 1) % 4096)
  let s := { s with ak := { s.ak with unacked := s.ak.unacked ++ ([⟨seq, kind, fps, padTo payload 240, pkts, 0⟩] : List TxFlit) } }
  s.emitFlit kind fps seq payload

/-- The TD96 holds 256 outbound flits in its replay buffer. -/
def replayBuffer : Nat := 256

/-- The link goes to DOWN for an entry into SMOULDER or EMBER: an ACTIVE link that has room for one more flit sends IDLE_ENTER first (R400).
(DEDUCED, log 1601.) -/
def State.akPark (s : State) : State :=
  let can := s.get Reg.AK_STATUS_STATE == 6 && s.ak.unacked.length < replayBuffer && s.ak.replayAt.isNone
  (s.when can fun s => s.emitNew 2 31 [4#8] []).setAkState 0

end Sys2Proof.Machine
end

