-- ==== Sys2Proof/Machine/FaultOps.lean ====
section
/-! DEFINITION. A report to the fault collector (R435–R449): latching, logging, FC_FIRST, the class lines, and the entry to the safe
state (Table 18.4). Every checker of the device reports through `State.fault`. -/
namespace Sys2Proof.Machine

/-- The LATCHED bits of group `g` whose fault is treated as FT: rows of class FT, and rows of class CC while the group is
escalated (R439). -/
def State.ftMask (s : State) (g : Nat) : Nat :=
  classMask g .ft ||| (if bit (s.get Reg.FC_CFG_ESCALATE) (g - 1) then classMask g .cc else 0)

/-- The LATCHED bits of group `g` that count as CC. -/
def State.ccMask (s : State) (g : Nat) : Nat :=
  if bit (s.get Reg.FC_CFG_ESCALATE) (g - 1) then 0 else classMask g .cc

/-- The fault groups (Table 18.1). -/
def faultGroups : List Nat := [1, 2, 3, 4, 5, 6, 7, 8, 9, 10, 11, 12, 13, 14]

/-- Whether some LATCHED bit is set that `mask` selects in its group, in a group that `en` admits. -/
def State.anyLatched (s : State) (mask : Nat → Nat) (en : Nat → Bool) : Bool :=
  faultGroups.any fun g => en g && (s.get (Reg.FC_STAT_LATCHED g) &&& mask g) != 0

/-- Whether the LATCHED bit of a fault is 0. (DEDUCED, log 609.) -/
def State.cleared (s : State) (f : FaultId) : Bool := !bit (s.get (Reg.FC_STAT_LATCHED (faultGroup f.code))) (faultRow f.code - 1)

/-- Brings FC_STATUS.CE, CC, FT and the inputs of sources 192, 193 and 194 up to date with the LATCHED bits (R443). -/
def State.faultLines (s : State) : State :=
  let irq := fun g => bit (s.get Reg.FC_IRQ_EN_GROUPS) (g - 1)
  let ce := fun g => classMask g .ce
  let s1 := s.put Reg.FC_STATUS_CE (b2n (s.anyLatched ce fun _ => true))
  let s2 := s1.put Reg.FC_STATUS_CC (b2n (s.anyLatched s.ccMask fun _ => true))
  let s3 := s2.put Reg.FC_STATUS_FT (b2n (s.anyLatched s.ftMask fun _ => true))
  ((s3.level 192 (s.anyLatched ce irq)).level 193 (s.anyLatched s.ccMask irq)).level 194 (s.anyLatched s.ftMask irq)

/-- Holds service core `c` (2 or 3) in reset (R356): its target offers nothing and its stack is emptied. -/
def State.holdCore (s : State) (c : Nat) : State :=
  let s := s.emptyStack c
  let s := s.setTgt c { s.tgt c with held := true, idle := false }
  if c = 2 then { s with fc := { s.fc with heldMc2 := true } } else { s with fc := { s.fc with heldMc3 := true } }

/-- Appends to the fault log, which keeps 32 entries (R443). -/
def State.logFault (s : State) (e : LogEntry) : State :=
  ({ s with fc := { s.fc with log := (e :: s.fc.log).take 32 } }).count Reg.FC_LOG_CNT_COUNT 1

/-- The steps of Table 18.4: Glow low; SAFE on every trained port; FATAL on Aknum; MC2 and MC3 held; DMA channels aborted and codec sessions
closed; backlights off where PNL_CFG.SAFE_BL asks for it. -/
def State.safeSteps (s : State) : State :=
  let s := { s with fc := { s.fc with glow := false } }
  let s := forAll allPipes (fun p s => s.portSafe p 1) s
  let s := s.akFatal (s.get Reg.FC_FIRST_CODE)
  let s := (s.holdCore 2).holdCore 3
  let s := forAll (rangeFrom 0 112) (fun c s => s.beginAbort c) s
  let s := s.closeCodec
  forAll allPipes (fun p s =>
    if s.is (Reg.PNL_CFG_SAFE_BL p) then
      (s.modPipe p fun x => { x with blPin := false, pwmOn := false }).put (Reg.PNL_OUT_BL_PIN p) 0
    else s) s

/-- Entry to the safe state (R447). -/
def State.enterSafe (s : State) : State := s.safeSteps.put Reg.FC_STATUS_SAFE 1

/-- FC_FIRST keeps the first report of class CC or FT since VALID was last cleared (R443). (DEDUCED, log 1802.) -/
def State.keepFirst (s : State) (f : FaultId) (ft inj esc : Bool) : State :=
  if s.is Reg.FC_FIRST_VALID then s
  else
    let s := (((s.put Reg.FC_FIRST_VALID 1).put Reg.FC_FIRST_INJ (b2n inj)).put Reg.FC_FIRST_ESC (b2n esc)).put Reg.FC_FIRST_CLASS (if ft then 3 else 2)
    let s := s.put Reg.FC_FIRST_CODE f.code
    { s with fc := { s.fc with firstStamp := s.orbit.stamp } }

/-- What a report treated as FT starts (R447–R449, R451): the safe state; a warm Kindling in progress stops; the hard safe state; the safety
pair held in reset. -/
def State.fatal (s : State) (f : FaultId) : State :=
  let safe := s.is Reg.FC_STATUS_SAFE
  let s := if safe && s.kin.cause == 3 && s.kin.phase < 4 then { s with kin := { s.kin with halted := true } } else s
  let s := s.when (f == .FC_REG_MISMATCH) fun s => s.put Reg.FC_STATUS_HARD 1
  let s := s.when (f == .SP_LOCKSTEP || f == .SP_WDT || f == .SP_SRAM_UNCORR) fun s => s.put Reg.FC_STATUS_PAIR_HELD 1
  s.when (!safe) State.enterSafe

/-- The orbit count of the last report of a fault (R440). (DEDUCED, log 1801.) -/
def State.stampReport (s : State) (f : FaultId) : State :=
  { s with fc := { s.fc with lastReport := SMap.set 0 s.fc.lastReport f.code s.orbit.orbits } }

/-- The report is latched, counted and logged (R440, R443). -/
def State.latch (s : State) (f : FaultId) (cls : FClass) (inj esc : Bool) : State :=
  let g := faultGroup f.code
  let m := 2 ^ (faultRow f.code - 1)
  let s := (s.count (if cls == .ce then Reg.FC_CNT_CE g else Reg.FC_CNT_CC_FT g) 1).stampReport f
  let s := s.logFault ⟨f.code, cls, inj, esc, s.orbit.stamp % 2 ^ 32⟩
  (s.orBits (Reg.FC_STAT_LATCHED g) m).orBits (Reg.FC_STAT_ACTIVE g) m

/-- A report of fault `f` reaches the collector (R437, R439, R440, R443, R447–R449). `inj` marks an injected report (R452). An
FT reported during a warm Kindling stops it (R451). -/
def State.fault (s : State) (f : FaultId) (inj : Bool := false) : State :=
  let esc := f.cls == .cc && bit (s.get Reg.FC_CFG_ESCALATE) (faultGroup f.code - 1)
  let ft := f.cls == .ft || esc
  let s := s.when (f.cls != .ce) fun s => s.keepFirst f ft inj esc
  let s := s.when ft fun s => s.fatal f
  (s.latch f (if ft then .ft else f.cls) inj esc).faultLines

/-- The condition of a condition checker holds or ends (R440): its start is a report, its end starts the QUIET count. -/
def State.condition (s : State) (f : FaultId) (b : Bool) (inj : Bool := false) : State :=
  if b then (if s.fc.conds.contains f.code then s else (s.condBegins f).fault f inj) else s.condEnds f

/-- An event that raises a condition checker's fault, whose condition then holds (R440). -/
def State.faultHeld (s : State) (f : FaultId) (inj : Bool := false) : State := (s.condBegins f).fault f inj

/-! ### Output pins -/

/-- Whether the FAULT_N pin is low (R446): during Kindling, in the safe state, and where a latched CC pulls it low; released while parked and
without the Ember supplies (R489). -/
def State.faultNLow (s : State) : Bool :=
  s.emb.supply && !(s.emb.parked && !s.emb.waking && !s.kin.pgoodLoss) &&
    (s.kin.phase != 4 || s.is Reg.FC_STATUS_SAFE || s.kin.pgoodLoss ||
      (s.is Reg.FC_CFG_FAULTN_CC && s.anyLatched s.ccMask fun _ => true))

/-- Whether the GLOW pin is high (R444): as the collector toggles it, and low in the safe state and without the main domain. -/
def State.glowHigh (s : State) : Bool := s.emb.main && s.fc.glow && !s.is Reg.FC_STATUS_SAFE

/-- The levels that the state drives on the output pins. (DEDUCED, log 12.) -/
def State.pinLevels (s : State) : PinSt := ⟨s.faultNLow, s.glowHigh, s.lockmonHigh⟩

/-- The output pins follow the state. (DEDUCED, log 12.) -/
def State.settled (s : State) : State := { s with pins := s.pinLevels }

/-- Every meaning answers through this: the next state of a total effect, with the output pins at its levels. -/
def done (s : State) : Host.Outcome State Fault Refusal := .next s.settled

/-! ### Service SRAM (Table 18.2) -/

/-- The region of the service SRAM in which an address lies, as FC_INJ.REGION numbers them: the safety pair's, the service cores', the
glyph store and atlas; 4 outside. -/
def sramRegion (a : Nat) : Nat :=
  if (0x10000000 ≤ a ∧ a < 0x10200000) ∨ (0x10C00000 ≤ a ∧ a < 0x10E00000) then 0
  else if (0x10200000 ≤ a ∧ a < 0x10400000) ∨ (0x10E00000 ≤ a ∧ a < 0x11000000) then 1
  else if 0x10400000 ≤ a ∧ a < 0x10C00000 then 2
  else 4

/-- A word of a region reads uncorrectable. In the service cores' region the reading service core `core` is held in reset. -/
def State.sramUncorr (s : State) (region core : Nat) (inj : Bool) : State :=
  if region = 0 then s.fault .SP_SRAM_UNCORR inj
  else
    (s.when (region == 1 && (core == 2 || core == 3)) fun s => s.holdCore core).fault .SVC_SRAM_UNCORR inj

/-- A read of the service SRAM at `a` by core `core` (0 for any other reader) meets an armed FC_INJ.SRAM of its region.
(DEDUCED, log 306.) -/
def State.sramStrike (s : State) (a core : Nat) : State :=
  if s.is Reg.FC_INJ_SRAM && s.get Reg.FC_INJ_REGION == sramRegion a then (s.put Reg.FC_INJ_SRAM 0).sramUncorr (sramRegion a) core true else s

end Sys2Proof.Machine
end

