-- ==== Sys2Proof/Machine/HearthOps.lean ====
section
/-! DEFINITION. Hearth: cells, channels and the allocator (R58–R66), reads under Table 03.4 with the classification and the log of
R73, stored and injected errors (R77), writes by handle (R61, R75, R79), pinning (R45), and the counters of R85. -/
namespace Sys2Proof.Machine

/-- The channel of a cell (R58). -/
def chanOf (cell : Nat) : Nat := cell % 8

/-- The channel of a physical address. -/
def chanOfAddr (a : Nat) : Nat := chanOf (a / 65536)

/-- Whether channel `c` is fenced. -/
def State.fenced (s : State) (c : Nat) : Bool := bit (s.get Reg.HM_STATUS_FENCED) c

/-- Whether channel `c` is fenced as unreadable. -/
def State.unreadable (s : State) (c : Nat) : Bool := bit (s.get Reg.HM_STATUS_UNREADABLE) c

/-- The unfenced channels, ascending. -/
def State.unfenced (s : State) : List Nat := (allSlots).filter fun c => !s.fenced c

/-- The metadata cells: the highest-numbered cell of each channel (R65). -/
def isMetaCell (c : Nat) : Bool := 4088 ≤ c && c < 4096

/-- C_rsv (R65): HEARTH_RSV.CELLS limited to 8–256. -/
def State.cRsv (s : State) : Nat := min 256 (max 8 (s.get Reg.HEARTH_RSV_CELLS))

/-- C_avail (R32), over the unfenced channels that CAPACITY counts: a cleared channel counts once its cells are back (R80). -/
def State.cAvail (s : State) : Nat := 512 * s.get Reg.CAPACITY_HEARTH_CH

/-- The cells that handles hold. -/
def State.handleCells (s : State) : List Nat := (s.hm.handles.map fun e => e.2.cells.flatten).flatten

/-- The cells that codec sessions hold. -/
def State.codecHeld (s : State) : List Nat := (s.hm.codecCells.map fun e => e.2).flatten

/-- Every allocated cell. -/
def State.heldCells (s : State) : List Nat := s.handleCells ++ s.codecHeld

/-- The free cells of channel `c` outside the metadata cells, ascending. -/
def State.freeIn (s : State) (c : Nat) (held : List Nat) : List Nat :=
  ((rangeFrom 0 511).map fun i => 8 * i + c).filter fun x => !held.contains x && !s.hm.zeroing.contains c

/-- The number of cells of channel `c` that are held. -/
def heldIn (c : Nat) (held : List Nat) : Nat := (held.filter fun x => chanOf x == c).length

/-- The number of free cells of an unfenced channel (a channel being zero-initialised has none yet, R80). -/
def State.freeCount (s : State) (c : Nat) (held : List Nat) : Nat :=
  if s.hm.zeroing.contains c then 0 else 511 - heldIn c held

/-- The unfenced channel with the most free cells, the lowest-numbered on a tie (R63). -/
def State.startChannel (s : State) (held : List Nat) : Option Nat :=
  s.unfenced.foldl (fun best c =>
    match best with
    | none => some c
    | some b => if s.freeCount b held < s.freeCount c held then some c else some b) none

/-- The first channel of `cs` that has a free cell outside `held`, with its lowest-numbered free cell and the channels that
follow it in the cycle. -/
def State.nextCell (s : State) (held : List Nat) : List Nat → Option (Nat × Nat)
  | [] => none
  | c :: cs =>
    match s.freeIn c held with
    | x :: _ => some (c, x)
    | [] => s.nextCell held cs

/-- The cycle of unfenced channels from channel `c` on (R63). -/
def cycleFrom (us : List Nat) (c : Nat) : List Nat := (us.filter fun x => c ≤ x) ++ us.filter fun x => x < c

/-- The channel that follows `c` in the cycle of unfenced channels. -/
def cycleNext (us : List Nat) (c : Nat) : Nat :=
  match us.filter fun x => c < x with
  | x :: _ => x
  | [] => us.headD 0

/-- Places `n` cell entries of a plane from channel `c` on (R63); with fewer free cells than entries it answers `none`. -/
def State.placeFrom (s : State) (held : List Nat) (c : Nat) : Nat → Option (List Nat)
  | 0 => some []
  | n + 1 =>
    match s.nextCell held (cycleFrom s.unfenced c) with
    | none => none
    | some (ch, x) =>
      match s.placeFrom (x :: held) (cycleNext s.unfenced ch) n with
      | none => none
      | some xs => some (x :: xs)

/-- Places the cells of one plane (R63). -/
def State.placePlane (s : State) (held : List Nat) (size : Nat) : Option (List Nat) :=
  match s.startChannel held with
  | none => none
  | some c => s.placeFrom held c (cdiv size 65536)

/-- Places the cells of a list of planes, one after another. -/
def State.placePlanes (s : State) (held : List Nat) : List Nat → Option (List (List Nat))
  | [] => some []
  | z :: zs =>
    match s.placePlane held z with
    | none => none
    | some xs =>
      match s.placePlanes (held ++ xs) zs with
      | none => none
      | some ys => some (xs :: ys)

/-- The cells by which free cells fall short of a list of planes, at least 1: what REJ_HEARTH_SPACE reports where the count of check 3 fits and
no cell is left to give, as while a channel is zero-initialised (R63, R80). (DEDUCED, log 914.) -/
def State.cellsShort (s : State) (zs : List Nat) : Nat :=
  max 1 (sumNat (zs.map fun z => cdiv z 65536) - sumNat (s.unfenced.map fun c => s.freeCount c s.heldCells))

/-- HM_FREE: the limit of R63 and the unallocated cells in unfenced channels, the reserve excluded. -/
def State.freeLimit (s : State) : Nat := s.cAvail - s.cRsv

/-- The unallocated cells in unfenced channels, the reserve excluded (FREE.FREE_CELLS). -/
def State.freeCells (s : State) : Nat :=
  let held := s.heldCells
  sumNat (s.unfenced.map fun c => 512 - heldIn c held) - s.cRsv

/-- Whether a handle holds a cell in a fenced channel. -/
def State.fenceHit (s : State) (h : Handle) : Bool := h.cells.flatten.any fun c => s.fenced (chanOf c)

/-! ### Pinning (R45) -/

/-- Whether slot `k` of pipe `p` of an image is enabled on a running pipe and names buffer `h`. -/
def imgNames (m : List (Nat × Word)) (p k h : Nat) : Bool :=
  imgGet m (Reg.TG_CTRL_RUN p) == 1 && imgGet m (Reg.SL_CTRL_ENABLE p k) == 1 && imgGet m (Reg.SL_HANDLE_HANDLE p k) == h

/-- Whether an image of pipe `p` names buffer `h` in any slot. -/
def imgNamesAny (m : List (Nat × Word)) (p h : Nat) : Bool := allSlots.any fun k => imgNames m p k h

/-- Whether a pending commit names buffer `h`; a commit taken at a commit line and shown from the next boundary still
counts. -/
def State.pendNames (s : State) (h : Nat) : Bool :=
  s.pipes.any fun e =>
    e.2.pend.any (fun c => imgNamesAny c.img e.1 h) ||
      (match e.2.next with
        | none => false
        | some n => imgNamesAny n.img e.1 h)

/-- Whether a held slot waits for buffer `h`. -/
def State.heldNames (s : State) (h : Nat) : Bool :=
  let names := fun p k m => imgGet m (Reg.SL_HANDLE_HANDLE p k) == h
  s.pipes.any fun e =>
    (e.2.slots.any fun k => k.2.held && names e.1 k.1 k.2.wait) ||
      (match e.2.next with
        | none => false
        | some n => n.held.any fun k => names e.1 k.1 k.2)

/-- Whether buffer `h` is pinned (R45). -/
def State.pinned (s : State) (h : Nat) : Bool := (s.handle h).st == .shown || s.pendNames h || s.heldNames h

/-- Whether a DMA descriptor (writers 0 to 111) or a decoder picture (128 to 143) that targets handle `h` is in progress (R64). -/
def State.busyDma (s : State) (h : Nat) : Bool := s.hm.writers.any fun w => w.2 == h && w.1 < 144

/-- Writer `w` begins work that targets handle `h`. -/
def State.beginWriter (s : State) (w h : Nat) : State :=
  { s with hm := { s.hm with writers := (w, h) :: s.hm.writers.filter fun x => x.1 != w } }

/-- Writer `w` has no work in progress. -/
def State.endWriter (s : State) (w : Nat) : State :=
  { s with hm := { s.hm with writers := s.hm.writers.filter fun x => x.1 != w } }

/-! ### Addresses by handle (R61) -/

/-- The physical address of byte `off` of plane `pl` of a handle; `none` outside the plane. -/
def Handle.addr (h : Handle) (pl off : Nat) : Option Nat :=
  match h.sizes[pl]?, h.cells[pl]? with
  | some z, some cs =>
    if off < z then (cs[off / 65536]?).map fun c => c * 65536 + off % 65536 else none
  | _, _ => none

/-- The bytes [off, off + n) of a plane of handle `h`; bytes outside the plane read as 0. -/
def State.planeBytes (s : State) (h pl off n : Nat) : List Byte :=
  (rangeFrom off n).map fun o =>
    match (s.handle h).addr pl o with
    | some a => s.hmByte a
    | none => 0#8

/-- The bytes [off, off + n) of a run of cells that belongs to a codec session; bytes outside it read as 0. -/
def State.cellsBytes (s : State) (cs : List Nat) (off n : Nat) : List Byte :=
  (rangeFrom off n).map fun o =>
    match cs[o / 65536]? with
    | some c => s.hmByte (c * 65536 + o % 65536)
    | none => 0#8

/-- The handle that holds a cell. -/
def State.handleOfCell (s : State) (cell : Nat) : Option Nat :=
  (s.hm.handles.find? fun e => e.2.cells.any fun cs => cs.contains cell).map fun e => e.1

/-! ### Traffic counters (R85) -/

/-- Adds `n` words to a channel's counter, saturating at 0xFFFF_FFFF. -/
def bumpChan (m : List (Nat × Nat)) (c n : Nat) : List (Nat × Nat) := SMap.set 0 m c (satAdd (SMap.get 0 m c) n 0xFFFFFFFF)

/-- Counts words read in channel `c`. -/
def State.countRd (s : State) (c n : Nat) : State := { s with hm := { s.hm with rdRun := bumpChan s.hm.rdRun c n } }

/-- Counts words written in channel `c`. -/
def State.countWr (s : State) (c n : Nat) : State := { s with hm := { s.hm with wrRun := bumpChan s.hm.wrRun c n } }

/-- Counts speculative words read in channel `c`. -/
def State.countSpecRd (s : State) (c n : Nat) : State := { s with hm := { s.hm with specRd := bumpChan s.hm.specRd c n } }

/-- Counts speculative words written in channel `c`. -/
def State.countSpecWr (s : State) (c n : Nat) : State := { s with hm := { s.hm with specWr := bumpChan s.hm.specWr c n } }

/-- Run-ahead lines of pipe `p` are discarded, to be fetched again (R49); their words count as speculative (R85). (DEDUCED, log 403.) -/
def State.discardRun (s : State) (p : Nat) (f : RunLine → Bool) : State :=
  allSlots.foldl (fun s k =>
    let (gone, kept) := ((s.pipe p).slot k).run.partition f
    if gone.isEmpty then s
    else
      let s := s.modPipe p fun x => x.setSlot k { x.slot k with run := kept }
      (gone.flatMap fun l => l.words).foldl (fun s a => s.countSpecRd (chanOfAddr a) 1) s) s

/-! ### Errors of a read (R73, R77) -/

/-- The kind codes of ECC_LOG_INFO.READER. -/
def readerCode : Reader → Nat
  | .functional => 0 | .scrub => 1 | .rmw => 2

/-- Records a non-clean read in ECC_LOG (R73). -/
def State.logEcc (s : State) (r : Reader) (a kind synd : Nat) : State :=
  let s := s.put Reg.ECC_LOG_ADDR_WORD (a / 32)
  let s := s.put Reg.ECC_LOG_INFO_READER (readerCode r)
  let s := s.put Reg.ECC_LOG_INFO_CH (chanOfAddr a)
  (s.put Reg.ECC_LOG_INFO_KIND kind).put Reg.ECC_LOG_INFO_SYNDROME synd

/-- The syndromes of the first `n` bit positions, last first: each takes one of the values 1 to 1,023 that no position before it has taken,
so that every position gives its own (R73). Which value is free. (DEDUCED, log 303.) -/
def syndromes : Nat → List Nat
  | 0 => []
  | n + 1 =>
    let taken := syndromes n
    let left := (rangeFrom 1 1023).filter fun v => !taken.contains v
    left.getD (Config.syndromeOfBit n % left.length) 1 :: taken

/-- The syndrome of a single-bit error: never 0, its own for each bit position (R73). The value is free. (DEDUCED, log 303.) -/
def syndSingle (pos : Nat) : Nat := (syndromes (pos % 266 + 1)).headD 1

/-- The syndrome of an uncorrectable pattern: never 0 (R73). The value is free. (DEDUCED, log 303.) -/
def State.syndDouble (s : State) : Nat := 1 + Config.syndromeOfDouble s.freeCtr % 1023

/-- Notes that a checker of channel `c` reported (R80). -/
def State.channelReported (s : State) (c : Nat) : State :=
  { s with hm := { s.hm with quietFrom := SMap.set 0 s.hm.quietFrom c s.orbit.orbits } }

/-- Whether the first read of word `a` is uncorrectable although the array returned `e`: a stored pattern, an unreadable channel
(R79), or an armed read injection in its channel (R77). -/
def State.forcedDouble (s : State) (a : Nat) : Bool :=
  s.hm.badWords.contains a || s.unreadable (chanOfAddr a) || bit s.hm.injRead (chanOfAddr a)

/-- A read consumes the read injection of its channel (R77). (DEDUCED, log 310.) -/
def State.useInjRead (s : State) (a : Nat) : State :=
  if bit s.hm.injRead (chanOfAddr a) then { s with hm := { s.hm with injRead := setBit s.hm.injRead (chanOfAddr a) false } } else s

/-- A corrected read: logged, counted, reported, and its word awaits the write-back (Table 03.4, row 2). -/
def State.eccCorrected (s : State) (r : Reader) (a pos : Nat) : State :=
  let s := s.logEcc r a 1 (syndSingle pos)
  let s := s.count (Reg.STAT_ERR_CORR (chanOfAddr a)) 1
  let s := { s with hm := { s.hm with pendingWb := a :: s.hm.pendingWb } }
  (s.channelReported (chanOfAddr a)).fault .HM_ECC_CORR

/-- A transient error: the re-read was clean or corrected (Table 03.4, row 3). -/
def State.eccTransient (s : State) (r : Reader) (a synd : Nat) (inj : Bool) : State :=
  ((s.logEcc r a 2 synd).channelReported (chanOfAddr a)).fault .HM_ECC_REREAD inj

/-- Removes the words whose report is older than the window of 2^WIN orbits (R77). -/
def State.pruneUncorr (s : State) (c : Nat) : List (Nat × Nat) :=
  (SMap.get [] s.hm.uncorr c).filter fun w => s.orbit.orbits < w.2 + 2 ^ s.get Reg.FENCE_CFG_WIN

/-- Counts an uncorrectable word of its channel once per window (R77). -/
def State.noteUncorr (s : State) (a : Nat) : State :=
  let c := chanOfAddr a
  let ws := s.pruneUncorr c
  let ws := if ws.any fun w => w.1 == a then ws else (a, s.orbit.orbits) :: ws
  { s with hm := { s.hm with uncorr := SMap.set [] s.hm.uncorr c ws } }

/-- The buffer that owns a word goes to FAULTED where it is SEALED or SHOWN (R44, Table 03.4). -/
def State.faultBuffer (s : State) (a : Nat) : State :=
  match s.handleOfCell (a / 65536) with
  | none => s
  | some h =>
    match (s.handle h).st with
    | .sealed | .shown => s.setBuf h .faulted
    | _ => s

/-- A lasting error (Table 03.4, row 4). (PRESUMED, log 302.) -/
def State.eccLasting (s : State) (r : Reader) (a synd : Nat) (inj : Bool) : State :=
  let s := s.logEcc r a 3 synd
  let s := s.count (Reg.STAT_ERR_UNCORR (chanOfAddr a)) 1
  let s := (s.noteUncorr a).channelReported (chanOfAddr a)
  (s.faultBuffer a).fault .HM_ECC_UNCORR inj

/-- Word addresses of the byte range [a, a + n). -/
def wordsOf (a n : Nat) : List Nat := if n = 0 then [] else (rangeFrom (a / 32) ((a + n - 1) / 32 - a / 32 + 1)).map fun w => w * 32

/-- Reads one word, the re-read of R73 included, and answers whether the error is lasting. A stored uncorrectable pattern and a channel
fenced as unreadable (R79) are met whatever the event says; an armed injection strikes the word, and its re-read is clean (R77).
(DEDUCED, log 305.) -/
def State.readWord (s : State) (r : Reader) (a : Nat) (e : ReadEvent) : State × Bool :=
  let c := chanOfAddr a
  let stored := s.hm.badWords.contains a
  let inj := bit s.hm.injRead c
  let s := (s.countRd c 1).useInjRead a
  if stored || s.unreadable c then (((s.countRd c 1).eccLasting r a s.syndDouble stored).tick, true)
  else if inj then (((s.countRd c 1).eccTransient r a s.syndDouble true).tick, false)
  else match e.at_ a with
    | (.clean, _) => (s, false)
    | (.single pos, _) => (s.eccCorrected r a pos, false)
    | (.double, .double) => (((s.countRd c 1).eccLasting r a s.syndDouble false).tick, true)
    | (.double, _) => (((s.countRd c 1).eccTransient r a s.syndDouble false).tick, false)

/-- Reads the words `ws` one by one (Table 03.4), and answers those whose error is lasting. (DEDUCED, log 305.) -/
def State.readWords (s : State) (r : Reader) (ws : List Nat) (e : ReadEvent) : State × List Nat :=
  ws.foldl (fun (x : State × List Nat) a =>
    let y := x.1.readWord r a e
    (y.1, if y.2 then x.2 ++ [a] else x.2)) (s, [])

/-! ### Writes -/

/-- Writes bytes at a physical address: counted, check bits stored; an armed store injection makes the first word written in
its channel an uncorrectable pattern, every other word written becomes clean (R77). -/
def State.physWrite (s : State) (a : Nat) (bs : List Byte) : State :=
  let ws := wordsOf a bs.length
  let s := s.hmStore a bs
  ws.foldl (fun s w =>
    let c := chanOfAddr w
    let s := s.countWr c 1
    if bit s.hm.injStore c then
      { s with hm := { s.hm with injStore := setBit s.hm.injStore c false, badWords := w :: s.hm.badWords.filter fun x => x != w } }
    else { s with hm := { s.hm with badWords := s.hm.badWords.filter fun x => x != w } }) s

/-- Splits the byte range [off, off + n) of a plane at cell borders: pairs (offset, length). -/
def cellSplits (off n : Nat) : List (Nat × Nat) :=
  if n = 0 then [] else
    (rangeFrom (off / 65536) ((off + n - 1) / 65536 - off / 65536 + 1)).map fun i =>
      let a := max off (i * 65536)
      let b := min (off + n) ((i + 1) * 65536)
      (a, b - a)

/-- Writes bytes into a run of cells that belongs to a codec session; a channel fenced as unreadable takes none. -/
def State.cellsWrite (s : State) (cs : List Nat) (off : Nat) (bs : List Byte) : State :=
  (cellSplits off bs.length).foldl (fun s r =>
    match cs[r.1 / 65536]? with
    | some c => if s.unreadable (chanOf c) then s else s.physWrite (c * 65536 + r.1 % 65536) ((bs.drop (r.1 - off)).take r.2)
    | none => s) s

/-- The physical words that a byte range of a run of cells takes up. -/
def cellsWords (cs : List Nat) (off n : Nat) : List Nat :=
  (cellSplits off n).flatMap fun r =>
    match cs[r.1 / 65536]? with
    | some c => wordsOf (c * 65536 + r.1 % 65536) r.2
    | none => []

/-- The pieces of a write of bytes at physical address `a` that lie outside the words `ws`, as (address, bytes) (R75). -/
def outsideWords (ws : List Nat) (a : Nat) (bs : List Byte) : List (Nat × List Byte) :=
  (ws.foldl (fun (ps : List (Nat × List Byte)) w => ps.flatMap fun p =>
    if p.1 + p.2.length ≤ w ∨ w + 32 ≤ p.1 then [p]
    else [(p.1, p.2.take (w - p.1)), (w + 32, p.2.drop (w + 32 - p.1))]) [(a, bs)]).filter fun p => !p.2.isEmpty

/-- Writes bytes at a physical address, the words `ws` spared (R75). -/
def State.writeBut (s : State) (ws : List Nat) (a : Nat) (bs : List Byte) : State :=
  if ws.isEmpty then s.physWrite a bs else (outsideWords ws a bs).foldl (fun s p => s.physWrite p.1 p.2) s

/-- Writes bytes into a plane of handle `h`, the physical words `ws` spared (R61, R75); bytes outside the plane are not written.
(DEDUCED, log 311.) -/
def State.planeWriteBut (s : State) (ws : List Nat) (h pl off : Nat) (bs : List Byte) : State :=
  (cellSplits off bs.length).foldl (fun s r =>
    match (s.handle h).addr pl r.1 with
    | some a => s.writeBut ws a ((bs.drop (r.1 - off)).take r.2)
    | none => s) s

/-- Writes bytes into a plane of handle `h` (R61). (DEDUCED, log 311.) -/
def State.planeWrite (s : State) (h pl off : Nat) (bs : List Byte) : State := s.planeWriteBut [] h pl off bs

/-- How many words a plane range takes up in each of its cells, the words `ws` left out. -/
def State.planeCells (s : State) (ws : List Nat) (h pl off n : Nat) : List (Nat × Nat) :=
  (cellSplits off n).filterMap fun r => ((s.handle h).addr pl r.1).map fun a =>
    (a / 65536, (wordsOf r.1 r.2).length - (ws.filter fun w => w / 65536 == a / 65536).length)

/-- Notes the words that writer `w` writes into a buffer that is not SEALED yet, the words `ws` spared (R85). -/
def State.noteUnsealed (s : State) (ws : List Nat) (w h pl off n : Nat) : State :=
  if (s.handle h).st != .filling then s
  else
    { s with hm := { s.hm with unsealed := (s.planeCells ws h pl off n).foldl (fun us x =>
        if us.any fun u => u.writer == w && u.cell == x.1 && u.cur then
          us.map fun u => if u.writer == w && u.cell == x.1 && u.cur then { u with words := u.words + x.2 } else u
        else us ++ [⟨w, x.1, x.2, true⟩]) s.hm.unsealed } }

/-- Written words that will not become part of a SEALED buffer count as speculative (R85): those of the entries that satisfy `f`.
(DEDUCED, log 815.) -/
def State.wroteInVain (s : State) (f : Unsealed → Bool) : State :=
  let (gone, kept) := s.hm.unsealed.partition f
  gone.foldl (fun s u => s.countSpecWr (chanOf u.cell) u.words) { s with hm := { s.hm with unsealed := kept } }

/-- The words of a writer are part of a SEALED buffer, or wait for its next descriptor. -/
def State.keepUnsealed (s : State) (w : Nat) : State :=
  { s with hm := { s.hm with unsealed := s.hm.unsealed.map fun u => if u.writer == w then { u with cur := false } else u } }

/-- A buffer that writer `w` filled is SEALED: nothing of it is speculative. -/
def State.sealedBy (s : State) (w : Nat) : State :=
  { s with hm := { s.hm with unsealed := s.hm.unsealed.filter fun u => u.writer != w } }

/-- Whether a byte range of a plane touches a cell in a channel fenced as unreadable. -/
def State.planeUnreadable (s : State) (h pl off n : Nat) : Bool :=
  (cellSplits off n).any fun r =>
    match (s.handle h).addr pl r.1 with
    | some a => s.unreadable (chanOfAddr a)
    | none => false

/-- Whether a byte range of a plane touches a cell in a fenced channel. -/
def State.planeFenced (s : State) (h pl off n : Nat) : Bool :=
  (cellSplits off n).any fun r =>
    match (s.handle h).addr pl r.1 with
    | some a => s.fenced (chanOfAddr a)
    | none => false

/-- The words at the two ends of a plane range that a write covers only in part (R75), as physical word addresses. (DEDUCED, log 311.) -/
def State.partialWords (s : State) (h pl off n : Nat) : List Nat :=
  let part := fun o => match (s.handle h).addr pl o with
    | some a => [a / 32 * 32]
    | none => []
  ((if off % 32 = 0 then [] else part off) ++ (if (off + n) % 32 = 0 then [] else part (off + n - 1))).eraseDups

/-- A write enters flight (R75). -/
def State.queueWrite (s : State) (w : HmWrite) : State := { s with hm := { s.hm with writes := s.hm.writes ++ [w] } }

/-- Whether writer `w` has writes in flight. -/
def State.inFlight (s : State) (w : Nat) : Bool := s.hm.writes.any fun x => x.writer == w

/-- Whether writer `w` met an error acknowledgement. -/
def State.wroteBad (s : State) (w : Nat) : Bool := s.hm.writeErr.contains w

/-- Whether writer `w` met an error acknowledgement of R218. -/
def State.wroteMoved (s : State) (w : Nat) : Bool := s.hm.writeRemap.contains w

/-- Forgets the error acknowledgements of writer `w`. -/
def State.clearWriteErr (s : State) (w : Nat) : State :=
  { s with hm := { s.hm with writeErr := s.hm.writeErr.filter (fun x => x != w),
                             writeRemap := s.hm.writeRemap.filter (fun x => x != w) } }

/-- Drops the writes of writer `w` that are in flight. -/
def State.dropWrites (s : State) (w : Nat) : State :=
  { s with hm := { s.hm with writes := s.hm.writes.filter fun x => x.writer != w } }

/-- The writer number of a frame of the writeback of pipe `p`: the frames in flight, at most two, take turns. -/
def wbWriter (p par : Nat) : Nat := 160 + 32 * par + p

/-- The pipe and the turn of a writeback writer number. -/
def wbOf (w : Nat) : Option (Nat × Nat) :=
  if 160 ≤ w ∧ w < 172 then some (w - 160, 0) else if 192 ≤ w ∧ w < 204 then some (w - 192, 1) else none

/-- WB_STATUS.BUSY follows the frames in progress of the writeback of pipe `p`. -/
def State.wbBusy (s : State) (p : Nat) : State :=
  let x := (s.pipe p).wb
  s.put (Reg.WB_STATUS_BUSY p) (b2n (x.capturing || !x.closing.isEmpty))

/-- A frame in progress of the writeback of pipe `p` ends without being sealed (R134, R135). -/
def State.wbAbandon (s : State) (p par : Nat) (flag : FRef) : State :=
  let s := (s.put flag 1).quitWriter (wbWriter p par)
  (s.modPipe p fun x =>
    { x with wb := { x.wb with capturing := x.wb.capturing && x.wb.par != par, closing := x.wb.closing.filter fun c => c.par != par } }).wbBusy p

/-- Flags PINNED_WRITE in the status of a writer (R45, R67). A writeback frame is abandoned with it (R134). -/
def State.flagPinned (s : State) (w : Nat) : State :=
  if w < 112 then s.put (Reg.CH_STATUS_PINNED_WRITE w) 1
  else if 128 ≤ w ∧ w < 144 then s.put (Reg.DS_STATUS_PINNED_WRITE (w - 128)) 1
  else match wbOf w with
    | some (p, par) => s.wbAbandon p par (Reg.WB_STATUS_PINNED_WRITE p)
    | none => s

/-- Whether a pinned buffer drops a write of writer `w` (R45, R67): a FILLING buffer holds no sealed content and takes the writes of its
fill (R205), but a writeback tap is dropped there too (R134). -/
def State.dropsWrite (s : State) (w h : Nat) : Bool := s.pinned h && ((s.handle h).st != .filling || 160 ≤ w)

/-- The acknowledgement of a write in flight (R75, R79): a pinned buffer drops it and flags the writer; a cell that evacuation took or a
channel fenced as unreadable answers with the error of R218. A word that the write covers in part and whose read part is uncorrectable
is not written and answers with an error, the other words are. -/
def State.ackWrite (s : State) (w : HmWrite) (e : ReadEvent) : State :=
  let bad := fun s : State => { s with hm := { s.hm with writeErr := w.writer :: s.hm.writeErr.filter fun x => x != w.writer } }
  let moved := fun s : State => { s with hm := { s.hm with writeRemap := w.writer :: s.hm.writeRemap.filter fun x => x != w.writer } }
  if s.dropsWrite w.writer w.handle then s.flagPinned w.writer
  else if w.stale || s.planeUnreadable w.handle w.plane w.off w.bytes.length then moved s
  else
    let (s, ws) := s.readWords .rmw (s.partialWords w.handle w.plane w.off w.bytes.length) e
    let s := (s.planeWriteBut ws w.handle w.plane w.off w.bytes).noteUnsealed ws w.writer w.handle w.plane w.off w.bytes.length
    if ws.isEmpty then s else bad s

/-! ### Cells in use -/

/-- Whether a cell belongs to a handle, a codec session or the metadata. (DEDUCED, log 318.) -/
def State.cellTaken (s : State) (c : Nat) : Bool := isMetaCell c || s.heldCells.contains c

/-- Whether Hearth is usable (R84). -/
def State.hmReady (s : State) : Bool := s.is Reg.HM_STATUS_READY

/-! ### Cells still to move out of a fenced channel (R78) -/

/-- The cells of channel `c` that handles hold. -/
def State.cellsIn (s : State) (c : Nat) : List Nat := s.handleCells.filter fun x => chanOf x == c

/-- The fenced channels from which cells are still to move. -/
def State.evacuating (s : State) : List Nat := allSlots.filter fun c => s.fenced c && !(s.cellsIn c).isEmpty

/-- STATUS.EVAC_BUSY follows what is left to move; each channel of `cs` that has nothing left raises EVAC_DONE (R78). -/
def State.evacCheck (s : State) (cs : List Nat) : State :=
  let s := cs.foldl (fun s c => if (s.cellsIn c).isEmpty then s.record 185 0x52 0 c else s) s
  s.put Reg.HM_STATUS_EVAC_BUSY (b2n (!s.evacuating.isEmpty))

/-- Replaces a handle whose cells go back to the pool, which may end an evacuation (R62, R78). -/
def State.shrinkHandle (s : State) (h : Nat) (x : Handle) : State :=
  let cs := s.evacuating
  let s := s.setHandle h x
  if cs.isEmpty then s else s.evacCheck cs

/-! ### Handle commands (R62–R64, Table 03.2) -/

/-- The result codes of HP_RESULT.CODE. -/
def hpOK : Nat := 0
def hpNoSpace : Nat := 1
def hpInUse : Nat := 2
def hpNotAlloc : Nat := 3
def hpOwner : Nat := 4
def hpPinned : Nat := 5
def hpBusyDma : Nat := 6
def hpBadSize : Nat := 7
def hpBadState : Nat := 8

/-- The plane sizes of an ALLOC: a size of 0 ends the list. -/
def allocSizes (a b c : Nat) : List Nat := if b = 0 then [a] else if c = 0 then [a, b] else [a, b, c]

/-- ALLOC of handle `h` by port `n` (Table 03.2, R63). -/
def State.allocHandle (s : State) (n h : Nat) (sizes : List Nat) : State × Nat :=
  let limit := 64 * 1024 * 1024
  if (s.handle h).alloc then (s, hpInUse)
  else if sizes.headD 0 = 0 || sizes.any fun z => limit < z then (s, hpBadSize)
  else
    let held := s.heldCells
    if s.freeLimit < held.length + sumNat (sizes.map fun z => cdiv z 65536) then (s, hpNoSpace)
    else match s.placePlanes held sizes with
      | none => (s, hpNoSpace)
      | some cells =>
        (s.setHandle h { alloc := true, owner := n + 1, sizes, alloc1 := (sizes[1]?).getD 0, cells, st := .empty }, hpOK)

/-- FREE of handle `h` by port `n`. -/
def State.freeHandle (s : State) (n h : Nat) : State × Nat :=
  let x := s.handle h
  if !x.alloc then (s, hpNotAlloc)
  else if x.owner ≠ n + 1 then (s, hpOwner)
  else if s.pinned h then (s, hpPinned)
  else if s.busyDma h then (s, hpBusyDma)
  else (s.shrinkHandle h {}, hpOK)

/-- RESET of handle `h` by port `n`. -/
def State.resetHandle (s : State) (n h : Nat) : State × Nat :=
  let x := s.handle h
  if !x.alloc then (s, hpNotAlloc)
  else if x.owner ≠ n + 1 then (s, hpOwner)
  else if s.pinned h then (s, hpPinned)
  else if x.st = .faulted ∨ x.st = .released then (s.setBuf h .empty, hpOK)
  else (s, hpBadState)

/-- TRIM of handle `h` by port `n` to `z` bytes of plane 1 (R71). -/
def State.trimHandle (s : State) (n h z : Nat) : State × Nat :=
  let x := s.handle h
  if !x.alloc then (s, hpNotAlloc)
  else if x.owner ≠ n + 1 then (s, hpOwner)
  else if x.st ≠ .sealed ∨ s.pinned h then (s, hpBadState)
  else match x.sizes[1]?, x.cells[1]? with
    | some z1, some cs =>
      if z1 < z then (s, hpBadSize)
      else (s.shrinkHandle h { x with sizes := setAt x.sizes 1 z, cells := setAt x.cells 1 (cs.take (cdiv z 65536)) }, hpOK)
    | _, _ => (s, hpBadSize)

/-- QUERY of handle `h` by port `n`: the plane sizes; HP_STATUS is a view of the selected handle. -/
def State.queryHandle (s : State) (n h : Nat) : State × Nat :=
  let x := s.handle h
  if !x.alloc then (s, hpNotAlloc)
  else
    let z := fun i => (x.sizes[i]?).getD 0
    (((s.put (Reg.HP_SIZE0_BYTES n) (z 0)).put (Reg.HP_SIZE1_BYTES n) (z 1)).put (Reg.HP_SIZE2_BYTES n) (z 2), hpOK)

/-- Runs command `cmd` of port `n` on handle `h` (Table 03.2). -/
def State.runHandle (s : State) (n cmd h : Nat) : State × Nat :=
  match cmd with
  | 1 => s.allocHandle n h
      (allocSizes (s.get (Reg.HP_SIZE0_BYTES n)) (s.get (Reg.HP_SIZE1_BYTES n)) (s.get (Reg.HP_SIZE2_BYTES n)))
  | 2 => s.freeHandle n h
  | 3 => s.resetHandle n h
  | 4 => s.trimHandle n h (s.get (Reg.HP_SIZE1_BYTES n))
  | 5 => s.queryHandle n h
  | _ => (s, hpOK)

end Sys2Proof.Machine
end

