-- ==== Sys2Proof/Machine/OwnOps.lean ====
section
/-! DEFINITION. Ownership (R11, R384–R386, Table 01.4) and the handover of Kindling pipes (R431, R432). -/
namespace Sys2Proof.Machine

/-- Owner codes: 0 NONE, 1 HOST, 2 VEHICLE, 3 FIRMWARE. -/
def ownNone : Nat := 0
def ownHost : Nat := 1
def ownVehicle : Nat := 2
def ownFirmware : Nat := 3

/-- Whether Table 01.4 permits an owner for unit `u`. -/
def ownPermitted (u w : Nat) : Bool :=
  if u < 12 then w < 4
  else match u with
    | 12 => w == ownFirmware
    | 13 => w == ownFirmware || w == ownNone
    | 14 | 15 => w == ownHost || w == ownFirmware || w == ownNone
    | _ => w == ownHost || w == ownVehicle || w == ownFirmware

/-- Unit `u` changes owner for a request of a path (R385): the generation advances and an OWNER_CHANGE record is appended. -/
def State.setOwner (s : State) (u w path : Nat) : State :=
  if s.owner u = w then s
  else (s.put (Reg.OWN_OWNER u) w).bumpGen u |>.record 202 0x61 u (w + 4 * s.owner u + 16 * path)

/-- The answers to an ownership request, as OWN_u.RESULT gives them: done, owned by another path, path not permitted. -/
def ownDone : Nat := 0
def ownOther : Nat := 1
def ownRefused : Nat := 2

/-- A CLAIM of unit `u` by a path (R385). -/
def State.claimUnit (s : State) (u path : Nat) : State × Nat :=
  if u = 12 || !ownPermitted u path then (s, ownRefused)
  else if s.owner u ≠ ownNone then (s, ownOther)
  else (s.setOwner u path path, ownDone)

/-- A RELEASE of unit `u` by a path (R385). A handed-over pipe that the host releases goes back to the safety pair (R432). -/
def State.releaseUnit (s : State) (u path : Nat) : State × Nat :=
  if u = 12 then (s, ownRefused)
  else if s.owner u ≠ path then (s, ownOther)
  else
    let s := s.setOwner u (if u = 16 then ownFirmware else ownNone) path
    (if path = ownHost ∧ s.kin.handed.contains u = true then { s with kin := { s.kin with reclaim := s.kin.reclaim ++ [u] } } else s,
      ownDone)

/-- ASSIGN of unit `u` by the safety pair (R385). -/
def State.assignUnit (s : State) (u w : Nat) : State × Nat :=
  if ownPermitted u w then (s.setOwner u w ownFirmware, ownDone) else (s, ownRefused)

/-- Remembers the answer to the last request of a path for unit `u`. -/
def State.setOwnResult (s : State) (u path r : Nat) : State := { s with od := { s.od with results := SMap.set 0 s.od.results (4 * u + path) r } }

/-- RESULT of unit `u` as a path reads it. -/
def State.ownResult (s : State) (u path : Nat) : Nat := SMap.get 0 s.od.results (4 * u + path)

/-- A CLAIM (1), RELEASE (2) or ASSIGN (3) by a path. -/
def State.ownRequest (s : State) (u path req dst : Nat) : State × Nat :=
  let r := match req with
    | 1 => s.claimUnit u path
    | 2 => s.releaseUnit u path
    | _ => s.assignUnit u dst
  (r.1.setOwnResult u path r.2, r.2)

/-! ### Handover (R431, R432) -/

/-- A pending handover takes place at a master boundary (R431, step 3). -/
def State.handOverPipe (s : State) : State :=
  if s.kin.handState ≠ 1 then s
  else
    let p := s.kin.handPipe
    if s.owner p ≠ ownFirmware then { s with kin := { s.kin with handState := 3 } }
    else
      let s := s.setOwner p ownHost ownFirmware
      { s with kin := { s.kin with handState := 2, handed := p :: s.kin.handed.filter fun q => q != p } }

/-- A handed-over pipe that the host released goes back to FIRMWARE (R432): the Kindling handles are allocated again where they were freed, and
the cluster engine runs again. -/
def State.takeBack (s : State) (p : Nat) : State :=
  let s := { s with kin := { s.kin with reclaim := s.kin.reclaim.filter (fun q => q != p), handed := s.kin.handed.filter fun q => q != p } }
  if s.owner p ≠ ownNone then s
  else
    let s := s.setOwner p ownFirmware ownFirmware
    let s := s.kin.allocs.foldl (fun s (e : Nat × List Nat) => (s.allocHandle 2 e.1 e.2).1) s
    let s := (s.put Reg.CLU_CTRL_EN 1).put Reg.CLU_STATUS_STOPPED 0
    { s with bc := { s.bc with lastDrawn := [] } }

/-- The safety pair frees the cluster handles that a handover left RELEASED (R431). -/
def State.freeCluster (s : State) : State :=
  if s.kin.handed.isEmpty then s
  else
    forAll [s.get Reg.CLU_HANDLE_HANDLE_A, s.get Reg.CLU_HANDLE_HANDLE_B] (fun h s =>
      if (s.handle h).st = .released then (s.freeHandle 2 h).1 else s) s

/-- What the safety pair does at a master boundary for the handover. (DEDUCED, log 18; DEDUCED, log 2005.) -/
def State.handover (s : State) : State :=
  if s.is Reg.FC_STATUS_PAIR_HELD then s
  else (s.kin.reclaim.foldl State.takeBack s.handOverPipe).freeCluster

end Sys2Proof.Machine
end

