-- ==== Sys2Proof/Machine/Coefs.lean ====
section
/-! DEFINITION. The default filter coefficients of banks 0 to 2 (R108): the windowed sinc evaluated from its formula, one number per
phase that packs the taps as 10-bit two's complement fields, the lowest tap in bits [9:0]. -/
namespace Sys2Proof.Machine

/-- Bank 0, horizontal set: phases 0 to 63. -/
def coef0H : List Nat := [
  0x4000000000, 0xFFC04403FC00400, 0x1FF407407F900BFF, 0x1FF00B3FFF6013FF,
  0x2FEC0F3F7F3017FF, 0x2FE4143F7F001BFE, 0x3FE0183EFED01FFE, 0x3FD81C3EFEA023FE,
  0x4FD4213E3E8027FD, 0x4FCC263DFE502BFD, 0x5FC82A3D7E302BFD, 0x5FC02F3CFE102FFD,
  0xFFC06FBC343C3DF033FD, 0xFFC06FB4393BFDD037FC, 0xFFC07FB03E3AFDC037FC, 0xFFC08FA8433A3DA03BFC,
  0xFFC08FA448397D903BFC, 0xFFC09F9C4E383D803FFC, 0xFFC09F9853377D703FFC, 0xFFC0AF905836BD603FFC,
  0xFF80AF8C5E35BD5043FC, 0xFF80BF846334FD4043FC, 0xFF80BF806933BD4043FC, 0xFF80CF7C6E327D4043FC,
  0xFF80CF747331FD3043FC, 0xFF80DF7079307D3043FC, 0xFF80DF6C7E2F7D3043FC, 0xFF40EF68842E3D3043FC,
  0xFF40EF64892CFD4043FC, 0xFF40EF608F2BBD4043FC, 0xFF40FF5C942A3D4043FD, 0xFF40FF589928FD5043FD,
  0xFF40FF589E27BD603FFD, 0xFF410F54A3267D603FFD, 0xFF410F50A8253D703FFD, 0xFF010F50AE23FD803BFD,
  0xFF010F50B3227D903BFD, 0xFF010F4CB8213DA03BFD, 0xFF010F4CBD1FBDB037FE, 0xFF010F4CC11E7DC037FE,
  0xFF010F4CC71CFDD033FE, 0xFF010F50C91BBDF033FE, 0xFF010F50CE1A7E002FFE, 0xFF010F50D318FE102FFE,
  0xFF010F54D617BE302BFE, 0xFF00FF58DA163E402BFF, 0xFF00FF5CDD14FE6027FF, 0xFF00FF60E013BE7027FF,
  0xFF00EF64E5123E9023FF, 0xFF00EF68E810FEA023FF, 0xFF00DF70EB0FBEC01FFF, 0xFF00DF74EF0E7ED01BFF,
  0xFF40CF7CF00D3EF01BFF, 0xFF40BF84F30BFF001400, 0xFF40AF8CF50ABF201400, 0xFF40AF94F709BF301000,
  0xFF409FA0F8087F501000, 0xFF808FA8FB073F600C00, 0xFF807FB4FB063F800C00, 0xFF806FC0FD053F900800,
  0xFFC05FCCFD03FFB00800, 0xFFC04FD8FF02FFC00400, 0xFFC02FE50101FFD00400, 0x1FF100013FF00000]

/-- Bank 0, vertical set: phases 0 to 63. -/
def coef0V : List Nat := [
  0x10000000, 0x3FF00D00FF401, 0x3FE01CFFFE802, 0x3FD02CFFFDC02,
  0x3FC038FFFD003, 0x3FB048FEFC404, 0x3FA058FDFBC04, 0x3F906CFBFB005,
  0x3F807CFAFA805, 0x7F708CF7FA006, 0x7F60A0F5F9806, 0x7F50B4F2F9406,
  0x7F40C4F0F8C07, 0x7F20D8EFF8407, 0x7F10ECECF8007, 0xBF0100E7F7C08,
  0xBEF114E4F7808, 0xBED12CE1F7408, 0xBEC140DEF7008, 0xFEB154D9F7008,
  0xFEA16CD5F6C08, 0xFE8180D2F6C08, 0xFE7198CEF6808, 0x13E61ACC9F6808,
  0x13E51C4C4F6808, 0x13E41D8C0F6808, 0x17E31F0BAF6808, 0x17E2204B6F6C07,
  0x17E121CB1F6C07, 0x17E0230ADF6C07, 0x1BDF248A6F7007, 0x1BDE25CA1F7407,
  0x1BDD2749DF7406, 0x1FDD28497F7806, 0x1FDC29892F7C06, 0x1FDB2B48CF8005,
  0x1FDB2C487F8405, 0x1FDB2D881F8805, 0x23DA2E87CF8C05, 0x23DA30076F9004,
  0x23DA31071F9404, 0x23DA3246BF9804, 0x23DA33866F9C03, 0x23DB34860FA003,
  0x23DB3545BFA803, 0x23DC36455FAC03, 0x23DC37850FB002, 0x23DD3844BFB402,
  0x23DE39045FBC02, 0x23DF39C40FC002, 0x1FE03B03BFC401, 0x1FE13BC36FC801,
  0x1FE33C031FD001, 0x1BE53C82DFD401, 0x1BE63D428FD801, 0x1BE83DC23FDC01,
  0x17EA3E81FFE000, 0x17EC3EC1BFE400, 0x13EF3F416FE800, 0x13F13F812FEC00,
  0xFF43FC0EFF000, 0xBF73FC0BFF400, 0xBFA3FC07FF800, 0x7FD40003FFC00]

/-- Bank 1, horizontal set: phases 0 to 63. -/
def coef1H : List Nat := [
  0x3F8000491F849003F8, 0x3F80044A1FC47FFFF8, 0x3F80044B1FC46FFFF8, 0x3F70084D1FC45FFBF8,
  0x3F700C4E1F843FFBF9, 0x3F700C501F842FF7F9, 0x3F7010511F840FF7F9, 0x3F7014521F83FFF3F9,
  0x3F7018541F03EFF3F9, 0x3F6018551F83CFEFFA, 0x3F601C561F43BFEFFA, 0x3F6020571F839FEBFA,
  0x3F6024591F038FEBFA, 0x3F60285A1F037FE7FA, 0x3F602C5B1EC35FE7FB, 0x3F60305D1E434FE7FB,
  0xFFFF60345E1E833FE3FB, 0xFFFF50385F1EC31FE3FB, 0xFFFF503C601E830FE3FB, 0xFFFF503C611EC2EFDFFC,
  0xFFFF5040631E42DFDFFC, 0xFFFF5048641DC2CFDFFC, 0xFFFF504C651DC2AFDFFC, 0xFFFF5050661D829FDFFC,
  0xFFFF5054671D828FDBFC, 0xFFFF5058681D027FDBFD, 0xFFFF505C691D025FDBFD, 0xFFBF50606A1D024FDBFD,
  0xFFBF50646B1CC23FDBFD, 0xFFBF50686C1CC21FDBFD, 0xFFBF506C6D1CC20FD7FD, 0xFFBF50746E1C01FFD7FE,
  0xFFBF50786F1BC1EFD7FE, 0xFFBF507C701B81DFD7FE, 0xFF7F5080731B41BFD7FE, 0xFF7F6084731B01AFD7FE,
  0xFF7F608C731AC19FD7FE, 0xFF7F6090741A818FD7FE, 0xFF7F6094741A417FD7FF, 0xFF7F609C741A016FD7FF,
  0xFF3F60A07619C15FD7FF, 0xFF3F70A47619814FD7FF, 0xFF3F70A87719413FD7FF, 0xFF3F70B07719012FD7FF,
  0xFF3F70B47918C10FD7FF, 0xFF3F70B87B1840FFD7FF, 0xFEFF80C07A1800FFD7FF, 0xFEFF80C47B17C0EFD7FF,
  0xFEFF80CC7A1780DFDBFF, 0xFEFF90D0791740CFD800, 0xFEFF90D47B16C0BFD800, 0xFEBF90DC7C1680AFD800,
  0xFEBFA0E07C16409FD800, 0xFEBFA0E47E15C08FD800, 0xFEBFB0EC7D15807FD800, 0xFEBFB0F07E15406FD800,
  0xFE7FC0F87C15006FDC00, 0xFE7FC0FC7E14805FDC00, 0xFE7FD1007E14404FDC00, 0xFE7FD1087E14003FDC00,
  0xFE7FE10C7E13803FDC00, 0xFE3FE1147F13402FDC00, 0xFE3FF1187F12C01FE000, 0xFE3FF11C7F12801FE000]

/-- Bank 1, vertical set: phases 0 to 63. -/
def coef1V : List Nat := [
  0x1087C10800, 0x10C7D10000, 0x11147C0FFFF, 0x11187D0F7FF,
  0xFFC021207C0F3FF, 0xFFC021247D0EFFE, 0xFFC031287D0E7FE, 0xFFC031307C0E3FE,
  0xFFC041347D0DBFD, 0xFFC0413C7C0D7FD, 0xFFC051407B0D3FD, 0xFF8061487B0CBFD,
  0xFF80614C7B0C7FD, 0xFF8071547A0C3FC, 0xFF8081587A0BBFC, 0xFF80815C7A0B7FC,
  0xFF809164780B3FC, 0xFF40A168790ABFC, 0xFF40B16C780A7FC, 0xFF40C174760A3FC,
  0xFF40C1787709BFC, 0xFF40D17C76097FC, 0xFF40E18475093FB, 0xFF40F1887408FFB,
  0xFF01018C75087FB, 0xFF01119074083FB, 0xFF0121987207FFB, 0xFF01319C7107BFB,
  0xFF0141A070077FB, 0xFF0151A47006FFB, 0xFF0161A86E06BFC, 0xFF0171AC6D067FC,
  0xFF0181B06C063FC, 0xFF0191B46B05FFC, 0xFF01A1B86A05BFC, 0xFEC1B1C069057FC,
  0xFEC1D1C068053FC, 0xFEC1E1C46704FFC, 0xFEC1F1C86604BFC, 0xFEC201D064047FC,
  0xFEC211D463043FC, 0xFEC231D06203FFD, 0xFEC241D46103BFD, 0xFF0251D85F037FD,
  0xFF0261DC5E033FD, 0xFF0281D85D033FD, 0xFF0291E05B02FFD, 0xFF02A1E45A02BFD,
  0xFF02C1E059027FE, 0xFF02D1E857023FE, 0xFF02E1E856023FE, 0xFF0301E85501FFE,
  0xFF4311EC5301BFE, 0xFF4321EC5201BFE, 0xFF4341EC50017FF, 0xFF4351F04F013FF,
  0xFF4361F44D013FF, 0xFF8381F04C00FFF, 0xFF8391F44A00FFF, 0xFF83B1F44900BFF,
  0xFFC3C1F04800BFF, 0xFFC3D1F44600400, 0xFFC3F1F04500400, 0x401F44300000]

/-- Bank 2, horizontal set: phases 0 to 63. -/
def coef2H : List Nat := [
  0x6074391203907406, 0x70743A11C3907006, 0x70783A1183907006, 0x70783B11C3806C06,
  0x707C3B1183806C06, 0x807C3B11C3706C05, 0x807C3C11C3706805, 0x80803C1183706805,
  0x80803C1203606405, 0x90843D1143606405, 0x90843D1203506004, 0x90883D11C3506004,
  0x90883E11C3505C04, 0xA08C3E1183405C04, 0xA08C3E1183405C04, 0xA0903F1183305804,
  0xB0903F1183305803, 0xB0943F11C3205403, 0xB094401183205403, 0xB098401143205403,
  0xC098401183105003, 0x40C098411103105003, 0x40C09C411183004C02, 0x40D09C411143004C02,
  0x40D0A0411142F04C02, 0x40D0A0421142F04802, 0x40E0A4421102E04802, 0x40E0A4421102E04802,
  0x40E0A8421142D04402, 0x40F0A84310C2D04402, 0x40F0AC4310C2D04002, 0x40F0AC431142C04001,
  0x4100B04310C2C04001, 0x4100B04510C2B03C01, 0x8100B44310C2B03C01, 0x8110B44310C2A03C01,
  0x8110B4451082A03801, 0x8120B8441082903801, 0x8120B8441082903801, 0x8120BC451082803401,
  0x8130BC451042803401, 0x8130C0451042703401, 0x8130C0461042703001, 0xC140C4441042603001,
  0xC140C4461002603000, 0xC150C8451002602C00, 0xC150C8461002502C00, 0xC150C8470FC2502C00,
  0xC160CC460FC2402C00, 0x10160CC460FC2402800, 0x10170D0460F82302800, 0x10170D0460F82302800,
  0x10170D4470F82202400, 0x10180D4470F42202400, 0x10180D4480F42102400, 0x14190D8450F42102400,
  0x14190D8480F02002000, 0x141A0DC460F02002000, 0x141A0DC470F01F02000, 0x141B0DC470EC1F02000,
  0x181B0E0460EC1F01C00, 0x181B0E0470EC1E01C00, 0x181C0E4460E81E01C00, 0x181C0E4470E81D01C00]

/-- Bank 2, vertical set: phases 0 to 63. -/
def coef2V : List Nat := [
  0x160FC560FC16, 0x17100540FC16, 0x17100560F815, 0x18104550F415,
  0x419104540F414, 0x419108540F014, 0x41A10C540EC13, 0x41A10C540EC13,
  0x41B110540E812, 0x41B110560E411, 0x81C114530E411, 0x81D114540E010,
  0x81D118540DC10, 0x81E118540DC0F, 0x81F11C530D80F, 0xC1F11C530D40F,
  0xC20120520D40E, 0xC20120530D00E, 0xC21124530CC0D, 0x1022124510CC0D,
  0x1022128520C80C, 0x1023128520C40C, 0x1024128520C40B, 0x142412C510C00B,
  0x142512C510BC0B, 0x1425130510BC0A, 0x1826130500B80A, 0x1827130510B409,
  0x1827134500B409, 0x1C281344F0B009, 0x1C291384F0AC08, 0x1C291384F0AC08,
  0x202A1384E0A808, 0x202B13C4E0A407, 0x202B13C4E0A407, 0x242C13C4D0A007,
  0x242D1404D09C06, 0x242D1444C09C06, 0x282E1404C09806, 0x282F1444C09405,
  0x2C2F1444B09405, 0x2C301444B09005, 0x2C311484A09004, 0x30311484A08C04,
  0x30321484A08804, 0x34331444908804, 0x343314C4908403, 0x383414C4808003,
  0x38351484808003, 0x3C3514C4707C03, 0x3C3614C4707C02, 0x3C371504607802,
  0x40371504607402, 0x40381504507402, 0x443914C4507002, 0x44391584406C01,
  0x483A1504406C01, 0x4C3B1504306801, 0x4C3B1504306801, 0x503C1504206401,
  0x503D1504106401, 0x543D1544106000, 0x543E1584005C00, 0x583F1504005C00]

end Sys2Proof.Machine
end

