-- ==== Sys2Proof/Machine/LayerOps.lean ====
section
/-! DEFINITION. The declarations of a layer slot and of a pipe's timing as an image of their registers gives them: formats and planes
(R89), the scaler need (R7, R101), declared opaque areas (R96), filter banks (R109, R110), timing (R171) and the Cagan load
(R307). -/
namespace Sys2Proof.Machine

/-- The state of one slot as its registers declare it (R112, R136). -/
structure SlotDecl where
  format : Nat
  csc : Nat
  full : Bool
  site : Nat
  rank : Nat
  hide : Bool
  opaqueAll : Bool
  t1 : Bool
  enable : Bool
  staleLimit : Nat
  updateDiv : Nat
  rotation : Nat
  layer : Nat
  handle : Nat
  srcW : Nat
  srcH : Nat
  stride0 : Nat
  stride1 : Nat
  cx : Nat
  cy : Nat
  cw : Nat
  ch : Nat
  dx : Nat
  dy : Nat
  dw : Nat
  dh : Nat
  ox : Nat
  oy : Nat
  ow : Nat
  oh : Nat
  fill : Nat
  const : Nat
  bankH : Nat
  bankV : Nat
  phaseH : Nat
  phaseV : Nat
  la : Nat
  premult : Bool
  deriving DecidableEq, Repr

/-- Slot `k` of pipe `p` as an image declares it. A slot of an image with RUN at 0 is taken as disabled (R172). -/
def declOf (m : List (Nat × Word)) (p k : Nat) : SlotDecl :=
  let g := imgGet m
  { format := g (Reg.SL_CTRL_FORMAT p k), csc := g (Reg.SL_CTRL_CSC p k), full := g (Reg.SL_CTRL_RANGE p k) == 1,
    site := g (Reg.SL_CTRL_SITE p k), rank := g (Reg.SL_CTRL_SHED_RANK p k), hide := g (Reg.SL_CTRL_STALE_ACTION p k) == 1,
    opaqueAll := g (Reg.SL_CTRL_OPAQUE p k) == 1, t1 := g (Reg.SL_CTRL_TIER p k) == 0,
    enable := g (Reg.SL_CTRL_ENABLE p k) == 1 && g (Reg.TG_CTRL_RUN p) == 1,
    staleLimit := g (Reg.SL_LAYER_STALE_LIMIT p k), updateDiv := g (Reg.SL_LAYER_UPDATE_DIV p k),
    rotation := max 1 (g (Reg.SL_LAYER_ROTATION p k)), layer := g (Reg.SL_LAYER_LAYER_ID p k),
    handle := g (Reg.SL_HANDLE_HANDLE p k), srcW := g (Reg.SL_SRC_SIZE_SRC_W p k), srcH := g (Reg.SL_SRC_SIZE_SRC_H p k),
    stride0 := g (Reg.SL_STRIDE0_BYTES p k), stride1 := g (Reg.SL_STRIDE1_BYTES p k),
    cx := g (Reg.SL_CROP_POS_CX p k), cy := g (Reg.SL_CROP_POS_CY p k), cw := g (Reg.SL_CROP_SIZE_CW p k),
    ch := g (Reg.SL_CROP_SIZE_CH p k), dx := g (Reg.SL_DST_POS_DX p k), dy := g (Reg.SL_DST_POS_DY p k),
    dw := g (Reg.SL_DST_SIZE_DW p k), dh := g (Reg.SL_DST_SIZE_DH p k), ox := g (Reg.SL_OPQ_POS_DX p k),
    oy := g (Reg.SL_OPQ_POS_DY p k), ow := g (Reg.SL_OPQ_SIZE_DW p k), oh := g (Reg.SL_OPQ_SIZE_DH p k),
    fill := g (Reg.SL_FILL_FILL p k), const := g (Reg.SL_CONST_RGB p k), bankH := g (Reg.SL_SCALE_BANK_H p k),
    bankV := g (Reg.SL_SCALE_BANK_V p k), phaseH := g (Reg.SL_PHASE_H_OFFSET p k), phaseV := g (Reg.SL_PHASE_V_OFFSET p k),
    la := g (Reg.SL_BLEND_LAYER_ALPHA p k), premult := g (Reg.SL_BLEND_MODE p k) == 1 }

/-! ### Formats (R89, Table 02.5, Table 04.2) -/

/-- Whether a format code is listed in Table 04.2. -/
def fmtKnown (f : Nat) : Bool := [0x01, 0x02, 0x03, 0x04, 0x05, 0x10, 0x11, 0x12, 0x20, 0x30, 0x31].contains f

/-- Whether a format is a YCbCr format, which needs chroma upsampling. -/
def fmtYcc (f : Nat) : Bool := f == 0x10 || f == 0x11 || f == 0x12

/-- Bits per pixel over the planes of a format (Table 02.5). -/
def fmtBpp (f : Nat) : Nat :=
  if f ≤ 0x04 then 32 else if f = 0x05 then 16 else if f = 0x10 then 12 else if f = 0x11 then 24 else if f = 0x12 then 16
  else if f = 0x20 then 33 else 8

/-- The minimum stride of plane 0 (Table 04.2). -/
def fmtMin0 (f w : Nat) : Nat :=
  if f ≤ 0x04 then 4 * w else if f = 0x05 then 2 * w else if f = 0x10 then w else if f = 0x11 then 2 * w
  else if f = 0x12 then 2 * w else if f = 0x20 then 8 * cdiv w 8 else w

/-- The minimum stride of plane 1 of a two-plane format (Table 04.2). -/
def fmtMin1 (f w : Nat) : Nat := if f = 0x10 then w else if f = 0x11 then 2 * w else 256 * cdiv w 8

/-- Whether a format has two planes. -/
def fmtTwo (f : Nat) : Bool := f == 0x10 || f == 0x11 || f == 0x20

/-- The stride and the rows of each plane of a slot's buffer (Table 04.2): for 0x20 both strides derive from SRC_W. -/
def SlotDecl.planes (d : SlotDecl) : List (Nat × Nat) :=
  if d.format = 0x20 then [(8 * cdiv d.srcW 8, cdiv d.srcH 8), (256 * cdiv d.srcW 8, cdiv d.srcH 8)]
  else if d.format = 0x10 ∨ d.format = 0x11 then [(d.stride0, d.srcH), (d.stride1, d.srcH / 2)]
  else [(d.stride0, d.srcH)]

/-- Bytes of one buffer of a slot's layer. -/
def SlotDecl.bytes (d : SlotDecl) : Nat := sumNat (d.planes.map fun x => x.1 * x.2)

/-- cells(b) of R32. -/
def SlotDecl.cells (d : SlotDecl) : Nat := sumNat (d.planes.map fun x => cdiv (x.1 * x.2) 65536)

/-! ### Scalers (R7, R101–R110) -/

/-- The scalers a slot needs: none at equal sizes without chroma upsampling, a pair for an input line above 4,096 pixels. -/
def SlotDecl.scalerNeed (d : SlotDecl) : Nat :=
  if !d.enable then 0
  else if d.dw = d.cw ∧ d.dh = d.ch ∧ !fmtYcc d.format then 0
  else if 4096 < d.cw then 2 else 1

/-- The bank AUTO chooses for an axis with the given destination and input sizes (R109). -/
def autoBank (dst src : Nat) : Nat := if 3 * src ≤ 4 * dst then 0 else if 3 * src ≤ 8 * dst then 1 else 2

/-- The bank of an axis: named, or chosen by AUTO (R109). -/
def bankFor (sel dst src : Nat) : Nat := if sel < 4 then sel else autoBank dst src

/-- Chroma input width of a crop (R105). -/
def SlotDecl.ccw (d : SlotDecl) : Nat := d.cw / 2

/-- Chroma input height of a crop (R105): halved for 4:2:0. -/
def SlotDecl.cch (d : SlotDecl) : Nat := if d.format = 0x12 then d.ch else d.ch / 2

/-- The filter banks that a slot selects (R110). -/
def SlotDecl.banks (d : SlotDecl) : List Nat :=
  if d.scalerNeed = 0 then []
  else
    let luma := [bankFor d.bankH d.dw d.cw, bankFor d.bankV d.dh d.ch]
    if fmtYcc d.format then luma ++ [bankFor d.bankH d.dw d.ccw, bankFor d.bankV d.dh d.cch] else luma

/-! ### Declared opaque areas (R96) -/

/-- A rectangle of active pixels: x, y, width, height. -/
structure Rect where
  x : Nat
  y : Nat
  w : Nat
  h : Nat
  deriving DecidableEq, Repr

/-- Whether a rectangle contains a pixel. -/
def Rect.has (r : Rect) (x y : Nat) : Bool := r.x ≤ x && x < r.x + r.w && r.y ≤ y && y < r.y + r.h

/-- The intersection of two rectangles. -/
def Rect.inter (a b : Rect) : Rect :=
  let x := max a.x b.x
  let y := max a.y b.y
  ⟨x, y, min (a.x + a.w) (b.x + b.w) - x, min (a.y + a.h) (b.y + b.h) - y⟩

/-- The destination of a slot. -/
def SlotDecl.dst (d : SlotDecl) : Rect := ⟨d.dx, d.dy, d.dw, d.dh⟩

/-- The declared opaque area of a slot (R96): the whole destination, or the opaque rectangle clipped to it. -/
def SlotDecl.opaqueArea (d : SlotDecl) : Rect := if d.opaqueAll then d.dst else d.dst.inter ⟨d.ox, d.oy, d.ow, d.oh⟩

/-- Whether the intervals cut from `rs` at row `y` cover [x, x1) wholly; each round moves the uncovered edge right. -/
def coverFrom (rs : List Rect) (y x1 : Nat) : Nat → Nat → Bool
  | 0, x => x1 ≤ x
  | n + 1, x =>
    if x1 ≤ x then true
    else
      match rs.find? fun r => r.has x y with
      | some r => coverFrom rs y x1 n (r.x + r.w)
      | none => false

/-- Whether the union of rectangles covers the columns [x, x1) of row `y`. -/
def covers (rs : List Rect) (y x x1 : Nat) : Bool := coverFrom rs y x1 (rs.length + 1) x

/-! ### Timing (R171) -/

/-- The raster of a pipe as its registers declare it (R171, R194). -/
structure Timing where
  hAct : Nat
  hFp : Nat
  hSync : Nat
  hTot : Nat
  vAct : Nat
  vFp : Nat
  vSync : Nat
  vTot : Nat
  run : Bool
  free : Bool
  num : Nat
  den : Nat
  mhz : Nat
  offset : Nat
  rate : Nat
  depth : Nat
  deriving DecidableEq, Repr

/-- The panel depth d of CL_CTRL.DEPTH (R127); code 3 is taken as 2. -/
def depthBits (c : Nat) : Nat := if c = 0 then 6 else if c = 1 then 8 else 10

/-- The timing of pipe `p` in an image. -/
def timingOf (m : List (Nat × Word)) (p : Nat) : Timing :=
  let g := imgGet m
  { hAct := g (Reg.TG_HACT_H_ACTIVE p), hFp := g (Reg.TG_HSYNC_H_FP p), hSync := g (Reg.TG_HSYNC_H_SYNC p),
    hTot := g (Reg.TG_HACT_H_TOTAL p), vAct := g (Reg.TG_VACT_V_ACTIVE p), vFp := g (Reg.TG_VSYNC_V_FP p),
    vSync := g (Reg.TG_VSYNC_V_SYNC p), vTot := g (Reg.TG_VACT_V_TOTAL p), run := g (Reg.TG_CTRL_RUN p) == 1,
    free := g (Reg.TG_CTRL_FREE p) == 1, num := g (Reg.TG_CTRL_NUM p), den := g (Reg.TG_CTRL_DEN p),
    mhz := g (Reg.TG_RATE_MHZ p), offset := g (Reg.TG_SYNC_OFFSET p), rate := g (Reg.CG_RATE_RATE p),
    depth := depthBits (g (Reg.CL_CTRL_DEPTH p)) }

/-- The lane rate in Gbit/s (Table 12.1). -/
def laneGbit (r : Nat) : Nat := 6 * (r + 1)

/-- Cagan blocks a line needs (R307). -/
def Timing.need (t : Timing) : Nat := 2 + cdiv (t.hAct * 3 * t.depth) 64

/-- Cagan blocks a line period holds at refresh `fn / fd` millihertz (R307). -/
def Timing.avail (t : Timing) (fn fd : Nat) : Nat :=
  if t.vTot * fn = 0 then 0 else 2 * laneGbit t.rate * 1000000000 * 1000 * fd / (66 * t.vTot * fn)

/-- The commit line of a frame of `vt` lines (R17, R18). -/
def commitLineOf (m : List (Nat × Word)) (p vt : Nat) : Nat :=
  let lead := min (max 24 (imgGet m (Reg.PIPE_ORBIT_COMMIT_LEAD p))) (vt - 1)
  vt - lead

/-- The Beacon line of a frame of `vt` lines (R17, R18). -/
def beaconLineOf (m : List (Nat × Word)) (p vt : Nat) : Nat :=
  let lead := min (max 24 (imgGet m (Reg.PIPE_ORBIT_COMMIT_LEAD p))) (vt - 1)
  vt - min (max 8 (imgGet m (Reg.PIPE_ORBIT_BEACON_LEAD p))) lead

/-! ### Images of a pipe (R19) -/

/-- Whether an address holds class F fields of pipe `p` that a commit takes (R19, R111): the timing, colour and slot registers of the
PIPE block, PIPE_ORBIT_p and CG_RATE of port p. -/
def commitAddr (p a : Nat) : Bool :=
  let base := 0x20100000 + 0x10000 * p
  if a = Reg.a_PIPE_ORBIT p ∨ a = Reg.a_CG_RATE p then true
  else if a < base ∨ base + 0x10000 ≤ a then false
  else
    let o := a - base
    if o < 0x1C then true
    else if o < 0x400 then false
    else if o ≤ 0x420 then true
    else if o < 0x1000 then false
    else !(0x48 ≤ o % 0x1000 && o % 0x1000 ≤ 0x50)

/-- The shadow state of pipe `p`: what a commit copies at acceptance (R19). -/
def shadowImg (regs : List (Nat × Word)) (p : Nat) : List (Nat × Word) := regs.filter fun e => commitAddr p e.1

/-- Whether an address belongs to slot `k` of pipe `p`. -/
def slotAddr (p k a : Nat) : Bool :=
  let b := 0x20101000 + 0x10000 * p + 0x1000 * k
  b ≤ a && a < b + 0x1000

/-- The part of an image that holds slot `k`. -/
def slotImg (m : List (Nat × Word)) (p k : Nat) : List (Nat × Word) := m.filter fun e => slotAddr p k e.1

/-- Puts the entries of one table into another. (DEDUCED, log 215.) -/
def overlay (d : Nat → Word) (m new : List (Nat × Word)) : List (Nat × Word) := new.foldl (fun m e => SMap.set (d e.1) m e.1 e.2) m

/-- An image with slot `k` replaced by the slot of another image. -/
def withSlot (m : List (Nat × Word)) (p k : Nat) (slot : List (Nat × Word)) : List (Nat × Word) :=
  overlay regReset (m.filter fun e => !slotAddr p k e.1) slot

end Sys2Proof.Machine
end

