-- ==== Sys2Proof/Machine/BeaconOps.lean ====
section
/-! DEFINITION. The Beacon entries as an image of their registers gives them (R141–R144) and the hold windows (R154–R156). -/
namespace Sys2Proof.Machine

/-- The entries of Beacon. -/
def allEntries : List Nat := [0, 1, 2, 3]

/-- Whether an address belongs to entry `e`. -/
def entryAddr (e a : Nat) : Bool := 0x20200100 + 0x40 * e ≤ a && a < 0x20200140 + 0x40 * e

/-- Field references of rectangle `r` of entry `e`: X, Y, W and H (R170). -/
def rectOf (m : List (Nat × Word)) (e r : Nat) : Rect :=
  let pos := (imgWord m (0x20200110 + 0x40 * e + 8 * r)).toNat
  let size := (imgWord m (0x20200114 + 0x40 * e + 8 * r)).toNat
  ⟨bits pos 12 0, bits pos 27 16, bits size 12 0, bits size 27 16⟩

/-- The rectangles of entry `e` that are present (R141). -/
def entryRects (m : List (Nat × Word)) (e : Nat) : List Rect :=
  (allEntries.map fun r => rectOf m e r).filter fun r => r.w != 0 && r.h != 0

/-- The region of an entry, clipped to an active area (R144). -/
def regionOf (m : List (Nat × Word)) (e w h : Nat) : List Rect :=
  ((entryRects m e).map fun r => r.inter ⟨0, 0, w, h⟩).filter fun r => r.w != 0 && r.h != 0

/-- The entry registers as the safety pair wrote them, which APPLY validates (R142). -/
def State.entryShadow (s : State) : List (Nat × Word) := s.regs.filter fun x => allEntries.any fun e => entryAddr e x.1

/-- The entry in force on pipe `p`. -/
def State.bcn (s : State) (p : Nat) : Option BcnForce := (s.pipe p).bcn

/-- Whether a Beacon entry is enabled on pipe `p` (R36, R193): in force now or latched for the next frame. -/
def State.beaconOn (s : State) (p : Nat) : Bool :=
  (s.bcn p).isSome || (match (s.pipe p).bcnNext with
    | some (some _) => true
    | _ => false)

/-- The entry of pipe `p` that the safety windows of check 7 and R193 concern: the one in force, or the one latched. -/
def State.bcnEntry (s : State) (p : Nat) : Option Nat :=
  match s.bcn p with
  | some b => some b.entry
  | none => match (s.pipe p).bcnNext with
    | some (some b) => some b.entry
    | _ => none

/-- The entry that an image places on pipe `p`. -/
def imgEntryOn (m : List (Nat × Word)) (p : Nat) : Option Nat :=
  allEntries.find? fun e => imgGet m (Reg.BE_CFG_EN e) == 1 && imgGet m (Reg.BE_CFG_PIPE e) == p

/-- The Beacon regions that admission counts for pipe `p` in an active area: the region in force, the one latched for the next
frame and the one of an APPLY under way. A row earns the credit of R33 only when it earns it under each of them. -/
def State.regionCands (s : State) (p w h : Nat) : List (List Rect) :=
  let force := fun b : Option BcnForce => match b with
    | some b => regionOf b.img b.entry w h
    | none => []
  let next := match (s.pipe p).bcnNext with
    | some b => [force b]
    | none => []
  let apply := if s.bc.applyPipes.contains p then
      match imgEntryOn s.bc.applyImg p with
      | some e => [regionOf s.bc.applyImg e w h]
      | none => [[]]
    else []
  force (s.bcn p) :: (next ++ apply)

/-! ### Hold windows -/

/-- Whether the window of entry `e` covers a stamp by its START and LEN, modulo 2^32 (R154). -/
def State.holdSpan (s : State) (e stamp : Nat) : Bool :=
  (stamp + 2 ^ 32 - s.get (Reg.BE_HOLD_START_START e)) % 2 ^ 32 < s.get (Reg.BE_HOLD_LEN_LEN e)

/-- Whether the window of entry `e` covers a stamp; a window held open under R156 covers every stamp. -/
def State.holdCovers (s : State) (e stamp : Nat) : Bool := s.holdSpan e stamp || (SMap.get {} s.bc.entries e).covered

/-- Brings BE_HOLD_LEN.OPEN and EXTENDED, and BC_STATUS.HOLD_OPEN, of entry `e` up to date (R156). -/
def State.refreshHold (s : State) (e : Nat) : State :=
  let spans := s.holdSpan e s.orbit.stamp
  let cov := (SMap.get {} s.bc.entries e).covered
  let s := s.put (Reg.BE_HOLD_LEN_OPEN e) (b2n (spans || cov))
  let s := if cov && !spans then s.put (Reg.BE_HOLD_LEN_EXTENDED e) 1 else s
  s.put Reg.BC_STATUS_HOLD_OPEN (setBit (s.get Reg.BC_STATUS_HOLD_OPEN) e (spans || cov))

/-- Entry `e`'s state beside its registers. -/
def State.entry (s : State) (e : Nat) : EntrySt := SMap.get {} s.bc.entries e

/-- Replaces entry `e`'s state. -/
def State.setEntry (s : State) (e : Nat) (x : EntrySt) : State :=
  { s with bc := { s.bc with entries := SMap.set {} s.bc.entries e x } }

end Sys2Proof.Machine
end

