-- ==== Sys2Proof/Machine/Admission.lean ====
section
/-! DEFINITION. Admission (R26–R37, R88, R101, R103, R172, R307, R507): the figures of a device state and checks 1 to 8. Admission
looks only at declarations, never at pixels (R31). -/
namespace Sys2Proof.Machine

/-! ### Refresh (R16, R171) -/

/-- The source that CTRL.MASTER_SRC selects: a pipe, or 15 for FSYNC_IN; other values are taken as 0 (R16). -/
def State.masterSrc (s : State) : Nat :=
  let v := s.get Reg.ORB_CTRL_MASTER_SRC
  if v ≤ 11 ∨ v = 15 then v else 0

/-- The image of pipe `p` that is newest: its latest pending commit, else the state taken for the next frame, else the shown one. -/
def State.newestImg (s : State) (p : Nat) : List (Nat × Word) :=
  match (s.pipe p).pend.getLast? with
  | some c => c.img
  | none => match (s.pipe p).next with
    | some n => n.img
    | none => (s.pipe p).shown

/-- The nominal refresh of the master as a fraction of millihertz (R171). `new` are the member states of a commit. (DEDUCED, log 210.) -/
def State.masterRate (s : State) (new : List (Nat × List (Nat × Word))) : Nat × Nat :=
  let m := s.masterSrc
  if m = 15 then (25000000000, max 1 (s.get Reg.FSYNC_PERIOD_PERIOD))
  else match new.find? fun e => e.1 == m with
    | some e => (imgGet e.2 (Reg.TG_RATE_MHZ m), 1)
    | none => (imgGet (s.newestImg m) (Reg.TG_RATE_MHZ m), 1)

/-- The refresh of pipe `p` under an image, as a fraction of millihertz (R171, R173). (DEDUCED, log 210.) -/
def State.rateOf (s : State) (new : List (Nat × List (Nat × Word))) (p : Nat) (m : List (Nat × Word)) : Nat × Nat :=
  let t := timingOf m p
  if t.free || p == s.masterSrc then (t.mhz, 1)
  else
    let f := s.masterRate new
    (f.1 * t.num, f.2 * max 1 t.den)

/-! ### The states that admission evaluates (R30) -/

/-- A state of one pipe that admission evaluates: its image and the refresh that its acceptance fixed. -/
structure Cand where
  img : List (Nat × Word)
  fn : Nat
  fd : Nat
  deriving DecidableEq, Repr

/-- The shown state with each held slot at the state that it waits for. -/
def State.heldImg (s : State) (p : Nat) : List (Nat × Word) :=
  (s.pipe p).slots.foldl (fun m e => if e.2.held then withSlot m p e.1 e.2.wait else m) (s.pipe p).shown

/-- The states of pipe `p` without a new commit: shown, held slots advanced, taken for the next frame, pending. -/
def State.ownCands (s : State) (p : Nat) : List Cand :=
  let x := s.pipe p
  let held := if x.slots.any fun e => e.2.held then [⟨s.heldImg p, x.fNum, x.fDen⟩] else []
  let next := match x.next with
    | some n => [⟨n.img, n.fNum, n.fDen⟩]
    | none => []
  (⟨x.shown, x.fNum, x.fDen⟩ :: (held ++ next)) ++ x.pend.map fun c => ⟨c.img, c.fNum, c.fDen⟩

/-- The states of every pipe, with the member states of a new commit added. States with RUN at 0 take no part: their slots are
taken as disabled and they hold no pipe term (R35, R172). -/
def State.world (s : State) (new : List (Nat × List (Nat × Word))) : List (Nat × List Cand) :=
  allPipes.map fun p =>
    let own := s.ownCands p
    let add := (new.filter fun e => e.1 == p).map fun e =>
      let f := s.rateOf new p e.2
      { img := e.2, fn := f.1, fd := f.2 }
    (p, (own ++ add).filter fun c => imgGet c.img (Reg.TG_CTRL_RUN p) == 1)

/-- An enabled slot of an evaluated state. -/
structure Occ where
  pipe : Nat
  slot : Nat
  d : SlotDecl
  fn : Nat
  fd : Nat
  deriving DecidableEq, Repr

/-- Every enabled slot of every evaluated state. -/
def occs (w : List (Nat × List Cand)) : List Occ :=
  w.flatMap fun e => e.2.flatMap fun c => (allSlots.map fun k => Occ.mk e.1 k (declOf c.img e.1 k) c.fn c.fd).filter fun o => o.d.enable

/-! ### Shed steps (R53) -/

/-- The shed step of a layer. -/
def stepOf (sh : List (Nat × Nat)) (l : Nat) : Nat := SMap.get 0 sh l

/-- UPDATE_DIV with the shed step in force (R53). -/
def effDiv (sh : List (Nat × Nat)) (d : SlotDecl) : Nat :=
  match stepOf sh d.layer with
  | 0 => d.updateDiv
  | 1 => min 255 (2 * d.updateDiv)
  | _ => 0

/-- Whether a slot's layer is hidden by step 3. -/
def hiddenBy (sh : List (Nat × Nat)) (d : SlotDecl) : Bool := 3 ≤ stepOf sh d.layer

/-! ### Check 3: cells (R32) -/

/-- The cells of one buffer of a slot's layer: a static GBC buffer that is SEALED or SHOWN counts the cells it holds. -/
def State.bufferCells (s : State) (sh : List (Nat × Nat)) (d : SlotDecl) : Nat :=
  let h := s.handle d.handle
  if d.format = 0x20 ∧ effDiv sh d = 0 ∧ (h.st = .sealed ∨ h.st = .shown) then h.cells.flatten.length else d.cells

/-- The largest figure of each layer over its occurrences. -/
def perLayer (os : List Occ) (f : Occ → Nat) : Nat :=
  let m := os.foldl (fun m o => SMap.set 0 m o.d.layer (max (SMap.get 0 m o.d.layer) (f o))) []
  sumNat (m.map fun e => e.2)

/-- Whether LAYER_ID `l` is bound to an open decoder session (R242): DS_STATUS.STATE of an open session is not 0. -/
def State.decoderBound (s : State) (l : Nat) : Bool :=
  (rangeFrom 0 16).any fun n =>
    bit (s.get Reg.DEC_STATUS_OPEN) n && s.get (Reg.DS_LAYER_BIND n) == 1 && s.get (Reg.DS_LAYER_LAYER_ID n) == l

/-! ### Check 4: Hearth bandwidth (R33) -/

/-- Destination rows of slot `k` in lines [a, b) that earn no culling credit: the row's whole width is not covered by the
declared opaque areas of the higher slots and the Beacon region. -/
def bareRows (os : List (Nat × SlotDecl)) (regions : List (List Rect)) (k : Nat) (d : SlotDecl) (a b : Nat) : Nat :=
  let above := (os.filter fun e => k < e.1).map fun e => e.2.opaqueArea
  let y0 := max a d.dy
  let y1 := min b (d.dy + d.dh)
  ((rangeFrom y0 (y1 - y0)).filter fun y => regions.any fun reg => !covers (above ++ reg) y d.dx (d.dx + d.dw)).length

/-- The enabled slots of a state that are not hidden, with their declarations. -/
def liveSlots (sh : List (Nat × Nat)) (m : List (Nat × Word)) (p : Nat) : List (Nat × SlotDecl) :=
  (allSlots.map fun k => (k, declOf m p k)).filter fun e => e.2.enable && !hiddenBy sh e.2

/-- Lines of window `w` of a frame of `v` active lines: first line and line after the last (R33). -/
def windowOf (v w : Nat) : Nat × Nat :=
  let n := cdiv v 16
  (min v (n * w), if w = 15 then v else min v (n * (w + 1)))

/-- Bytes that slot `k` of a state reads in a window. -/
def State.windowBytes (s : State) (sh : List (Nat × Nat)) (p : Nat) (c : Cand) (w k : Nat) : Nat :=
  let t := timingOf c.img p
  let live := liveSlots sh c.img p
  match live.find? fun e => e.1 == k with
  | none => 0
  | some e =>
    let ab := windowOf t.vAct w
    let n := bareRows live (s.regionCands p t.hAct t.vAct) k e.2 ab.1 ab.2
    cdiv (n * e.2.ch * e.2.cw * fmtBpp e.2.format) (8 * e.2.dh)

/-- R(p, w): each slot at its largest figure over the evaluated states (R30). (DEDUCED, log 209.) -/
def State.windowTotal (s : State) (sh : List (Nat × Nat)) (p : Nat) (cs : List Cand) (w : Nat) : Nat :=
  sumNat (allSlots.map fun k => maxNat (cs.map fun c => s.windowBytes sh p c w k))

/-- H_p (R33): the worst window; where the evaluated states differ in timing, the largest figure any of them gives. (DEDUCED, log 209.) -/
def State.pipeHbw (s : State) (sh : List (Nat × Nat)) (p : Nat) (cs : List Cand) : Nat :=
  maxNat ((rangeFrom 0 16).map fun w =>
    let r := s.windowTotal sh p cs w
    maxNat (cs.map fun c =>
      let t := timingOf c.img p
      let ab := windowOf t.vAct w
      cdiv (r * c.fn * t.vTot) ((ab.2 - ab.1) * c.fd * 1000000000)))

/-- The refresh of the fastest pipe that shows a layer, as a fraction of millihertz (R29). -/
def fastest (os : List Occ) (l : Nat) : Nat × Nat :=
  (os.filter fun o => o.d.layer == l).foldl (fun f o => if f.1 * o.fd < o.fn * f.2 then (o.fn, o.fd) else f) (0, 1)

/-- F_l of one occurrence (R33); a layer that the decoder fills counts 0 (R242). -/
def State.fillOf (s : State) (sh : List (Nat × Nat)) (os : List Occ) (o : Occ) : Nat :=
  let f := fastest os o.d.layer
  if hiddenBy sh o.d || effDiv sh o.d == 0 || s.decoderBound o.d.layer then 0
  else cdiv (o.d.bytes * f.1) (f.2 * 1000 * effDiv sh o.d * 1000000)

/-! ### Check 5: Aknum (R34) -/

/-- Whether the host fills a slot's layer: its handle was allocated through port 0 and no decoder session binds the layer. -/
def State.hostFilled (s : State) (d : SlotDecl) : Bool := (s.handle d.handle).owner == 1 && !s.decoderBound d.layer

/-- Completion headers of one fill, in bytes: one per 256 bytes of data of each plane and one per row. -/
def SlotDecl.headers (d : SlotDecl) : Nat := 8 * sumNat (d.planes.map fun x => cdiv (x.1 * x.2) 256 + x.2)

/-- K_l of one occurrence. -/
def State.linkOf (s : State) (sh : List (Nat × Nat)) (os : List Occ) (o : Occ) : Nat :=
  let f := fastest os o.d.layer
  if hiddenBy sh o.d || effDiv sh o.d == 0 || !s.hostFilled o.d then 0
  else cdiv (8 * (o.d.bytes + o.d.headers) * f.1) (f.2 * 1000 * effDiv sh o.d * 1000000)

/-- The limit of check 5 for `n` active inbound lanes. -/
def linkLimit (n : Nat) : Nat := 97 * n * 112000 * 64 * 240 / (100 * 66 * 256)

/-! ### Check 6: power tokens (R35) -/

/-- Whole tokens of a figure in whole mW. -/
def tokensOf (mw : Nat) : Nat := cdiv mw 125

/-- The scalers a pipe holds over its evaluated states (R101): each slot at its largest need. -/
def scalersOf (sh : List (Nat × Nat)) (p : Nat) (cs : List Cand) : Nat :=
  sumNat (allSlots.map fun k => maxNat (cs.map fun c =>
    let d := declOf c.img p k
    if hiddenBy sh d then 0 else d.scalerNeed))

/-- The pipe term of Table 02.6 in tokens, at the largest figure of the evaluated states (R30, R35): the pixel and lane rates of each state
go together, the scalers slot by slot as R30 takes them. 0 for a pipe with no evaluated state. (DEDUCED, log 209.) -/
def pipeTokens (sh : List (Nat × Nat)) (p : Nat) (cs : List Cand) : Nat :=
  if cs.isEmpty then 0
  else
    -- the pixel rate and the lane rate of one state, everything in units of 1/2000 mW: 400 mW per Gpixel/s and 12.5 mW per Gbit/s
    let rates := maxNat (cs.map fun c =>
      let t := timingOf c.img p
      cdiv (400 * t.hTot * t.vTot * c.fn * 2) (c.fd * 1000000000) + 25000 * laneGbit t.rate)
    tokensOf (cdiv (100 * 2000 + rates + 25 * 2000 * scalersOf sh p cs) 2000)

/-! ### The figures -/

/-- The figures of a device state under checks 3 to 6. -/
structure Figures where
  cells : Nat
  cellsAvail : Nat
  hbw : Nat
  hbwAvail : Nat
  link : Nat
  linkAvail : Nat
  tokens : Nat
  budget : Nat
  deriving DecidableEq, Repr

/-- The figures that a set of evaluated states gives under shed steps `sh` (R32–R35). -/
def State.figures (s : State) (sh : List (Nat × Nat)) (w : List (Nat × List Cand)) : Figures :=
  let os := occs w
  let cells := perLayer os (fun o => if hiddenBy sh o.d then 0 else o.d.rotation * s.bufferCells sh o.d) +
    s.get Reg.DEC_ADM_CELLS_CELLS + s.get Reg.ENC_CELLS_CELLS + s.cRsv
  let hbw := sumNat (w.map fun e => s.pipeHbw sh e.1 e.2) + perLayer os (s.fillOf sh os) + s.get Reg.DEC_ADM_HBW_MBPS
  let link := perLayer os (s.linkOf sh os) + s.get Reg.DEC_ADM_LINK_MBITPS
  let ch := s.get Reg.CAPACITY_HEARTH_CH
  let lanes := s.get Reg.CAPACITY_AKNUM_LANES
  let tokens := 32 + sumNat (w.map fun e => pipeTokens sh e.1 e.2) + tokensOf (cdiv (35 * hbw) 2000) +
    tokensOf (125 * lanes + cdiv (4 * link) 1000) + tokensOf (s.get Reg.DEC_ADM_POWER_MW)
  { cells, cellsAvail := 512 * ch, hbw, hbwAvail := 42500 * ch, link, linkAvail := linkLimit lanes, tokens,
    budget := s.get Reg.CAPACITY_BUDGET_TOKENS }

/-- Whether checks 3 to 6 pass. -/
def Figures.fits (f : Figures) : Bool :=
  f.cells ≤ f.cellsAvail && f.hbw ≤ f.hbwAvail && f.link ≤ f.linkAvail && f.tokens ≤ f.budget

/-- Loads the ADM_ registers with the figures of the accepted state (R57). -/
def State.refreshAdm (s : State) : State :=
  let f := s.figures s.orbit.sheds (s.world [])
  let s := (s.put Reg.ADM_CELLS_CELLS_AVAIL f.cellsAvail).put Reg.ADM_CELLS_CELLS (min 8191 f.cells)
  let s := (s.put Reg.ADM_HBW_HBW (min 0xFFFFF f.hbw)).put Reg.ADM_HBW_AVAIL_HBW_AVAIL f.hbwAvail
  let s := (s.put Reg.ADM_LINK_LINK (min 0x1FFFFF f.link)).put Reg.ADM_LINK_AVAIL_LINK_AVAIL f.linkAvail
  (s.put Reg.ADM_TOKENS_TOKENS_AVAIL f.budget).put Reg.ADM_TOKENS_TOKENS (min 511 f.tokens)

/-! ### Results (R27, R28) -/

/-- The result of an admission: CP_RESULT.CODE, CP_DETAIL, PIPE and the failing slot. -/
structure AdmResult where
  code : Nat
  detail : Nat
  pipe : Nat
  slot : Option Nat
  deriving DecidableEq, Repr

/-! ### Check 1 (R88, R172, R507) -/

/-- The CAPS limits of R307: a port that has trained since reset holds the receiver's CAPS, whose rate mask is never 0. -/
def State.capsAllow (s : State) (p : Nat) (t : Timing) : Bool :=
  let r := s.get (Reg.CG_CAPS_RATES p)
  r == 0 ||
    (bit r t.rate && bit (s.get (Reg.CG_CAPS_DEPTHS p)) ((t.depth - 6) / 2) && t.hAct ≤ s.get (Reg.CG_CAPS_MAX_H p) &&
      t.vAct ≤ s.get (Reg.CG_CAPS2_MAX_V p))

/-- The limits of Table 07.1 for pipe `p` at refresh `fn / fd` millihertz. -/
def State.timingOk (s : State) (p : Nat) (t : Timing) (fn fd : Nat) : Bool :=
  let hbp := t.hAct + t.hFp + t.hSync
  let vbp := t.vAct + t.vFp + t.vSync
  let locked := !t.free && p != s.masterSrc
  64 ≤ t.hAct && t.hAct ≤ 7680 && t.hAct % 2 == 0 && 16 ≤ t.vAct && t.vAct ≤ 2880 &&
  2 ≤ t.hFp && t.hFp % 2 == 0 && 2 ≤ t.hSync && t.hSync % 2 == 0 && hbp + 2 ≤ t.hTot && (t.hTot - hbp) % 2 == 0 &&
  t.hTot ≤ 16383 && t.hTot % 2 == 0 && 1 ≤ t.vFp && 1 ≤ t.vSync && vbp + 1 ≤ t.vTot && t.vTot ≤ 8191 &&
  24000 * fd ≤ fn && fn ≤ 240000 * fd && t.hTot * t.vTot * fn ≤ 1250000000000 * fd &&
  (!locked || (1 ≤ t.num && t.num ≤ 8 && 1 ≤ t.den && t.den ≤ 8)) &&
  t.need ≤ t.avail fn fd && 8 ≤ t.avail fn fd && s.capsAllow p t

/-- Table 04.1, rows 2 to 4: sizes, ratios and parities. -/
def SlotDecl.geometryOk (d : SlotDecl) (hAct vAct : Nat) : Bool :=
  d.srcW != 0 && d.srcH != 0 && d.cw != 0 && d.ch != 0 && d.dw != 0 && d.dh != 0 &&
  d.cx + d.cw ≤ d.srcW && d.cy + d.ch ≤ d.srcH && d.dx + d.dw ≤ hAct && d.dy + d.dh ≤ vAct &&
  d.cw ≤ 8 * d.dw && d.dw ≤ 16 * d.cw && d.ch ≤ 8 * d.dh && d.dh ≤ 16 * d.ch &&
  (!(d.format == 0x10 || d.format == 0x11) ||
    (d.cx % 2 == 0 && d.cy % 2 == 0 && d.cw % 2 == 0 && d.ch % 2 == 0 && d.srcW % 2 == 0 && d.srcH % 2 == 0)) &&
  (d.format != 0x12 || (d.cx % 2 == 0 && d.cw % 2 == 0 && d.srcW % 2 == 0))

/-- Table 04.1, row 5: the strides taken from the registers. -/
def SlotDecl.stridesOk (d : SlotDecl) : Bool :=
  d.format == 0x20 ||
    (d.stride0 % 32 == 0 && fmtMin0 d.format d.srcW ≤ d.stride0 &&
      (!fmtTwo d.format || (d.stride1 % 32 == 0 && fmtMin1 d.format d.srcW ≤ d.stride1)))

/-- Table 04.1, row 6: the scaler intake limit (R103). -/
def SlotDecl.intakeOk (d : SlotDecl) (vTot fn fd : Nat) : Bool :=
  d.scalerNeed == 0 || min d.cw 4096 * cdiv d.ch d.dh ≤ 16 * (800000000000 * fd / (fn * vTot))

/-- Table 04.1, row 7: the buffer holds the slot's planes. A GBC plane 1 is compared with the size it had at ALLOC, before any
TRIM (R71). -/
def State.bufferOk (s : State) (d : SlotDecl) : Bool :=
  let h := s.handle d.handle
  let sizes := if d.format = 0x20 then setAt h.sizes 1 h.alloc1 else h.sizes
  h.alloc && h.st != .faulted && d.planes.length ≤ sizes.length &&
    (d.planes.zip sizes).all fun e => e.1.1 * e.1.2 ≤ e.2

/-- What reason 0x09 compares (Table 04.1). (DEDUCED, log 414.) -/
def SlotDecl.layerKey (d : SlotDecl) : List Nat := [d.format, d.srcW, d.srcH, d.stride0, d.stride1, d.rotation, d.updateDiv]

/-- The first condition of Table 04.1 that a slot breaks, as its reason; `latest` are the other slots of R29. -/
def State.slotReason (s : State) (d : SlotDecl) (t : Timing) (fn fd : Nat) (latest : List SlotDecl) : Option Nat :=
  if !(fmtKnown d.format && d.csc ≤ 2 && d.bankH ≤ 4 && d.bankV ≤ 4) then some 1
  else if !(d.geometryOk t.hAct t.vAct && d.stridesOk && d.intakeOk t.vTot fn fd) then some 2
  else if !s.bufferOk d then some 7
  else if latest.any fun x => x.layer == d.layer && x.layerKey != d.layerKey then some 9
  else none

/-- The enabled slots of the latest states that R29 compares: the new commit, and of each other pipe its newest pending commit or
its shown state. -/
def State.latestSlots (s : State) (new : List (Nat × List (Nat × Word))) : List SlotDecl :=
  let imgs := allPipes.map fun p =>
    match new.find? fun e => e.1 == p with
    | some e => (p, e.2)
    | none => (p, s.newestImg p)
  (imgs.flatMap fun e => allSlots.map fun k => declOf e.2 e.1 k).filter fun d => d.enable

/-- Step 4 of R507 for one member pipe. -/
def State.pipeReason (s : State) (new : List (Nat × List (Nat × Word))) (p : Nat) (m : List (Nat × Word)) : Option AdmResult :=
  let t := timingOf m p
  if !t.run then none
  else
    let f := s.rateOf new p m
    let slots := (allSlots.map fun k => (k, declOf m p k)).filter fun e => e.2.enable
    if !s.timingOk p t f.1 f.2 then some ⟨1, 8, p, none⟩
    else if slots.length < 2 then some ⟨1, 3, p, none⟩
    else
      let latest := s.latestSlots new
      slots.findSome? fun e => (s.slotReason e.2 t f.1 f.2 latest).map fun r => ⟨1, r, p, some e.1⟩

/-! ### Checks 2 to 8 -/

/-- Check 2 for one member pipe (R28, R101). -/
def State.spanCheck (s : State) (w : List (Nat × List Cand)) (p : Nat) (m : List (Nat × Word)) : Option AdmResult :=
  let need := scalersOf s.orbit.sheds p (SMap.get [] w p)
  match allSlots.find? fun k => (declOf m p k).enable && (declOf m p k).scalerNeed != 0 && 8192 < (declOf m p k).cw with
  | some k => some ⟨2, need, p, some k⟩
  | none => if 4 < need then some ⟨2, need, p, none⟩ else none

/-- Checks 3 to 6 of a set of evaluated states; `p` is the lowest-numbered member pipe. -/
def Figures.check (f : Figures) (p : Nat) : Option AdmResult :=
  if f.cellsAvail < f.cells then some ⟨3, f.cells - f.cellsAvail, p, none⟩
  else if f.hbwAvail < f.hbw then some ⟨4, f.hbw - f.hbwAvail, p, none⟩
  else if f.linkAvail < f.link then some ⟨5, f.link - f.linkAvail, p, none⟩
  else if f.budget < f.tokens then some ⟨6, f.tokens - f.budget, p, none⟩
  else none

/-- What check 7 calls a timing change (R36, R193). -/
def timingKey (m : List (Nat × Word)) (p : Nat) : List Nat :=
  let t := timingOf m p
  [t.hAct, t.hFp, t.hSync, t.hTot, t.vAct, t.vFp, t.vSync, t.vTot, b2n t.free, t.num, t.den, t.mhz, t.offset,
    imgGet m (Reg.TG_SYNC_VADJ_MAX p), imgGet m (Reg.TG_CTRL_HSYNC_POL p), imgGet m (Reg.TG_CTRL_VSYNC_POL p), t.rate, t.depth]

/-- The state of pipe `p` that a new commit follows. -/
def State.lastImg (s : State) (p : Nat) : List (Nat × Word) := s.newestImg p

/-- Check 7 for one member pipe; `stamp` is the stamp of the commit's first frame on it. A commit that starts a stopped pipe is exempt
(R425). -/
def State.holdCheck (s : State) (p : Nat) (m : List (Nat × Word)) (stamp : Nat) : Option AdmResult :=
  match s.bcnEntry p with
  | none => none
  | some e =>
    let old := s.lastImg p
    let run := fun m => imgGet m (Reg.TG_CTRL_RUN p) == 1
    let stops := run old && !run m
    let starts := !run old && run m
    if !starts && (stops || timingKey old p != timingKey m p) && !s.holdCovers e stamp then some ⟨7, 0, p, none⟩ else none

/-- Check 8 for one member pipe: port n submits for owner n + 1 (R20, R37). -/
def State.ownerCheck (s : State) (port p : Nat) : Option AdmResult :=
  if s.owner p = port + 1 then none else some ⟨8, s.owner p, p, none⟩

end Sys2Proof.Machine
end

