-- ==== Sys2Proof/Machine/CommitOps.lean ====
section
/-! DEFINITION. Commits (R14–R25, R38–R46): the frames a commit reaches, acceptance and rejection, readiness at the commit line, held and
stale slots, and the release of buffers; the start of a pipe (R185); re-admission and shedding (R52–R56). -/
namespace Sys2Proof.Machine

/-! ### Stamps of coming frames (R15, R23, R173) -/

/-- Whether the master raster runs (ORBIT STATUS.MASTER_RUN): the master pipe counts frames, or FSYNC_IN is present or coasting. -/
def State.masterRuns (s : State) : Bool :=
  if s.masterSrc = 15 then s.is Reg.FSYNC_STATUS_PRESENT || s.is Reg.FSYNC_STATUS_COASTING else s.counting s.masterSrc

/-- The stamp of frame `k` of a locked pipe after an alignment stamp `b`, a multiple of DEN (R173): frame k starts
(k × DEN + OFFSET / V_TOTAL × DEN) / NUM master frames after it. -/
def lockedStamp (t : Timing) (b k : Nat) : Nat :=
  let v := max 1 t.vTot
  b + (k * v + t.offset % v) * t.den / (max 1 t.num * v)

/-- The alignment stamp of a stamp: the last multiple of DEN. -/
def alignStamp (t : Timing) (st : Nat) : Nat := st - st % max 1 t.den

/-- The number of the current frame after its alignment stamp: the first frame whose stamp is not below the current frame's,
advanced by the frames already counted with that stamp. -/
def PipeSt.frameIndex (x : PipeSt) (t : Timing) : Nat :=
  let b := alignStamp t x.frameStamp
  match (rangeFrom 0 (t.num + 1)).find? fun k => x.frameStamp ≤ lockedStamp t b k with
  | some k => k + x.sameStamp
  | none => x.sameStamp

/-- Whether pipe `p` follows target instants: locked, and the master raster runs (R173, R509). -/
def State.tracks (s : State) (p : Nat) : Bool := !(timingOf (s.pipe p).shown p).free && p != s.masterSrc && s.masterRuns

/-- The period of a refresh in millihertz, in FABRIC_CLK periods, as a fraction. -/
def periodOf (fn fd : Nat) : Nat × Nat := (1000000000000 * fd, max 1 fn)

/-- The stamp of the `j`-th frame after the current one of pipe `p`, j ≥ 1: one more for each frame on the master; by the target
instants on a locked pipe; by the nominal periods on a free-running pipe; unchanged while no master raster runs, as nothing counts then
(R15). (DEDUCED, log 213.) -/
def State.nextStamp (s : State) (p j : Nat) : Nat :=
  let x := s.pipe p
  if p = s.masterSrc then s.orbit.stamp + j
  else if !s.masterRuns then s.orbit.stamp
  else
    let t := timingOf x.shown p
    if t.free then
      let m := s.masterRate []
      let (pn, pd) := periodOf x.fNum x.fDen
      let (mn, md) := periodOf m.1 m.2
      s.orbit.stamp + ((x.boundaryAt * pd + j * pn) * md - s.orbit.masterAt * md * pd) / (mn * pd)
    else lockedStamp t (alignStamp t x.frameStamp) (x.frameIndex t + j)

/-- The first frame after the current one, not before the `j0`-th, whose stamp is `tgt` or greater, as its number, while a master raster runs.
(DEDUCED, log 213.) -/
def State.firstIndex (s : State) (p j0 tgt : Nat) : Nat :=
  let x := s.pipe p
  if p = s.masterSrc then max j0 (tgt - s.orbit.stamp)
  else
    let t := timingOf x.shown p
    if t.free then
      if tgt ≤ s.orbit.stamp then j0
      else
        let m := s.masterRate []
        let (pn, pd) := periodOf x.fNum x.fDen
        let (mn, md) := periodOf m.1 m.2
        max j0 (cdiv (s.orbit.masterAt * md * pd + (tgt - s.orbit.stamp) * mn * pd - x.boundaryAt * pd * md) (pn * md))
    else
      let b := alignStamp t x.frameStamp
      let v := max 1 t.vTot
      -- least k with (k × V + OFFSET) × DEN ≥ (tgt − b) × NUM × V
      let k := cdiv ((tgt - b) * max 1 t.num * v - t.offset % v * t.den) (v * max 1 t.den)
      max j0 (k - x.frameIndex t)

/-- The frame that R23 selects on pipe `p` for target `tgt` (0: as soon as possible): whether the commit is late there and the
stamp of the frame. A pipe that is stopped, starting or in a relock gap is never late; the stamp of its first frame is
predicted (free value). While no master raster runs the stamps stand still, and a target ahead of them is met by a frame with that stamp
or a later one. (DEDUCED, log 201; DEDUCED, log 213.) -/
def State.firstFrame (s : State) (p tgt : Nat) : Bool × Nat :=
  let x := s.pipe p
  if !s.counting p || s.mode p == .stopping then
    let pend := maxNat (x.pend.map fun c => c.eff)
    (false, max (max tgt pend) (s.orbit.stamp + Config.startDelay s.freeCtr))
  else
    let j0 := if x.commitDone then 2 else 1
    if tgt = 0 then (false, s.nextStamp p j0)
    else
      let late := tgt ≤ x.frameStamp || (j0 == 2 && tgt ≤ s.nextStamp p 1)
      (late, if s.masterRuns then s.nextStamp p (s.firstIndex p j0 tgt) else max tgt s.orbit.stamp)

/-! ### Buffers shown and released (R44, R46) -/

/-- Whether a pipe shows buffer `h`: an enabled slot of its state names it, or its last reading line is still to be emitted. -/
def State.stillShown (s : State) (h : Nat) : Bool :=
  s.pipes.any fun e =>
    imgNamesAny (match e.2.next with
      | some n => n.img
      | none => e.2.shown) e.1 h || e.2.rel.any fun r => r.handle == h

/-- Releases a replaced buffer (R46, Table 02.7), unless another slot still shows it; the cells of a layer hidden by shed step 3 return to the
free pool with it (R53). Only a SHOWN buffer is released: one that is FAULTED stays so without an event. (DEDUCED, log 206;
DEDUCED, log 216.) -/
def State.releaseBuf (s : State) (p : Nat) (r : Replaced) : State :=
  let h := r.handle
  if (s.handle h).st != .shown || s.stillShown h then s
  else
    let s := s.setBuf h (if s.pendNames h then .sealed else .released)
    let s := s.when (r.hidden && !s.pendNames h) fun s => s.shrinkHandle h {}
    s.record (112 + p) 0x15 p h (s.pipe p).frameStamp

/-- The releases of pipe `p` that wait for the emit of a line up to `y` take place. -/
def State.releaseThrough (s : State) (p y : Nat) : State :=
  let (due, later) := (s.pipe p).rel.partition fun r => r.line ≤ y
  due.foldl (fun s r => s.releaseBuf p r) (s.modPipe p fun x => { x with rel := later })

/-- The buffers of `old` that `new` no longer names in the same slot, with the last line that reads each. -/
def State.replacedBufs (s : State) (old new : List (Nat × Word)) (p : Nat) : List Replaced :=
  allSlots.filterMap fun k =>
    let a := declOf old p k
    let b := declOf new p k
    if a.enable && (!b.enable || b.handle != a.handle) then some ⟨a.handle, a.dy + a.dh - 1, hiddenBy s.orbit.sheds a⟩ else none

/-- A replacement is confirmed at the end of the commit line: buffers whose last reading line has been emitted are released at once, the
others at the emit of that line (R46). -/
def State.confirmReplaced (s : State) (p : Nat) (old new : List (Nat × Word)) : State :=
  let rs := s.replacedBufs old new p
  let s := s.modPipe p fun x => { x with rel := x.rel ++ rs }
  let y := (s.pipe p).nextLine
  if y = 0 then s else s.releaseThrough p (y - 1)

/-! ### Readiness (R38) -/

/-- Whether slot `k` of pipe `p` already shows buffer `h`. (DEDUCED, log 207.) -/
def State.slotShows (s : State) (p k h : Nat) : Bool :=
  let x := (s.pipe p).slot k
  imgNames (s.pipe p).shown p k h && !x.stale && !x.failed

/-- Whether slot `k` of an image of pipe `p` is ready (R38). -/
def State.slotReady (s : State) (p k : Nat) (m : List (Nat × Word)) : Bool :=
  let d := declOf m p k
  if !d.enable then true
  else match (s.handle d.handle).st with
    | .sealed | .shown => true
    | .faulted => false
    | _ => s.slotShows p k d.handle

/-- The slots of an image of pipe `p` that are not ready. -/
def State.unready (s : State) (p : Nat) (m : List (Nat × Word)) : List Nat := allSlots.filter fun k => !s.slotReady p k m

/-! ### Pending commits -/

/-- Removes a commit from the pending queue of pipe `p`. -/
def State.dropPend (s : State) (p id : Nat) : State := s.modPipe p fun x => { x with pend := x.pend.filter fun c => c.id != id }

/-- Retires a superseded commit on every pipe where it is pending, with a SUPERSEDED event for each (R24). (DEDUCED, log 202.) -/
def State.supersede (s : State) (id tag : Nat) : State :=
  forAll allPipes (fun p s =>
    if (s.pipe p).pend.any fun c => c.id == id then (s.dropPend p id).record (112 + p) 0x12 p tag else s) s

/-- Whether any slot of a commit group is unready, and whether an unready slot with a STALE_LIMIT above 0 has waited for that many frames of
its own pipe (R42). (DEDUCED, log 217.) -/
def State.groupUnready (s : State) (id : Nat) : Bool × Bool :=
  let us := allPipes.flatMap fun q =>
    (s.pipe q).pend.flatMap fun c =>
      if c.id == id then (s.unready q c.img).map fun k => ((declOf c.img q k).staleLimit, c.waits) else []
  (!us.isEmpty, us.any fun l => l.1 != 0 && l.1 ≤ l.2)

/-- Releases a commit group (R41): 1 with every slot ready, 2 by a STALE_LIMIT. -/
def State.releaseGroup (s : State) (id how : Nat) : State :=
  forAll allPipes (fun q s => s.modPipe q fun x =>
    { x with pend := x.pend.map fun c => if c.id == id then { c with released := how } else c }) s

/-- One more frame for which a commit waits on pipe `p`, with COMMIT_HELD (R41). (DEDUCED, log 217.) -/
def State.waitMore (s : State) (p id tag : Nat) : State :=
  (s.modPipe p fun x => { x with pend := x.pend.map fun c => if c.id == id then { c with waits := c.waits + 1 } else c }).record
    (112 + p) 0x11 p tag

/-- The slots held on pipe `p`, each with the slot state it waits for. -/
def PipeSt.heldSlots (x : PipeSt) : List (Nat × List (Nat × Word)) :=
  (x.slots.filter fun e => e.2.held).map fun e => (e.1, e.2.wait)

/-- The slots whose STALE_ACTION is in force under R42. -/
def PipeSt.staleSlots (x : PipeSt) : List Nat := (x.slots.filter fun e => e.2.held && e.2.stale).map fun e => e.1

/-- The state that pipe `p` would show next without a change. -/
def PipeSt.keepNext (x : PipeSt) : NextState :=
  match x.next with
  | some n => n
  | none => ⟨0, none, x.shown, x.fNum, x.fDen, x.heldSlots, x.staleSlots, [], 0⟩

/-- Replaces the state that the next frame shows. -/
def State.setNext (s : State) (p : Nat) (n : NextState) : State := s.modPipe p fun x => { x with next := some n }

/-- Without a due commit, held slots whose buffers have become ready advance (R40). -/
def State.advanceHeld (s : State) (p : Nat) : State :=
  let x := s.pipe p
  let go := x.heldSlots.filter fun e => s.slotReady p e.1 (withSlot x.shown p e.1 e.2)
  if go.isEmpty then s
  else
    let n := x.keepNext
    let img := go.foldl (fun m e => withSlot m p e.1 e.2) n.img
    let gone := fun k => go.any fun e => e.1 == k
    let s := s.setNext p { n with img, held := n.held.filter fun e => !gone e.1, stale := n.stale.filter fun k => !gone k }
    s.confirmReplaced p x.shown img

/-- The slot that pipe `p` shows before a commit, as an unready slot keeps it (R40); a pipe that does not run shows none, so that there a slot
is newly enabled and stays empty. -/
def State.keptSlot (s : State) (p k : Nat) : List (Nat × Word) :=
  let m := (s.pipe p).shown
  slotImg (if imgGet m (Reg.TG_CTRL_RUN p) = 1 then m else imgPut m (Reg.SL_CTRL_ENABLE p k) 0) p k

/-- The state that pipe `p` takes from a commit at its commit line (R39–R42). Under HOLD-LAYER unready slots keep the previous slot
state; a commit applied under ALL-OR-HOLD gives every unready slot its STALE_ACTION, and one released with every slot ready gives
a slot whose buffer has become FAULTED the outcome of R74. (DEDUCED, log 203; DEDUCED, log 215.) -/
def State.takenState (s : State) (p : Nat) (c : Pend) : NextState :=
  let x := s.pipe p
  let us := s.unready p c.img
  let tag := if us.isEmpty then some c.tag else none
  let waits := us.map fun k => (k, slotImg c.img p k)
  if c.released = 1 then ⟨c.id, some c.tag, c.img, c.fNum, c.fDen, [], [], us, c.mat⟩
  else if c.released = 2 then ⟨c.id, tag, c.img, c.fNum, c.fDen, waits, us, [], c.mat⟩
  else
    let stale := us.filter fun k => x.staleSlots.contains k
    let img := us.foldl (fun m k => if stale.contains k then m else withSlot m p k (s.keptSlot p k)) c.img
    ⟨c.id, tag, img, c.fNum, c.fDen, waits, stale, [], c.mat⟩

/-- STALE_LIMIT events for the slots that a commit applied by its limit gives their STALE_ACTION. -/
def State.staleEvents (s : State) (p : Nat) (c : Pend) (ks : List Nat) : State :=
  if c.released = 2 then ks.foldl (fun s k => s.record (112 + p) 0x13 p k) s else s

/-- Pipe `p` takes a commit for its next frame. A commit that stops the pipe stays pending until the stop has completed (R186). -/
def State.takeCommit (s : State) (p : Nat) (c : Pend) : State :=
  let n := s.takenState p c
  let old := (s.pipe p).shown
  let s := (s.setNext p n).staleEvents p c n.stale
  if imgGet c.img (Reg.TG_CTRL_RUN p) = 0 then s else (s.dropPend p c.id).confirmReplaced p old n.img

/-- The commit due on pipe `p` is checked (R38–R42). -/
def State.checkDue (s : State) (p : Nat) (c : Pend) : State :=
  if !c.allOrHold || c.released != 0 then s.takeCommit p c
  else
    let (un, limit) := s.groupUnready c.id
    if !un then (s.releaseGroup c.id 1).takeCommit p { c with released := 1 }
    else if limit then (s.releaseGroup c.id 2).takeCommit p { c with released := 2 }
    else s.waitMore p c.id c.tag

/-! ### The start of a pipe (R185) -/

/-- The panel power pin of pipe `p` follows the sequence in SEQ mode (R191). -/
def State.seqPower (s : State) (p : Nat) (on : Bool) : State :=
  if s.get (Reg.PNL_CFG_PWR_MODE p) == 1 then s
  else (s.modPipe p fun x => { x with pwrPin := on }).put (Reg.PNL_OUT_PWR_PIN p) (b2n on)

/-- The backlight pin of pipe `p` follows the sequence in SEQ mode; the PWM runs or its output is held inactive (R185, R186, R191). In
the safe state with SAFE_BL the pin and the output stay inactive. -/
def State.seqBacklight (s : State) (p : Nat) (on : Bool) : State :=
  let on := on && !(s.is Reg.FC_STATUS_SAFE && s.is (Reg.PNL_CFG_SAFE_BL p))
  let s := s.modPipe p fun x => { x with pwmOn := on }
  if s.get (Reg.PNL_CFG_BL_MODE p) == 1 then s
  else (s.modPipe p fun x => { x with blPin := on }).put (Reg.PNL_OUT_BL_PIN p) (b2n on)

/-- Begins the start sequence of pipe `p` (R185 step 1). -/
def State.beginStart (s : State) (p : Nat) : State :=
  let s := s.modPipe p fun x => { x with startAt := none, seqStep := 1, pllOk := false, trainOk := false }
  (s.setMode p .starting).seqPower p true

/-- While no master raster runs no start waits for its target: a start that waits for a master frame begins (R185). (DEDUCED, log 204.) -/
def State.startUnmastered (s : State) : State :=
  if s.masterRuns then s
  else forAll allPipes (fun p s => if s.mode p == .stopped && (s.pipe p).startAt.isSome then s.beginStart p else s) s

/-- Begins or schedules the start of a stopped pipe by the commit at the head of its queue (R185): with T above 0 it waits for the
master frame of stamp T while a master raster runs. (DEDUCED, log 204; DEDUCED, log 709.) -/
def State.startPipe (s : State) (p : Nat) : State :=
  match (s.pipe p).pend with
  | [] => s
  | c :: _ =>
    if imgGet c.img (Reg.TG_CTRL_RUN p) = 0 then s
    else if !c.asap && s.masterRuns && s.orbit.stamp < c.eff then s.modPipe p fun x => { x with startAt := some c.eff }
    else s.beginStart p

/-! ### Acceptance (R19–R25, R508) -/

/-- Whether pipe `p` is a stopped pipe in the sense of R508. -/
def State.idleStopped (s : State) (p : Nat) : Bool := s.mode p == .stopped && (s.pipe p).pend.isEmpty

/-- The state of a commit becomes the shown state of a pipe that it leaves stopped (R508). (DEDUCED, log 205.) -/
def State.showStopped (s : State) (p tag : Nat) (m : List (Nat × Word)) (fn fd : Nat) : State :=
  (s.modPipe p fun x => { x with shown := m, fNum := fn, fDen := fd, slots := [] }).bumpGen p |>.commitShown p tag

/-- Adds an accepted commit to one member pipe. -/
def State.acceptOn (s : State) (n : Nat) (g : GoCap) (id : Nat) (new : List (Nat × List (Nat × Word))) (firsts : List (Nat × Nat))
    (e : Nat × List (Nat × Word)) : State :=
  let p := e.1
  let f := s.rateOf new p e.2
  if s.idleStopped p && imgGet e.2 (Reg.TG_CTRL_RUN p) == 0 then s.showStopped p g.tag e.2 f.1 f.2
  else
    let first := s.mode p == .stopped && (s.pipe p).pend.isEmpty
    let c : Pend := { id, tag := g.tag, eff := if g.target = 0 then SMap.get 0 firsts p else g.target, asap := g.target == 0,
                      allOrHold := g.allOrHold, group := new.map fun x => x.1, port := n, released := 0, img := e.2, fNum := f.1,
                      fDen := f.2, waits := 0, mat := (s.pipe p).matWrites }
    let s := s.modPipe p fun x => { x with pend := x.pend ++ [c] }
    s.when first fun s => s.startPipe p

/-- Latches the result of an admission in port `n` (R21, R27). -/
def State.latchResult (s : State) (n : Nat) (r : AdmResult) : State :=
  let s := s.incr (Reg.CP_RESULT_SEQ n)
  let s := (s.put (Reg.CP_RESULT_VALID n) 1).put (Reg.CP_RESULT_BUSY n) 0
  let s := (s.put (Reg.CP_RESULT_CODE n) r.code).put (Reg.CP_RESULT_PIPE n) r.pipe
  let s := (s.put (Reg.CP_RESULT_SLOT_VALID n) (b2n r.slot.isSome)).put (Reg.CP_RESULT_SLOT n) (r.slot.getD 0)
  let s := (s.put (Reg.CP_DETAIL_DETAIL n) r.detail).put (Reg.CP_CTRL_GO n) 0
  let s := { s with orbit := { s.orbit with go := s.orbit.go.filter fun e => e.1 != n } }
  s.occur (176 + n)

/-- The pending-queue conditions of one member pipe (R24, R507 step 3). -/
def State.queueCheck (s : State) (g : GoCap) (p first : Nat) : Option AdmResult :=
  let x := s.pipe p
  let tgt := if g.target = 0 then first else g.target
  if 2 ≤ x.pend.length then some ⟨1, 4, p, none⟩
  else if x.pend.any fun c => tgt < c.eff then some ⟨1, 5, p, none⟩
  else none

/-- The first failure of a list of checks. -/
def firstFail {α : Type} (xs : List α) (f : α → Option AdmResult) : Option AdmResult := xs.findSome? f

/-- Admission of a captured commit of port `n` with the member states `new` (R26, R507): the result, with the frames R23 selects. -/
def State.judgeGo (s : State) (n : Nat) (g : GoCap) (new : List (Nat × List (Nat × Word))) : AdmResult :=
  let low := ((new.map fun e => e.1).head?).getD 0
  let first := fun p => s.firstFrame p g.target
  if s.is Reg.FC_STATUS_SAFE && n < 2 then ⟨8, 3, low, none⟩
  else if new.isEmpty then ⟨1, 0x0A, 0, none⟩
  else if s.orbit.stamp + 2 ^ 20 < g.target then ⟨1, 6, low, none⟩
  else
    let w := s.world new
    let fails := (firstFail new fun e => s.queueCheck g e.1 (first e.1).2).orElse fun _ =>
      (firstFail new fun e => s.pipeReason new e.1 e.2).orElse fun _ =>
      (firstFail new fun e => s.spanCheck w e.1 e.2).orElse fun _ =>
      ((s.figures s.orbit.sheds w).check low).orElse fun _ =>
      (firstFail new fun e => s.holdCheck e.1 e.2 (first e.1).2).orElse fun _ =>
      (firstFail new fun e => s.ownerCheck n e.1).orElse fun _ =>
      if g.lateOk then none
      else firstFail new fun e => if (first e.1).1 then some ⟨9, (first e.1).2, e.1, none⟩ else none
    match fails with
    | some r => r
    | none => ⟨0, (first low).2, low, none⟩

/-- The member states of a captured commit: the shadow state of each member pipe (R19). -/
def State.memberImgs (s : State) (g : GoCap) : List (Nat × List (Nat × Word)) :=
  (maskBits 12 g.pipes).map fun p => (p, shadowImg s.regs p)

/-- Accepts a captured commit on every member pipe. -/
def State.acceptAll (s : State) (n : Nat) (g : GoCap) (new : List (Nat × List (Nat × Word))) : State :=
  let firsts := new.map fun e => (e.1, (s.firstFrame e.1 g.target).2)
  let id := s.orbit.commits + 1
  let s := { s with orbit := { s.orbit with commits := id } }
  (new.foldl (fun s e => s.acceptOn n g id new firsts e) s).tick

/-! ### Re-admission and shedding (R52–R56) -/

/-- What shedding knows of a layer (R29, R53): its tier (true for T1), its rank, and its place: the lowest-numbered pipe that shows
it and the lowest-numbered slot there. -/
structure LayerRank where
  layer : Nat
  t1 : Bool
  rank : Nat
  pipe : Nat
  slot : Nat
  deriving DecidableEq, Repr

/-- Adds an occurrence to what is known of the layers. (DEDUCED, log 219.) -/
def addOcc (m : List LayerRank) (o : Occ) : List LayerRank :=
  if m.any fun l => l.layer == o.d.layer then
    m.map fun l =>
      if l.layer != o.d.layer then l
      else
        let before := o.pipe < l.pipe || (o.pipe == l.pipe && o.slot < l.slot)
        { l with t1 := l.t1 || o.d.t1, rank := min l.rank o.d.rank, pipe := if before then o.pipe else l.pipe,
                 slot := if before then o.slot else l.slot }
  else m ++ [⟨o.d.layer, o.d.t1, o.d.rank, o.pipe, o.slot⟩]

/-- The layers of a set of occurrences. -/
def layersOf (os : List Occ) : List LayerRank := os.foldl addOcc []

/-- Whether layer `a` is shed before layer `b` of the same tier (R53). -/
def shedBefore (a b : LayerRank) : Bool :=
  a.rank < b.rank || (a.rank == b.rank && (b.pipe < a.pipe || (a.pipe == b.pipe && b.slot < a.slot)))

/-- Inserts a layer into a list in shed order. -/
def shedInsert (a : LayerRank) : List LayerRank → List LayerRank
  | [] => [a]
  | b :: bs => if shedBefore a b then a :: b :: bs else b :: shedInsert a bs

/-- The layers of one tier in shed order. -/
def shedOrderOf (ls : List LayerRank) (t1 : Bool) : List Nat :=
  ((ls.filter fun l => l.t1 == t1).foldr shedInsert []).map fun l => l.layer

/-- The steps that shedding takes, in order (R53): every T2 layer takes step 1, then step 2, then step 3, and then T1 likewise. -/
def shedPlan (ls : List LayerRank) : List (Nat × Nat) :=
  [false, true].flatMap fun t => [1, 2, 3].flatMap fun n => (shedOrderOf ls t).map fun l => (l, n)

/-- Follows the plan until the state fits: the steps in force after it and the steps taken, first last; `none` when nothing fits. -/
def State.shedUntil (s : State) (w : List (Nat × List Cand)) : List (Nat × Nat) → List (Nat × Nat) → List (Nat × Nat) →
    List (Nat × Nat) × List (Nat × Nat) × Bool
  | plan, sh, taken =>
    if (s.figures sh w).fits then (sh, taken, true)
    else match plan with
      | [] => (sh, taken, false)
      | (l, n) :: rest =>
        if stepOf sh l < n then s.shedUntil w rest (SMap.set 0 sh l n) ((l, n) :: taken) else s.shedUntil w rest sh taken

/-- The slots of pipe `p` that name layer `l` in an evaluated state (R30). -/
def State.layerSlots (s : State) (p l : Nat) : List Nat :=
  allSlots.filter fun k => (s.ownCands p).any fun c => (declOf c.img p k).enable && (declOf c.img p k).layer == l

/-- The step of layer `l` becomes `n`; each pipe with a state that names the layer applies it at its next frame boundary (R52).
(DEDUCED, log 208.) -/
def State.dueShed (s : State) (l n : Nat) (undo : Bool) : State :=
  forAll allPipes (fun p s =>
    if (s.layerSlots p l).isEmpty then s else s.modPipe p fun x => { x with shedDue := x.shedDue ++ [(l, n, undo)] }) s

/-- The capacities: unfenced Hearth channels, active inbound lanes, budget in force. -/
def State.capacity (s : State) : Nat × Nat × Nat :=
  (s.get Reg.CAPACITY_HEARTH_CH, s.get Reg.CAPACITY_AKNUM_LANES, s.get Reg.CAPACITY_BUDGET_TOKENS)

/-- Whether the capacities are at or above those before the earliest step still in force (R55). -/
def State.regained (s : State) : Bool :=
  match s.orbit.shedOrder.getLast? with
  | none => true
  | some r => r.ch ≤ s.get Reg.CAPACITY_HEARTH_CH && r.lanes ≤ s.get Reg.CAPACITY_AKNUM_LANES &&
      r.budget ≤ s.get Reg.CAPACITY_BUDGET_TOKENS

/-- Forgets the steps of layers that no state names any more (R54, R55). (DEDUCED, log 212.) -/
def State.pruneSheds (s : State) (os : List Occ) : State :=
  let live := fun l => os.any fun o => o.d.layer == l
  { s with orbit := { s.orbit with sheds := s.orbit.sheds.filter fun e => live e.1,
                                   shedOrder := s.orbit.shedOrder.filter fun r => live r.layer } }

/-- The admission totals are compared at each admission and each re-run; FC_INJ.ADM makes the next comparison fail (Table 18.2). -/
def State.admCompare (s : State) : State :=
  if s.is Reg.FC_INJ_ADM then (s.put Reg.FC_INJ_ADM 0).fault .ADM_DUP true else s

/-- Re-runs checks 3 to 6 and sheds until the state fits (R52, R53, R56). `pre` are the capacities just before the change. -/
def State.readmit (s : State) (pre : Nat × Nat × Nat) : State :=
  let s := s.admCompare
  let w := s.world []
  let os := occs w
  let s := s.pruneSheds os
  let (sh, taken, ok) := s.shedUntil w (shedPlan (layersOf os)) s.orbit.sheds []
  let recs := taken.map fun t => (⟨t.1, t.2, pre.1, pre.2.1, pre.2.2⟩ : ShedRec)
  let s := { s with orbit := { s.orbit with sheds := sh, shedOrder := recs ++ s.orbit.shedOrder } }
  let s := taken.reverse.foldl (fun s t => s.dueShed t.1 t.2 false) s
  let s := if s.regained then s else { s with orbit := { s.orbit with stable := 0 } }
  let s := s.condition .ADMIT_EXHAUSTED (!ok)
  ({ s with orbit := { s.orbit with exhausted := !ok } }).refreshAdm

/-- A change of capacity: applies `f` and, when it changes the capacities, re-runs admission (R52). -/
def State.changeCapacity (s : State) (f : State → State) : State :=
  let pre := s.capacity
  let s := f s
  if s.capacity = pre then s else s.readmit pre

/-- Undoes the last shed step applied when checks 3 to 6 pass with it undone (R55). (DEDUCED, log 211.) -/
def State.undoShed (s : State) : State :=
  let w := s.world []
  let s := s.pruneSheds (occs w)
  match s.orbit.shedOrder with
  | [] => s
  | r :: rest =>
    let sh := SMap.set 0 s.orbit.sheds r.layer (r.step - 1)
    if (s.figures sh w).fits then
      ({ s with orbit := { s.orbit with sheds := sh, shedOrder := rest, restored := true } }.dueShed r.layer (r.step - 1) true)
    else s

/-- The shed steps due on pipe `p` take effect at its frame boundary, which advances the generation once (R386; `gen` as the boundary found it),
each with a SHED event for every slot that names the layer, and the run-ahead lines are discarded (R49, R52, R53, R55). (DEDUCED, log 208.) -/
def State.applySheds (s : State) (p gen : Nat) : State :=
  let due := (s.pipe p).shedDue
  let s := (s.modPipe p fun x => { x with shedDue := [] }).when (s.get (Reg.OWN_GEN p) == gen) fun s => s.bumpGen p
  let s := due.foldl (fun s d => (s.layerSlots p d.1).foldl (fun s k => s.record (112 + p) 0x14 p (k + d.2.1 * 256 + b2n d.2.2 * 1024)) s) s
  s.discardRun p fun _ => true

/-- States have changed: steps of layers that no state names any more end (R54, R55), and ADMIT_EXHAUSTED ends when the state fits (R56).
(DEDUCED, log 212.) -/
def State.settleAdm (s : State) : State :=
  if s.orbit.sheds.isEmpty && !s.orbit.exhausted then s
  else
    let w := s.world []
    let s := s.pruneSheds (occs w)
    if s.orbit.exhausted && (s.figures s.orbit.sheds w).fits then
      let s := s.condition .ADMIT_EXHAUSTED false
      { s with orbit := { s.orbit with exhausted := false } }
    else s

end Sys2Proof.Machine
end

