-- ==== Sys2Proof/Machine/Pixels.lean ====
section
/-! DEFINITION. The pixel path: samples of a buffer (R89–R91), GBC blocks (R68–R70), the scalers (R104–R109), YCbCr conversion (R92),
blending (R114–R121), colour (R122–R124), dither (R127, R128), Beacon (R143–R148), and the bytes and blocks that carry a
line away (R131, R306). -/
namespace Sys2Proof.Machine

/-- A pixel of 12-bit components. -/
structure Px where
  a : Nat
  r : Nat
  g : Nat
  b : Nat
  deriving DecidableEq, Repr

/-! ### Widening (R91) -/

/-- An 8-bit component widened to 12 bits. -/
def widen8 (v : Nat) : Nat := v * 16 + v / 16

/-- A 10-bit component widened to 12 bits. -/
def widen10 (v : Nat) : Nat := v * 4 + v / 256

/-- A 6-bit component widened to 12 bits. -/
def widen6 (v : Nat) : Nat := v * 64 + v

/-- A 5-bit component widened to 12 bits. -/
def widen5 (v : Nat) : Nat := v * 128 + v * 4 + v / 8

/-- An ARGB8888 value as a pixel. -/
def argb8888 (w : Nat) : Px := ⟨widen8 (bits w 31 24), widen8 (bits w 23 16), widen8 (bits w 15 8), widen8 (bits w 7 0)⟩

/-! ### GBC (R68–R70) -/

/-- Words that a GBC header's MODE and widths demand (Table 03.3). -/
def gbcWords (h : Nat) : Nat :=
  match bits h 39 38 with
  | 0 => 8
  | 1 => 0
  | _ => cdiv (32 + 63 * (bits h 15 12 + bits h 11 8 + bits h 7 4 + bits h 3 0)) 256

/-- Whether a header is malformed against a plane 1 of `p1` bytes (R70). The reserved fields are those that Table 03.3 shows as 0 for
the MODE; bits [31:16] of a SOLID block are colour (log entry 20). -/
def gbcMalformed (h p1 : Nat) : Bool :=
  let mode := bits h 39 38
  let reserved :=
    match mode with
    | 0 => bits h 31 0 != 0
    | 1 => bits h 63 40 != 0
    | _ => bits h 31 16 != 0
  let wide := mode == 2 && (8 < bits h 15 12 || 8 < bits h 11 8 || 8 < bits h 7 4 || 8 < bits h 3 0)
  mode == 3 || bits h 37 36 != 0 || reserved || wide || bits h 35 32 != gbcWords h || p1 / 32 < bits h 63 40 + bits h 35 32

/-- A residual of `w` bits at bit `at` of a payload, in two's complement; a width of 0 is a residual of 0 (R69). -/
def gbcResidual (payload pos w : Nat) : Int := if w = 0 then 0 else sext (bits payload (pos + w - 1) pos) w

/-- One component of the next pixel of a DELTA block, modulo 256. -/
def gbcAdd (c : Nat) (d : Int) : Nat := (((c : Int) + d) % 256).toNat

/-- The pixels 1 to 63 of a DELTA block from pixel `i` on; `acc` holds the pixels so far, latest first, and `pos` is the next bit. -/
def gbcDelta (h payload : Nat) : Nat → Nat → Nat → List Nat → List Nat
  | 0, _, _, acc => acc
  | n + 1, i, pos, acc =>
    let ref := if i % 8 = 0 then acc.getD 7 0 else acc.headD 0
    let wa := bits h 15 12
    let wr := bits h 11 8
    let wg := bits h 7 4
    let wb := bits h 3 0
    let a := gbcAdd (bits ref 31 24) (gbcResidual payload pos wa)
    let r := gbcAdd (bits ref 23 16) (gbcResidual payload (pos + wa) wr)
    let g := gbcAdd (bits ref 15 8) (gbcResidual payload (pos + wa + wr) wg)
    let b := gbcAdd (bits ref 7 0) (gbcResidual payload (pos + wa + wr + wg) wb)
    gbcDelta h payload n (i + 1) (pos + wa + wr + wg + wb) ((a * 2 ^ 24 + r * 2 ^ 16 + g * 2 ^ 8 + b) :: acc)

/-- Pixel `i` of a block as an ARGB8888 value, from its header and its payload as a little-endian number (R68, R69). -/
def gbcPixel (h payload i : Nat) : Nat :=
  match bits h 39 38 with
  | 0 => bits payload (32 * i + 31) (32 * i)
  | 1 => bits h 31 0
  | _ => (gbcDelta h payload i 1 32 [bits payload 31 0]).headD 0

/-- The header of block (bx, by) of a GBC slot. -/
def State.gbcHeader (s : State) (d : SlotDecl) (bx byy : Nat) : Nat :=
  leNat (s.planeBytes d.handle 0 (8 * (byy * cdiv d.srcW 8 + bx)) 8)

/-- The size of plane 1 of a slot's buffer. -/
def State.plane1 (s : State) (d : SlotDecl) : Nat := ((s.handle d.handle).sizes).getD 1 0

/-- A source pixel of a GBC slot; a malformed block gives the slot's fill colour (R70). (DEDUCED, log 20.) -/
def State.gbcSample (s : State) (d : SlotDecl) (x y : Nat) : Nat :=
  let h := s.gbcHeader d (x / 8) (y / 8)
  if gbcMalformed h (s.plane1 d) then d.fill
  else gbcPixel h (leNat (s.planeBytes d.handle 1 (32 * bits h 63 40) (32 * bits h 35 32))) (y % 8 * 8 + x % 8)

/-! ### Samples (R89, R90) -/

/-- A little-endian unit of `n` bytes at byte `o` of a plane. -/
def State.unit (s : State) (h pl o n : Nat) : Nat := leNat (s.planeBytes h pl o n)

/-- The source pixel (x, y) of an RGB slot, palette and A8 formats included; `m` is the image that holds the palette. -/
def State.rgbSample (s : State) (m : List (Nat × Word)) (p k : Nat) (d : SlotDecl) (x y : Nat) : Px :=
  let row := y * d.stride0
  let w4 := fun _ : Unit => s.unit d.handle 0 (row + 4 * x) 4
  match d.format with
  | 0x01 => argb8888 (w4 ())
  | 0x02 => let w := w4 (); ⟨widen8 (bits w 31 24), widen8 (bits w 7 0), widen8 (bits w 15 8), widen8 (bits w 23 16)⟩
  | 0x03 => { argb8888 (w4 ()) with a := 4095 }
  | 0x04 => let w := w4 (); ⟨bits w 31 30 * 1365, widen10 (bits w 29 20), widen10 (bits w 19 10), widen10 (bits w 9 0)⟩
  | 0x05 => let w := s.unit d.handle 0 (row + 2 * x) 2; ⟨4095, widen5 (bits w 15 11), widen6 (bits w 10 5), widen5 (bits w 4 0)⟩
  | 0x20 => argb8888 (s.gbcSample d x y)
  | 0x30 => argb8888 (imgGet m (Reg.SL_PALETTE_ENTRY p k (s.unit d.handle 0 (row + x) 1)))
  | _ => { argb8888 d.const with a := widen8 (s.unit d.handle 0 (row + x) 1) }

/-- A luma sample of a YCbCr slot, as y12 (R91). -/
def State.lumaSample (s : State) (d : SlotDecl) (x y : Nat) : Nat :=
  let row := y * d.stride0
  match d.format with
  | 0x10 => s.unit d.handle 0 (row + x) 1 * 16
  | 0x11 => bits (s.unit d.handle 0 (row + 2 * x) 2) 15 6 * 4
  | _ => s.unit d.handle 0 (row + 2 * x) 1 * 16

/-- A chroma sample of a YCbCr slot, Cb or Cr, at chroma column `j` and row `y`. -/
def State.chromaSample (s : State) (d : SlotDecl) (cr : Bool) (j y : Nat) : Nat :=
  match d.format with
  | 0x10 => s.unit d.handle 1 (y * d.stride1 + 2 * j + b2n cr) 1 * 16
  | 0x11 => bits (s.unit d.handle 1 (y * d.stride1 + 4 * j + 2 * b2n cr) 2) 15 6 * 4
  | _ => s.unit d.handle 0 (y * d.stride0 + 4 * j + 1 + 2 * b2n cr) 1 * 16

/-! ### Scalers (R104–R109) -/

/-- The number that names a coefficient of a pipe: bank, set (1 vertical), phase, tap. -/
def coefKey (bank set phase tap : Nat) : Nat := ((bank * 2 + set) * 64 + phase) * 8 + tap

/-- The packed default rows of a bank and set. -/
def coefRows (bank set : Nat) : List Nat :=
  match bank, set with
  | 0, 0 => coef0H | 0, _ => coef0V | 1, 0 => coef1H | 1, _ => coef1V | _, 0 => coef2H | _, _ => coef2V

/-- The default coefficient (R108): the windowed sinc of banks 0–2, the bilinear bank 3. Tap 0 of R106 has number 3 in the
horizontal set and 2 in the vertical one. -/
def coefDefault (bank set phase tap : Nat) : Int :=
  if bank = 3 then
    let mid := if set = 0 then 3 else 2
    if tap = mid then 256 - 4 * phase else if tap = mid + 1 then 4 * phase else 0
  else sext (bits ((coefRows bank set).getD phase 0) (10 * tap + 9) (10 * tap)) 10

/-- A coefficient of pipe `p` (R107): the stored one, else the default. -/
def PipeSt.coefAt (x : PipeSt) (bank set phase tap : Nat) : Int :=
  match x.coef.find? fun e => e.1 == coefKey bank set phase tap with
  | some e => e.2
  | none => coefDefault bank set phase tap

/-- The position of destination column `x` (R104, R105). -/
def position (x cw dw : Nat) (off : Int) : Int := ((2 * x + 1 : Nat) * cw - dw : Int) * 65536 / (2 * dw : Nat) + off

/-- The integer part of a position. -/
def posInt (p : Int) : Int := p / 65536

/-- The phase of a position, 0–63. -/
def posPhase (p : Int) : Nat := (p % 65536).toNat / 1024

/-- An index clamped to 0 … n − 1 (R106). -/
def clampIx (i : Int) (n : Nat) : Nat := (clampI 0 ((n : Int) - 1) i).toNat

/-- Sums `f` over the taps 0 … n − 1. -/
def tapSum (n : Nat) (f : Nat → Int) : Int := (rangeFrom 0 n).foldl (fun a k => a + f k) 0

/-- The vertical filter (R106) at column `i`: taps j − 2 to j + 3. -/
def filterV (x : PipeSt) (bank : Nat) (get : Nat → Nat → Nat) (h i : Nat) (pos : Int) : Nat :=
  clamp12 (asr (tapSum 6 (fun k => x.coefAt bank 1 (posPhase pos) k * get i (clampIx (posInt pos + (k : Int) - 2) h)) + 128) 8)

/-- The horizontal filter over the vertical results (R106): taps i − 3 to i + 4. -/
def filterHV (x : PipeSt) (bankH bankV : Nat) (get : Nat → Nat → Nat) (w h : Nat) (px py : Int) : Nat :=
  clamp12 (asr (tapSum 8 (fun k =>
    x.coefAt bankH 0 (posPhase px) k * filterV x bankV get h (clampIx (posInt px + (k : Int) - 3) w) py) + 128) 8)

/-! ### YCbCr to RGB (R92, Table 04.4) -/

/-- The coefficients cy, crv, cgu, cgv, cbu. -/
def cscCoefs (csc : Nat) (full : Bool) (ten : Bool) : Int × Int × Int × Int × Int :=
  match csc, full, ten with
  | 0, false, _ => (4787, 6561, 1611, 3342, 8293)
  | 0, true, false => (4111, 5764, 1415, 2936, 7285)
  | 0, true, true => (4099, 5747, 1411, 2927, 7263)
  | 1, false, _ => (4787, 7370, 877, 2191, 8684)
  | 1, true, false => (4111, 6474, 770, 1924, 7628)
  | 1, true, true => (4099, 6455, 768, 1919, 7606)
  | _, false, _ => (4787, 6901, 770, 2674, 8805)
  | _, true, false => (4111, 6062, 676, 2349, 7735)
  | _, true, true => (4099, 6044, 675, 2342, 7712)

/-- The conversion of one pixel. -/
def yccToRgb (csc : Nat) (full ten : Bool) (y cb cr : Nat) : Px :=
  let (cy, crv, cgu, cgv, cbu) := cscCoefs csc full ten
  let yn : Int := y - (if full then 0 else 256)
  let u : Int := cb - 2048
  let v : Int := cr - 2048
  ⟨4095, clamp12 (asr (cy * yn + crv * v + 2048) 12), clamp12 (asr (cy * yn - cgu * u - cgv * v + 2048) 12),
    clamp12 (asr (cy * yn + cbu * u + 2048) 12)⟩

/-! ### A slot's pixel -/

/-- The slot's scaled and converted pixel at destination column `x` and row `y` (R92, R104–R109). -/
def State.slotPixel (s : State) (m : List (Nat × Word)) (p k : Nat) (d : SlotDecl) (x y : Nat) : Px :=
  let t := s.pipe p
  let offH := sext d.phaseH 18
  let offV := sext d.phaseV 18
  if d.scalerNeed = 0 then s.rgbSample m p k d (d.cx + x) (d.cy + y)
  else
    let px := position x d.cw d.dw offH
    let py := position y d.ch d.dh offV
    let bh := bankFor d.bankH d.dw d.cw
    let bv := bankFor d.bankV d.dh d.ch
    let lum := fun get => filterHV t bh bv get d.cw d.ch px py
    if fmtYcc d.format then
      let cx := position x d.ccw d.dw (offH + 16384)
      let vert := d.format != 0x12
      let cyp := position y d.cch d.dh (offV + (if vert && d.site == 1 then 16384 else 0))
      let cbh := bankFor d.bankH d.dw d.ccw
      let cbv := bankFor d.bankV d.dh d.cch
      let row := if vert then d.cy / 2 else d.cy
      let chroma := fun cr => filterHV t cbh cbv (fun i j => s.chromaSample d cr (d.cx / 2 + i) (row + j)) d.ccw d.cch cx cyp
      yccToRgb d.csc d.full (d.format == 0x11) (lum fun i j => s.lumaSample d (d.cx + i) (d.cy + j)) (chroma false) (chroma true)
    else
      let get := fun (f : Px → Nat) i j => f (s.rgbSample m p k d (d.cx + i) (d.cy + j))
      ⟨lum (get Px.a), lum (get Px.r), lum (get Px.g), lum (get Px.b)⟩

/-! ### Blending (R114–R121) -/

/-- The blender's product (R118). -/
def mul12 (x y : Nat) : Nat :=
  let t := x * y + 2048
  (t + t / 4096) / 4096

/-- One component of the accumulator after a slot (R119). -/
def blendComp (premult : Bool) (c la ae d : Nat) : Nat :=
  min 4095 ((if premult then mul12 c la else mul12 c ae) + mul12 d (4095 - ae))

/-- The accumulator after a slot pixel. -/
def blend (premult : Bool) (c : Px) (la : Nat) (d : Px) : Px :=
  let ae := mul12 c.a la
  ⟨4095, blendComp premult c.r la ae d.r, blendComp premult c.g la ae d.g, blendComp premult c.b la ae d.b⟩

/-- Whether slot `k` of pipe `p` is hidden by shed step 3 in the frame being shown. -/
def State.shedHidden (s : State) (p : Nat) (d : SlotDecl) : Bool := SMap.get 0 (s.pipe p).shedVis d.layer == 3

/-- Whether a pixel of slot `k` on line `y` lies in a part that could not be fetched (R74, Table 18.2). -/
def PipeSt.badAt (t : PipeSt) (k x y : Nat) : Bool :=
  t.spans.any fun b => b.slot == k && b.line == y && b.x0 ≤ x && x < b.x1

/-- What slot `k` contributes at active pixel (x, y), by the first row of Table 05.1 that applies: nothing, or a pixel, whether the
STRAIGHT equation is forced, and whether full alpha is forced. -/
def State.contribution (s : State) (p k : Nat) (d : SlotDecl) (x y : Nat) : Option (Px × Bool × Bool) :=
  let t := s.pipe p
  let st := t.slot k
  let stale := st.stale || st.failed
  if !d.dst.has x y || !d.enable || s.shedHidden p d then none
  else
    let inside := d.opaqueArea.has x y
    let fillHere := stale || t.badAt k x y
    let malformed := d.format == 0x20 && d.scalerNeed == 0 &&
      gbcMalformed (s.gbcHeader d ((d.cx + (x - d.dx)) / 8) ((d.cy + (y - d.dy)) / 8)) (s.plane1 d)
    if inside then
      if fillHere || malformed then some ({ argb8888 d.fill with a := 4095 }, true, true)
      else some ({ s.slotPixel t.shown p k d (x - d.dx) (y - d.dy) with a := 4095 }, d.format == 0x31, true)
    else if stale && d.hide && !t.badAt k x y then none
    else if fillHere || malformed then some (argb8888 d.fill, true, false)
    else some (s.slotPixel t.shown p k d (x - d.dx) (y - d.dy), d.format == 0x31, false)

/-- The background of pipe `p` (R115). -/
def State.background (s : State) (p : Nat) : Px :=
  ⟨4095, widen10 (s.shownGet p (Reg.PB_BG_R p)), widen10 (s.shownGet p (Reg.PB_BG_G p)), widen10 (s.shownGet p (Reg.PB_BG_B p))⟩

/-- The accumulator after the last slot at active pixel (x, y) (R114–R121). No slot contributes inside the Beacon region (R117). -/
def State.blended (s : State) (p : Nat) (slots : List (Nat × SlotDecl)) (inBeacon : Bool) (x y : Nat) : Px :=
  let bg := s.background p
  if inBeacon then bg
  else slots.foldl (fun d e =>
    match s.contribution p e.1 e.2 x y with
    | none => d
    | some (c, straight, forced) =>
      blend (e.2.premult && !straight && !forced) c (if forced then 4095 else e.2.la) d) bg

/-! ### Colour (R122–R124) -/

/-- The number that names a LUT entry of a pipe: bank, table (1 post-LUT), component, index. -/
def lutKey (bank table comp ix : Nat) : Nat := ((bank * 2 + table) * 3 + comp) * 1025 + ix

/-- A LUT entry of a pipe: the stored one, else 4 × index (R123). -/
def PipeSt.lutAt (t : PipeSt) (bank table comp ix : Nat) : Nat :=
  match t.lut.find? fun e => e.1 == lutKey bank table comp ix with
  | some e => e.2
  | none => 4 * ix

/-- The output of a LUT for an input (R123). -/
def PipeSt.lutOut (t : PipeSt) (bank table comp v : Nat) : Nat :=
  let i := v / 4
  let f := v % 4
  min 4095 ((t.lutAt bank table comp i * (4 - f) + t.lutAt bank table comp (i + 1) * f + 2) / 4)

/-- One output component of the matrix (R124). -/
def matOut (m0 m1 m2 off : Nat) (c : Px) : Nat :=
  clamp12 (asr (sext m0 16 * c.r + sext m1 16 * c.g + sext m2 16 * c.b + 2048) 12 + sext off 13)

/-- Whether a step of the colour stage runs: enabled and not bypassed by a parity error (R122, R126). Steps: 0 pre-LUT, 1 matrix, 2
post-LUT. -/
def State.colourStep (s : State) (p n : Nat) : Bool :=
  let en := match n with
    | 0 => s.shownGet p (Reg.CL_CTRL_PRE_EN p)
    | 1 => s.shownGet p (Reg.CL_CTRL_MAT_EN p)
    | _ => s.shownGet p (Reg.CL_CTRL_POST_EN p)
  en == 1 && !((s.pipe p).clBad.any fun b => b.step == n && !b.due)

/-- The colour stage (R122). -/
def State.colour (s : State) (p : Nat) (c : Px) : Px :=
  let t := s.pipe p
  let bank := s.shownGet p (Reg.CL_CTRL_LUT_BANK p)
  let lut := fun table (c : Px) => Px.mk c.a (t.lutOut bank table 0 c.r) (t.lutOut bank table 1 c.g) (t.lutOut bank table 2 c.b)
  let g := s.shownGet p
  let mat := fun c : Px => Px.mk c.a
    (matOut (g (Reg.CL_MAT_0_M00 p)) (g (Reg.CL_MAT_0_M01 p)) (g (Reg.CL_MAT_1_M02 p)) (g (Reg.CL_OFF_RG_OFF_R p)) c)
    (matOut (g (Reg.CL_MAT_1_M10 p)) (g (Reg.CL_MAT_2_M11 p)) (g (Reg.CL_MAT_2_M12 p)) (g (Reg.CL_OFF_RG_OFF_G p)) c)
    (matOut (g (Reg.CL_MAT_3_M20 p)) (g (Reg.CL_MAT_3_M21 p)) (g (Reg.CL_MAT_4_M22 p)) (g (Reg.CL_OFF_B_OFF_B p)) c)
  let c := if s.colourStep p 0 then lut 0 c else c
  let c := if s.colourStep p 1 then mat c else c
  if s.colourStep p 2 then lut 1 c else c

/-! ### Dither (R127, R128) -/

/-- The ordered matrix of Table 05.4. -/
def ditherM (y x : Nat) : Nat :=
  (match y % 4 with
    | 0 => [0, 8, 2, 10] | 1 => [12, 4, 14, 6] | 2 => [3, 11, 1, 9] | _ => [15, 7, 13, 5]).getD (x % 4) 0

/-- The temporal offsets of frame phase n. -/
def ditherOffset (n : Nat) : Nat × Nat := match n % 4 with
  | 0 => (0, 0) | 1 => (2, 2) | 2 => (2, 0) | _ => (0, 2)

/-- The threshold t of Table 05.3. -/
def ditherT (mode depth frame x y : Nat) : Nat :=
  let sh := 12 - depth
  let spatial := fun x y => (2 * ditherM y x + 1) * 2 ^ sh / 32
  match mode with
  | 0 => 2 ^ (sh - 1)
  | 1 => spatial x y
  | 2 => spatial (x + (ditherOffset frame).1) (y + (ditherOffset frame).2)
  | _ => 0

/-- A component reduced to the panel depth (R127). -/
def ditherOut (depth t v : Nat) : Nat := min (2 ^ depth - 1) ((v + t) / 2 ^ (12 - depth))

/-! ### Beacon (R143–R148) -/

/-- The base of the glyph store (R145). -/
def glyphBase : Nat := 0x10400000

/-- A directory entry of the glyph store: offset, height, width, CRC (Table 06.1). -/
structure GlyphDir where
  off : Nat
  h : Nat
  w : Nat
  crc : Nat
  deriving DecidableEq, Repr

/-- The directory entry of glyph `g`. -/
def State.glyphDir (s : State) (g : Nat) : GlyphDir :=
  let a := glyphBase + 16 * g
  let w1 := s.sramWord (a + 4)
  ⟨s.sramWord a, bits w1 25 16, bits w1 9 0, s.sramWord (a + 8)⟩

/-- Whether a glyph is present with a legal directory entry and a body inside the store (R145, R146). -/
def GlyphDir.ok (d : GlyphDir) : Bool :=
  d.off != 0 && d.off % 64 == 0 && 0x4000 ≤ d.off && 1 ≤ d.h && d.h ≤ 512 && 1 ≤ d.w && d.w ≤ 512 &&
    d.off + 64 + d.w * d.h ≤ 0x200000

/-- The index byte of glyph pixel (x, y). -/
def State.glyphIndex (s : State) (d : GlyphDir) (x y : Nat) : Nat := leNat (s.sramLoad (glyphBase + d.off + 64 + y * d.w + x) 1)

/-- Palette word `j` of a glyph. -/
def State.glyphColour (s : State) (d : GlyphDir) (j : Nat) : Nat := s.sramWord (glyphBase + d.off + 4 * j)

/-- Whether some rectangle of a list contains a pixel. -/
def rectsHave (rs : List Rect) (x y : Nat) : Bool := rs.any fun r => r.has x y

/-- The Beacon region in force on pipe `p`, clipped to the shown active area. -/
def State.region (s : State) (p : Nat) : List Rect :=
  match s.bcn p with
  | some b => regionOf b.img b.entry (s.shownGet p (Reg.TG_HACT_H_ACTIVE p)) (s.shownGet p (Reg.TG_VACT_V_ACTIVE p))
  | none => []

/-- The 30-bit Beacon colour of a pixel of the region of pipe `p` (R148): BE_BG, then each shown glyph in ascending tell-tale number; a
tell-tale with GLYPH_BAD draws its rectangle in BE_FAULT. Before GLYPH_BAD is set, an undefined index byte is drawn as transparent.
(DEDUCED, log 612.) -/
def State.beaconColour (s : State) (b : BcnForce) (shown : List TtShown) (x y : Nat) : Nat :=
  let bg := imgGet b.img (Reg.BE_BG_RGB b.entry)
  let fault := imgGet b.img (Reg.BE_FAULT_RGB b.entry)
  shown.foldl (fun c t =>
    match t.glyph with
    | none => c
    | some g =>
      let d := s.glyphDir g
      if t.misplaced || !(Rect.mk t.x t.y d.w d.h).has x y then c
      else if t.bad then fault
      else if !d.ok then c
      else
        let j := s.glyphIndex d (x - t.x) (y - t.y)
        if j < 16 then bits (s.glyphColour d j) 29 0 else c) bg

/-- The emitted components at panel depth `d` of a 30-bit Beacon colour (R148). -/
def beaconOut (d c : Nat) : Nat × Nat × Nat := (bits c 29 20 / 2 ^ (10 - d), bits c 19 10 / 2 ^ (10 - d), bits c 9 0 / 2 ^ (10 - d))

/-- The word that a Beacon pixel contributes to the CRC (R157). -/
def beaconCrcWord (d : Nat) (c : Nat × Nat × Nat) : Nat :=
  c.1 * 2 ^ (10 - d) * 2 ^ 20 + c.2.1 * 2 ^ (10 - d) * 2 ^ 10 + c.2.2 * 2 ^ (10 - d)

/-! ### A composed line -/

/-- A pixel at the three tap points of Table 05.5. -/
structure Taps where
  blend : Px
  colour : Px
  out : Nat × Nat × Nat
  deriving DecidableEq, Repr

/-- The enabled slots of the shown state of pipe `p`, from the bottom of the z order upward. -/
def State.shownSlots (s : State) (p : Nat) : List (Nat × SlotDecl) :=
  (allSlots.map fun k => (k, declOf (s.pipe p).shown p k)).filter fun e => e.2.enable

/-- Line `y` of pipe `p`; pixels that composition has not reached take the background colour (R176). -/
def State.composeLine (s : State) (p y reached : Nat) : List Taps :=
  let slots := s.shownSlots p
  let reg := s.region p
  let depth := depthBits (s.shownGet p (Reg.CL_CTRL_DEPTH p))
  let mode := s.shownGet p (Reg.CL_CTRL_DITHER p)
  let frame := s.get (Reg.PIPE_POS_FRAME p)
  (rangeFrom 0 (s.shownGet p (Reg.TG_HACT_H_ACTIVE p))).map fun x =>
    let inB := rectsHave reg x y
    let bl := if reached ≤ x then s.background p else s.blended p slots inB x y
    let col := s.colour p bl
    let t := ditherT mode depth frame x y
    let out := match s.bcn p with
      | some b => if inB then beaconOut depth (s.beaconColour b (s.pipe p).ttNow x y)
          else (ditherOut depth t col.r, ditherOut depth t col.g, ditherOut depth t col.b)
      | none => (ditherOut depth t col.r, ditherOut depth t col.g, ditherOut depth t col.b)
    ⟨bl, col, out⟩

/-- The Beacon CRC continued over the region pixels of line `y` (R157). (DEDUCED, log 604.) -/
def State.beaconCrcLine (s : State) (p y : Nat) (line : List Taps) (c : Nat) : Nat :=
  let reg := s.region p
  let depth := depthBits (s.shownGet p (Reg.CL_CTRL_DEPTH p))
  (line.zipIdx).foldl (fun c e =>
    if rectsHave reg e.2 y then crc32Update c (leBytes 4 (beaconCrcWord depth e.1.out)) else c) c

/-- The last line of a region, 0 for none. (DEDUCED, log 604.) -/
def lastRegionLine (rs : List Rect) : Nat := maxNat (rs.map fun r => r.y + r.h - 1)

/-! ### The Cagan line (R306) and writeback (R131) -/

/-- The bit stream of a line, R lowest, then G, then B, d bits each. -/
def lineBits (d : Nat) (line : List Taps) : Nat :=
  line.foldr (fun t acc => ((acc * 2 ^ d + t.out.2.2) * 2 ^ d + t.out.2.1) * 2 ^ d + t.out.1) 0

/-- The data blocks of a line of `w` pixels. -/
def lineBlocks (d w : Nat) (line : List Taps) : List Nat :=
  let b := lineBits d line
  (rangeFrom 0 (cdiv (w * 3 * d) 64)).map fun i => bits b (64 * i + 63) (64 * i)

/-- LS, data and LE of line `y` of a frame (R306, Table 12.2); `bad` inverts the line's LE CRC. -/
def caganLine (d w y frame : Nat) (line : List Taps) (bad : Bool) : List Nat :=
  let data := lineBlocks d w line
  let crc := crcFinal (data.foldl (fun c b => crc32Update c (leBytes 8 b)) 0xFFFFFFFF)
  let crc := if bad then crcFinal crc else crc
  [0x55 + y * 2 ^ 8 + frame % 256 * 2 ^ 24] ++ data ++ [0x66 + crc * 2 ^ 8]

/-- A 12-bit component reduced to n bits (R131). (DEDUCED, log 408.) -/
def reduce12 (n v : Nat) : Nat := min (2 ^ n - 1) ((v + 2 ^ (11 - n)) / 2 ^ (12 - n))

/-- A d-bit component at the OUTPUT point as n bits, d ≤ n (R131). -/
def widenOut (d n v : Nat) : Nat :=
  if d = n then v
  else if d = 6 ∧ n = 8 then v * 4 + v / 16
  else if d = 6 then v * 16 + v / 4
  else v * 4 + v / 64

/-- A pixel as writeback stores it at a tap point: format 0 ARGB8888, 1 ARGB2101010. -/
def wbWord (fmt tap d : Nat) (t : Taps) : Nat :=
  let n := if fmt = 0 then 8 else 10
  let c := match tap with
    | 0 => (reduce12 n t.blend.r, reduce12 n t.blend.g, reduce12 n t.blend.b)
    | 1 => (reduce12 n t.colour.r, reduce12 n t.colour.g, reduce12 n t.colour.b)
    | _ => (widenOut d n t.out.1, widenOut d n t.out.2.1, widenOut d n t.out.2.2)
  let alpha := if fmt = 0 then 0xFF000000 else 0xC0000000
  alpha + c.1 * 2 ^ (2 * n) + c.2.1 * 2 ^ n + c.2.2

/-- The bytes of a line at a tap point. -/
def wbLine (fmt tap d : Nat) (line : List Taps) : List Byte := line.flatMap fun t => leBytes 4 (wbWord fmt tap d t)

end Sys2Proof.Machine
end

