-- ==== Sys2Proof/Machine/PowerOps.lean ====
section
/-! DEFINITION. The token grant (R404–R411): the thermal limit, the budget in force and the leftover tokens; PWR_STATE.STATE. -/
namespace Sys2Proof.Machine

/-- Records the last power fault (PWR_ERR_INFO) and reports it. -/
def State.pwrFault (s : State) (f : FaultId) (n : Nat) (inj : Bool := false) : State :=
  (s.put Reg.PWR_ERR_INFO_FAULT n).fault f inj

/-- PWR_STATE.STATE follows the pipes (R397): ACTIVE while a pipe is not STOPPED, else STANDBY; ENTERING stays. -/
def State.refreshPwr (s : State) : State :=
  if s.get Reg.PWR_STATE_STATE = 2 then s
  else s.put Reg.PWR_STATE_STATE (if allPipes.any fun p => s.mode p != .stopped then 0 else 1)

/-- Interrupt source 205 and PWR_STATUS.THROTTLE (R410): TL is below PWR_BUDGET.TOKENS. -/
def State.refreshThrottle (s : State) : State :=
  let b := s.get Reg.PWR_STATUS_THERMAL_LIMIT < s.get Reg.PWR_BUDGET_TOKENS
  (s.put Reg.PWR_STATUS_THROTTLE (b2n b)).level 205 b

/-- The number of valid sensors. -/
def State.validSensors (s : State) : Nat := (maskBits 16 (s.get Reg.TH_VALID_VALID)).length

/-- The thermal limit after a grant (R410, R411), from the limit and the budget before it. -/
def State.nextTl (s : State) : Nat :=
  let tl := s.get Reg.PWR_STATUS_THERMAL_LIMIT
  let b := s.get Reg.PWR_STATUS_IN_FORCE
  let step := max 1 (s.get Reg.TH_CFG_STEP)
  let period := max 1 (s.get Reg.TH_CFG_PERIOD)
  let free := match s.pwr.sinceChange with
    | none => true
    | some n => period ≤ n + 1
  let tj := sext (s.get Reg.TH_STATUS_TJ) 16
  if s.validSensors < 8 then s.get Reg.TH_MIN_MIN
  else if !free then tl
  else if ((4 * s.get Reg.TH_CFG_THR : Nat) : Int) ≤ tj then max (s.get Reg.TH_MIN_MIN) (b - step)
  else if !s.pwr.hot && period ≤ s.pwr.cool + 1 then min 288 (tl + step)
  else tl

/-- The leftover tokens are shared (R407, R408). -/
def State.shareLeftover (s : State) : State :=
  let w := s.world []
  let held := min 511 (s.figures s.orbit.sheds w).tokens
  let freed := sumNat (w.map fun e => if s.mode e.1 == .banked then pipeTokens s.orbit.sheds e.1 e.2 - 1 else 0)
  let free := s.get Reg.PWR_STATUS_IN_FORCE + freed - held
  let enc := min (min 8 (s.get Reg.PWR_BE_ENC_MAX)) free
  let dec := min (s.get Reg.PWR_BE_DEC_MAX) (free - enc)
  let xfer := min (s.get Reg.PWR_BE_XFER_MAX) (free - enc - dec)
  let s := (s.put Reg.PWR_HELD_HELD held).put Reg.PWR_HELD_FREE (min 511 free)
  let s := (s.put Reg.PWR_GRANT_BANKED_FREE (min 255 freed)).put Reg.PWR_GRANT_XFER xfer
  (s.put Reg.PWR_GRANT_DEC dec).put Reg.PWR_GRANT_ENC enc

/-- A token grant (R405–R411): a master frame boundary, or the grant timer while no master raster runs. -/
def State.grant (s : State) : State :=
  let s := if s.is Reg.PWR_INJ_ARB then (s.put Reg.PWR_INJ_ARB 0).pwrFault .ARB_PAR 6 true else s
  let tl := s.nextTl
  let changed := tl != s.get Reg.PWR_STATUS_THERMAL_LIMIT
  let since := if changed then some 0 else s.pwr.sinceChange.map fun n => n + 1
  let s := { s with pwr := { s.pwr with sinceChange := since, cool := if s.pwr.hot then 0 else s.pwr.cool + 1, hot := false } }
  let b := min (s.get Reg.PWR_BUDGET_TOKENS) tl
  let old := s.get Reg.PWR_STATUS_IN_FORCE
  let s := ((s.put Reg.PWR_STATUS_THERMAL_LIMIT tl).put Reg.PWR_STATUS_IN_FORCE b).refreshThrottle
  let s := if b = old then s
    else (s.occur 204).changeCapacity fun s => s.put Reg.CAPACITY_BUDGET_TOKENS b
  s.shareLeftover

end Sys2Proof.Machine
end

