-- ==== Sys2Proof/Machine/PipeOps.lean ====
section
/-! DEFINITION. A pipe's frame: Banked entry and exit (R187–R190), a state taking effect at a boundary (R19, R44, R101), relock, start and stop
(R182–R186), tracking (R177, R178), tell-tales and the end-to-end comparison (R151–R160), and the master boundary (R15). -/
namespace Sys2Proof.Machine

/-! ### Banked (R187–R190) -/

/-- Total lines of the frame of pipe `p` under way (R14). -/
def State.frameLines (s : State) (p : Nat) : Nat :=
  let v := s.shownGet p (Reg.TG_VACT_V_TOTAL p)
  ((v : Int) + (s.pipe p).vExtra).toNat

/-- The entry into Banked under way is given up: the port sends RESUME and the next frame normally (R188, R317). -/
def State.cancelHold (s : State) (p : Nat) : State :=
  let sent := (s.pipe p).holdSent
  let s := s.modPipe p fun x => { x with holdSent := false, holdAck := false }
  let s := s.setPort p { s.port p with holdOut := false }
  let s := if s.get (Reg.CG_STATUS_TX p) == 2 then s.setTx p 0 else s
  let s := s.when sent fun s => s.sendBlock p blkRESUME
  s.when (s.mode p == .bankEntry) fun s => s.setMode p .running

/-- An exit trigger of R190 on pipe `p`: a Banked pipe resumes at the next boundary when the trigger falls at or before the end of line
V_TOTAL − 20, else at the one after; a pipe on its way into Banked stays active. (DEDUCED, log 705.) -/
def State.bankExit (s : State) (p : Nat) : State :=
  match s.mode p with
  | .bankEntry => s.cancelHold p
  | .banked =>
    let late := s.frameLines p < (s.pipe p).nextLine + 19
    (s.setMode p .bankExit).modPipe p fun x => { x with wakeNext := !late, wakeLate := late }
  | .bankExit =>
    if (s.pipe p).wakeLate && (s.pipe p).nextLine + 19 ≤ s.frameLines p then
      s.modPipe p fun x => { x with wakeNext := true, wakeLate := false }
    else s
  | _ => s

/-- Something changed that the unchanged-frame count of R187 heeds. -/
def State.noteChange (s : State) (p : Nat) : State := s.modPipe p fun x => { x with quietChange := true }

/-- The effective Beacon lead of pipe `p` (R18). -/
def State.beaconLead (s : State) (p : Nat) : Nat :=
  let m := (s.pipe p).shown
  let vt := imgGet m (Reg.TG_VACT_V_TOTAL p)
  vt - beaconLineOf m p vt

/-- The first condition of R187 that fails, 0 for none. -/
def State.bankBlock (s : State) (p : Nat) : Nat :=
  let x := s.pipe p
  let open_ := match s.bcnEntry p with
    | some e => s.is (Reg.BE_HOLD_LEN_OPEN e)
    | none => false
  if !s.is (Reg.BANK_CFG_EN p) then 1
  else if s.get (Reg.BANK_STAT_UNCHANGED p) < max 1 (s.get (Reg.BANK_CFG_FRAMES p)) then 2
  else if !x.pend.isEmpty || x.next.isSome then 3
  else if x.ttNow.any fun t => t.code == 2 || t.code == 3 then 4
  else if s.shownGet p (Reg.CL_CTRL_DITHER p) == 2 then 5
  else if s.get (Reg.WB_CTRL_MODE p) == 1 || s.get (Reg.WB_CTRL_MODE p) == 2 || x.wb.capturing || !x.wb.closing.isEmpty then 6
  else if open_ then 7
  else if s.beaconOn p && s.beaconLead p < 20 then 8
  else if s.get (Reg.CG_CAPS_HOLD p) == 0 then 9
  else 0

/-- The Banked bookkeeping of a boundary of an active pipe: the unchanged-frame count, BLOCK, and entry (R187, R188). -/
def State.bankBoundary (s : State) (p : Nat) : State :=
  let x := s.pipe p
  let reset := x.quietChange || x.slots.any fun e => e.2.held
  let n := if reset then 0 else satInc (s.get (Reg.BANK_STAT_UNCHANGED p)) 255
  let s := (s.put (Reg.BANK_STAT_UNCHANGED p) n).modPipe p fun x => { x with quietChange := false }
  let b := s.bankBlock p
  let s := s.put (Reg.BANK_STAT_BLOCK p) b
  if b = 0 ∧ s.mode p = .running ∧ s.get (Reg.CG_STATUS_TX p) = 0 ∧ s.get (Reg.CG_STATUS_STATE p) = 6 then s.setMode p .bankEntry else s

/-! ### A state takes effect (R19, R44, R101) -/

/-- The scalers of a pipe that a mask of other slots leaves free, ascending. -/
def freeScalers (used : Nat) : List Nat := [0, 1, 2, 3].filter fun i => !bit used i

/-- Gives slot `k` the first `n` free scalers. -/
def giveScalers (x : PipeSt) (k n : Nat) : PipeSt :=
  let used := x.slots.foldl (fun u e => u ||| e.2.scalers) 0
  let m := ((freeScalers used).take n).foldl (fun m i => m ||| 2 ^ i) 0
  x.setSlot k { x.slot k with scalers := m }

/-- Assigns scalers at the boundary from which a state is shown (R101): unchanged needs keep theirs, then pairs, then singles. A slot
hidden by shed step 3 holds none (R53). -/
def State.assignScalers (s : State) (p : Nat) : State :=
  let need := fun k =>
    let d := declOf (s.pipe p).shown p k
    if s.shedHidden p d then 0 else d.scalerNeed
  let held := fun (x : PipeSt) k => (maskBits 4 (x.slot k).scalers).length
  s.modPipe p fun x =>
    let x := allSlots.foldl (fun x k => if held x k = need k then x else x.setSlot k { x.slot k with scalers := 0 }) x
    let x := allSlots.foldl (fun x k => if need k = 2 ∧ held x k = 0 then giveScalers x k 2 else x) x
    allSlots.foldl (fun x k => if need k = 1 ∧ held x k = 0 then giveScalers x k 1 else x) x

/-- Buffers that a pipe's new state shows become SHOWN (R44): SEALED buffers of enabled slots with no stale action in force. -/
def State.markShown (s : State) (p : Nat) : State :=
  forAll allSlots (fun k s =>
    let x := s.pipe p
    let d := declOf x.shown p k
    if d.enable && !(x.slot k).stale && !(x.slot k).failed && (s.handle d.handle).st == .sealed then s.setBuf d.handle .shown else s) s

/-- The held, stale and failed marks of the slots from a state taken at a commit line. A slot whose new state names a ready buffer loses
the mark of R74. -/
def takeMarks (x : PipeSt) (n : NextState) : PipeSt :=
  allSlots.foldl (fun x k =>
    let o := x.slot k
    let w := n.held.find? fun e => e.1 == k
    let failed := if n.id = 0 ∧ w.isNone then o.failed && !o.held else n.failed.contains k || (o.failed && w.isSome)
    x.setSlot k { o with held := w.isSome, wait := (w.map fun e => e.2).getD [], heldFrames := if w.isSome then o.heldFrames else 0,
                         stale := n.stale.contains k, failed }) x

/-- A slot as a frame boundary finds it: the words skipped in the frame that ends, the lines fetched ahead, and the failures of its
fetch, which apply from here on (R74). -/
def SlotSt.turn (t : SlotSt) (ahead : Bool) : SlotSt :=
  { t with culled := t.culling, culling := false, run := (t.run.filter fun l => l.ahead).map fun l => { l with ahead := false },
           failed := t.failed || t.failNext, failNext := ahead }

/-- A bypass that waited for the frame boundary is in force. -/
def ClBad.start (b : ClBad) : ClBad := { b with due := false }

/-- The pipe passes to a new counted frame: the counts, the marks of the frame that ended, and what was fetched ahead; the shed steps `sheds`
are in force from here on (R52). -/
def PipeSt.turn (x : PipeSt) (stamp now : Nat) (sheds : List (Nat × Nat)) : PipeSt :=
  let ahead := fun k => x.spans.any fun b => b.ahead && b.slot == k
  let x := { x with frameStamp := stamp, sameStamp := if x.frameStamp = stamp then x.sameStamp + 1 else 0, boundaryAt := now,
                    nextLine := 0, commitDone := false, beaconDone := false, prefetched := false, bcnCrc := 0xFFFFFFFF, bcnFlip := false, suspect := [],
                    shedVis := sheds, clBad := x.clBad.map ClBad.start }
  let x := allSlots.foldl (fun x k => x.setSlot k ((x.slot k).turn (ahead k))) x
  { x with spans := (x.spans.filter fun b => b.ahead).map fun b => { b with ahead := false } }

/-- The state that the coming frame of pipe `p` shows, as it stands: on a starting pipe the one that its start commit will give, on a pipe
that is to stop the one it repeats (R40, R185, R186). -/
def State.comingState (s : State) (p : Nat) : NextState :=
  let x := s.pipe p
  match x.next with
  | some n => if imgGet n.img (Reg.TG_CTRL_RUN p) = 1 then n else { x with next := none }.keepNext
  | none =>
    match x.pend with
    | c :: _ => if s.mode p == .starting && !x.restart then s.takenState p c else x.keepNext
    | [] => x.keepNext

/-- Whether the STALE_ACTION of slot `k` is in force in the frame being emitted (`ahead` false) or in the coming one (R42, R74). -/
def State.slotOff (s : State) (p k : Nat) (ahead : Bool) : Bool :=
  let x := s.pipe p
  let x := if ahead then takeMarks (x.turn x.frameStamp x.boundaryAt x.shedVis) (s.comingState p) else x
  (x.slot k).stale || (x.slot k).failed

/-- The image of the frame being emitted, or of the coming one. -/
def State.frameImg (s : State) (p : Nat) (ahead : Bool) : List (Nat × Word) := if ahead then (s.comingState p).img else (s.pipe p).shown

/-- CG_BW shows need and avail of the timing in force (R307). -/
def State.refreshBw (s : State) (p : Nat) : State :=
  let x := s.pipe p
  let t := timingOf x.shown p
  (s.put (Reg.CG_BW_NEED p) t.need).put (Reg.CG_BW_AVAIL p) (min 65535 (t.avail x.fNum x.fDen))

/-- Marks the entry of pipe `p` as under a covered change (R156): no comparison is made and every proof is UNPROVEN. (DEDUCED, log 601.) -/
def State.coverEntry (s : State) (e : Nat) : State :=
  let s := s.setEntry e { s.entry e with covered := true, noMatch := 0 }
  let s := (rangeFrom 0 64).foldl (fun s i =>
    if s.get (Reg.TT_CFG_ENTRY i) == e && s.is (Reg.TT_CFG_EN i) then s.put (Reg.TT_STATE_PROOF i) 0 else s) s
  s.refreshHold e

/-- Whether a state that pipe `p` shows from a boundary ends a parity bypass (R126): a LUT bypass when its commit selects the other bank, a
matrix bypass when a matrix register was written between the fault and the commit. A state that no commit gave ends none. (DEDUCED, log 508.) -/
def endsBypass (n : NextState) (p : Nat) (b : ClBad) : Bool :=
  n.id != 0 &&
    (if b.step = 1 then b.mark < n.mat
     else
      let on := imgGet n.img (Reg.CL_CTRL_PRE_EN p) == 1 || imgGet n.img (Reg.CL_CTRL_POST_EN p) == 1
      on && imgGet n.img (Reg.CL_CTRL_LUT_BANK p) != b.mark)

/-- Pipe `p` shows a state from this boundary (R19, R39, R44); a change of its timing is a covered change of its entry (R156) unless it
starts the pipe, which needs no window (R425). A commit that takes effect advances the generation (R386). -/
def State.showState (s : State) (p : Nat) (n : NextState) (start : Bool := false) : State :=
  let x := s.pipe p
  let timed := !start && timingKey x.shown p != timingKey n.img p
  let s := s.modPipe p fun x =>
    takeMarks { x with shown := n.img, fNum := n.fNum, fDen := n.fDen, next := none,
                       clBad := x.clBad.filter fun b => !endsBypass n p b } n
  let s := ((s.markShown p).assignScalers p).refreshBw p
  let s := s.when (n.id != 0 || n.tag.isSome) fun s => s.bumpGen p
  let s := match n.tag with
    | some t => s.commitShown p t
    | none => s
  let s := match s.bcn p with
    | some b => if timed then s.coverEntry b.entry else s
    | none => s
  ((s.noteChange p).cgLevel p).settleAdm

/-! ### Relock, start and stop (R182–R186) -/

/-- Whether a new state changes the pixel clock (R182, R183). -/
def clockChanges (old new : List (Nat × Word)) (p fn fd gn gd : Nat) : Bool :=
  let a := timingOf old p
  let b := timingOf new p
  a.hTot * a.vTot * fn * gd != b.hTot * b.vTot * gn * fd

/-- The pixel PLL of pipe `p` starts a lock for a state's pixel clock (R325). -/
def State.lockFor (s : State) (p : Nat) (m : List (Nat × Word)) (fn fd : Nat) (planned : Bool) : State :=
  let t := timingOf m p
  let c := pixelClock t.hTot t.vTot fn fd
  (s.loadPll p c.1 c.2).startLock p planned

/-- The pipe stops fetching (R183): what it had fetched ahead, and the failures met in doing so, belong to no frame. -/
def PipeSt.stopFetch (x : PipeSt) : PipeSt :=
  { x with prefetched := false, spans := x.spans.filter fun b => !b.ahead, slots := x.slots.map fun e => (e.1, { e.2 with run := [] }) }

/-- The relock of R183 begins: steps 1 to 3. -/
def State.enterRelock (s : State) (p : Nat) (n : NextState) : State :=
  let s := (s.setMode p .relock).modPipe p fun x => { x.stopFetch with seqStep := 2, pllOk := false }
  let s := if s.get (Reg.CG_STATUS_TX p) == 4 then s else ((s.setTx p 1).cgFill p)
  let s := s.startUnmastered.lockFor p n.img n.fNum n.fDen true
  let rate := (timingOf n.img p).rate
  if rate = s.get (Reg.CG_STATUS_RATE p) then s else s.cgDetect p rate

/-- A pixel-PLL loss puts the pipe into the gap of R183 with an unchanged timing (R339). -/
def State.lossRelock (s : State) (p : Nat) : State :=
  let s := (s.setMode p .relock).modPipe p fun x =>
    { x.stopFetch with seqStep := 2, pllOk := false, holdSent := false, holdAck := false, wakeNext := false, wakeLate := false }
  let s := s.startUnmastered
  let s := if s.get (Reg.CG_STATUS_STATE p) == 7 then s.setCgState p 6 else s
  if s.get (Reg.CG_STATUS_TX p) == 4 then s else ((s.setTx p 1).cgFill p)

/-- The stop sequence of R186 begins at boundary b. -/
def State.enterStop (s : State) (p : Nat) (tag : Option Nat) : State :=
  let s := (s.setMode p .stopping).modPipe p fun x => { x with seqStep := 1, next := none, blOnIn := none }
  let s := ((s.seqBacklight p false).noteChange p).bumpGen p
  match tag with
  | some t => s.commitShown p t
  | none => s

/-- Steps 3 of R186: the port sends BLANK, the lanes enter electrical idle and the PLL stops. -/
def State.stopOutput (s : State) (p : Nat) : State :=
  let s := s.when (s.cgTrained p) fun s => (s.setTx p 1).cgFill p
  let s := (s.cgDown p).stopPll p
  (s.modPipe p fun x => { x.stopFetch with seqStep := 2 }).startUnmastered

/-- Releases every buffer that pipe `p` shows, for a state that shows none. -/
def State.releaseAll (s : State) (p : Nat) (old : List (Nat × Word)) : State :=
  allSlots.foldl (fun s k =>
    let d := declOf old p k
    if d.enable then s.releaseBuf p ⟨d.handle, d.dy + d.dh - 1, hiddenBy s.orbit.sheds d⟩ else s) s

/-- Step 4 of R186: the panel power pin is deasserted and the pipe is STOPPED; the stop commit has completed, and what waits behind it
follows R185. A pipe stopped by a clock failure keeps its committed state (R338). (DEDUCED, log 709.) -/
def State.finishStop (s : State) (p : Nat) : State :=
  let s := ((s.seqPower p false).setMode p .stopped).modPipe p fun x => { x with seqStep := 0 }
  let s := s.refreshPwr
  if (s.pll p).failed then s.cgLevel p
  else
    let old := (s.pipe p).shown
    match (s.pipe p).pend with
    | [] => s.cgLevel p
    | c :: _ =>
      if imgGet c.img (Reg.TG_CTRL_RUN p) = 1 then s.cgLevel p
      else
        let s := s.modPipe p fun x =>
          { x with shown := c.img, fNum := c.fNum, fDen := c.fDen, pend := x.pend.drop 1, slots := [], rel := [], spans := [],
                   ttNow := [], bcn := x.bcnNext.getD x.bcn, bcnNext := none, next := none }
        let s := ((s.releaseAll p old).cgLevel p).settleAdm
        s.startPipe p

/-! ### Tracking (R177, R178) -/

/-- Rounds a quotient of integers to the nearest integer, halves away from zero. -/
def roundDiv (a : Int) (b : Nat) : Int :=
  if b = 0 then 0
  else if 0 ≤ a then (2 * a + b) / (2 * b) else -((2 * (-a) + b) / (2 * b))

/-- The correction of a frame from the phase error `e` and the measured frame-length difference `d` (R177, R178): the lines that this
frame adds to V_FP, the pixels added to its last line, and the outstanding lines and remainder. -/
def correction (t : Timing) (vadj : Nat) (e d : Int) : Int × Int × Int × Int :=
  let c := e + d
  let l := roundDiv c t.hTot
  let r := c - l * t.hTot
  let lim := clampI (-(vadj : Int)) vadj l
  let now := if (t.vFp : Int) + lim < 1 then 1 - (t.vFp : Int) else lim
  (now, if now = l then r else 0, l, r)

/-- The lines, and the pixels beyond them, that the down-spread of a frame takes (R335): the deficit of triangles of `n` lines, the last one
cut off at the boundary, at depth `s` × 0.05 %. (DEDUCED, log 1304.) -/
def spreadDeficit (t : Timing) (n s : Nat) : Nat × Int :=
  let whole := t.vTot / n
  let r := t.vTot % n
  -- twice n times the sum of the triangle's depth over the frame, in lines
  let x := whole * n * n + (if 2 * r ≤ n then 2 * r * r else n * n - 2 * (n - r) * (n - r))
  let l := (2 * s * x + 2000 * 2 * n) / (2 * 2000 * 2 * n)
  let d := (2 * t.hTot * s * x + 2000 * 2 * n) / (2 * 2000 * 2 * n)
  (l, (d : Int) - (l * t.hTot : Nat))

/-- The down-spread of pipe `p` in the frame starting (R335): lines and pixels removed; SSC_OFF where V_FP is too small.
(DEDUCED, log 1304.) -/
def State.spread (s : State) (p : Nat) (t : Timing) : State × Nat × Int :=
  if !s.is (Reg.PLL_SSC_EN p) then (s.put (Reg.PLL_SSC_SSC_OFF p) 0, 0, 0)
  else
    let r := spreadDeficit t (max 1 (s.get (Reg.PLL_SSC_LINES p))) (min 10 (s.get (Reg.PLL_SSC_DEPTH p)))
    if t.vFp < r.1 + 1 then (s.put (Reg.PLL_SSC_SSC_OFF p) 1, 0, 0) else (s.put (Reg.PLL_SSC_SSC_OFF p) 0, r)

/-- The tracking of a boundary: TG_PHASE, ALIGNED, SLEWING, TG_VADJ, and the length of the frame then starting. (DEDUCED, log 701.) -/
def State.track (s : State) (p : Nat) (e d : Int) : State :=
  let t := timingOf (s.pipe p).shown p
  let (s, sl, sr) := s.spread p t
  if !s.tracks p then
    ((((s.put (Reg.TG_STATUS_ALIGNED p) 0).put (Reg.TG_STATUS_SLEWING p) 0).put (Reg.TG_VADJ_LINES p) 0).put
      (Reg.TG_VADJ_REMAINDER p) 0).modPipe p fun x => { x with vExtra := -(sl : Int), tailPixels := -sr }
  else
    let (now, tail, l, r) := correction { t with vFp := t.vFp - sl } (s.shownGet p (Reg.TG_SYNC_VADJ_MAX p)) e d
    let s := s.put (Reg.TG_PHASE_ERROR p) (toTwos e 32)
    let s := s.put (Reg.TG_STATUS_ALIGNED p) (b2n (-2 ≤ e && e ≤ 2))
    let s := s.put (Reg.TG_STATUS_SLEWING p) (b2n (l != now))
    let s := (s.put (Reg.TG_VADJ_LINES p) (toTwos (l - now) 16)).put (Reg.TG_VADJ_REMAINDER p) (if now = l then 0 else toTwos r 16)
    s.modPipe p fun x => { x with vExtra := now - sl, tailPixels := tail - sr }

/-! ### Tell-tales (R150–R153) -/

/-- The tell-tale register sets. -/
def allTts : List Nat := rangeFrom 0 64

/-- Tell-tale `i` beside its registers. -/
def State.tt (s : State) (i : Nat) : TtSt := SMap.get {} s.bc.tts i

/-- Replaces tell-tale `i`. -/
def State.setTt (s : State) (i : Nat) (x : TtSt) : State := { s with bc := { s.bc with tts := SMap.set {} s.bc.tts i x } }

/-- Whether an address is TT_CFG, TT_POS or TT_MODE of a tell-tale, the class F fields that a Beacon line latches (R152, R170). -/
def ttCfgAddr (a : Nat) : Bool := 0x20201000 ≤ a && a < 0x20201400 && a % 16 != 12

/-- The age in ms at this instant of a signal whose age was `age0` at the time `ageAt`, saturating at 65,535 (R151); none: saturated.
(DESIGN CHOICE, log 607.) -/
def State.ageMs (s : State) (ageAt : Option Nat) (age0 : Nat) : Nat :=
  match ageAt with
  | none => 65535
  | some t => min 65535 (age0 + (s.now - t) / msNs)

/-- The signal age of tell-tale `i` in ms (R151). (DESIGN CHOICE, log 607.) -/
def State.ttAge (s : State) (i : Nat) : Nat := s.ageMs (s.tt i).ageAt (s.tt i).age0

/-- Whether tell-tale `i` is timed out (R151). After a reset the age is first compared when its first millisecond is counted, so that TIMED_OUT
has the reset value of R170. (DEDUCED, log 618.) -/
def State.ttTimedOut (s : State) (i : Nat) : Bool :=
  let t := s.get (Reg.TT_MODE_TIMEOUT i) * 10
  t != 0 && t < s.ttAge i && ((s.tt i).ageAt.isSome || msNs ≤ s.now - s.kin.resetAt)

/-- The request codes (R150). -/
def reqOff : Nat := 0
def reqOn : Nat := 1
def reqBlink : Nat := 2
def reqNone : Nat := 3

/-- The effective request of tell-tale `i` (R151). -/
def State.ttEffective (s : State) (i : Nat) : Nat :=
  let r := s.get (Reg.TT_STATE_REQ i)
  let r := if r = reqNone then reqOff else r
  if !s.ttTimedOut i then r
  else match s.get (Reg.TT_MODE_POLICY i) with
    | 0 => r
    | 2 => reqOff
    | _ => reqOn

/-- A request code reaches tell-tale `i` (R150): REQ is set and the signal age reset; NO_REQUEST leaves both. An ON or BLINK request is
captured for the next latch (R152). -/
def State.ttRequest (s : State) (i r : Nat) : State :=
  if r = reqNone then s
  else
    let x := s.tt i
    let cap := if r = reqOn ∨ r = reqBlink then some r else x.captured
    (s.put (Reg.TT_STATE_REQ i) r).setTt i { x with ageAt := some s.now, age0 := 0, captured := cap }

/-- The shown code of tell-tale `i` at a latch with stamp `st`, with its new state (R152). -/
def State.ttLatch (s : State) (i st : Nat) : Nat × TtSt :=
  let x := s.tt i
  let eff := s.ttEffective i
  let eff := if eff = reqOff then x.captured.getD reqOff else eff
  let on := max 1 (s.get (Reg.TT_MODE_BLINK_ON i))
  let off := max 1 (s.get (Reg.TT_MODE_BLINK_OFF i))
  if eff = reqBlink then
    let epoch := if x.blinking then x.epoch else st
    let ph := (st - epoch) % (on + off)
    (if ph < on then 2 else 3, { x with captured := none, blinking := true, epoch })
  else (if eff = reqOn then 1 else 0, { x with captured := none, blinking := false })

/-- The glyph of a shown code (R148): GLYPH_ON for on and the blink on-phase, else GLYPH_OFF or none. -/
def State.ttGlyph (s : State) (i code : Nat) : Option Nat :=
  if code = 1 ∨ code = 2 then some (s.get (Reg.TT_CFG_GLYPH_ON i))
  else if s.is (Reg.TT_CFG_OFF_NONE i) then none
  else some (s.get (Reg.TT_CFG_GLYPH_OFF i))

/-- Whether a rectangle lies wholly inside the union of others: every row of it is covered. -/
def insideAll (rs : List Rect) (r : Rect) : Bool := (rangeFrom r.y r.h).all fun y => covers rs y r.x (r.x + r.w)

/-- The tell-tale register sets enabled on entry `e`. -/
def State.ttsOf (s : State) (e : Nat) : List Nat := allTts.filter fun i => s.is (Reg.TT_CFG_EN i) && s.get (Reg.TT_CFG_ENTRY i) == e

/-- A Beacon line that does not latch a tell-tale ends its blinking and its capture (R152): one that is disabled, and one of `old` that the
entry no longer has. (DEDUCED, log 610.) -/
def State.dropLatches (s : State) (e : Nat) (old : List TtShown) : State :=
  (allTts.filter fun i => !s.is (Reg.TT_CFG_EN i) || (old.any (fun t => t.i == i) && !(s.ttsOf e).contains i)).foldl (fun s i =>
    s.setTt i { s.tt i with captured := none, blinking := false }) s

/-- The tell-tales of an entry latched for the next frame (R148, R152), under an active area of `w` × `h`. A misplaced one is FAILED from this
line on (R144). (DEDUCED, log 611.) -/
def State.latchTts (s : State) (b : BcnForce) (w h : Nat) : State × List TtShown :=
  let reg := regionOf b.img b.entry w h
  (s.ttsOf b.entry).foldl (fun (r : State × List TtShown) i =>
    let s := r.1
    let (code, x) := s.ttLatch i s.orbit.stamp
    let s := s.setTt i x
    let glyph := s.ttGlyph i code
    let px := s.get (Reg.TT_POS_X i)
    let py := s.get (Reg.TT_POS_Y i)
    let misplaced := match glyph with
      | none => false
      | some g => !insideAll reg ⟨px, py, (s.glyphDir g).w, (s.glyphDir g).h⟩
    let s := s.put (Reg.TT_STATE_PLACE_BAD i) (b2n misplaced)
    let s := if misplaced then s.put (Reg.TT_STATE_PROOF i) 2 else s
    (s, r.2 ++ [⟨i, code, glyph, px, py, s.is (Reg.TT_STATE_GLYPH_BAD i), misplaced⟩])) (s, [])

/-- Sets the proof of every tell-tale of an entry: 0 UNPROVEN, 1 CONFIRMED, 2 FAILED. A tell-tale with GLYPH_BAD or PLACE_BAD stays FAILED
(R144, R158); one of `suspect`, whose glyph did not match in the frame concerned, is not CONFIRMED for it. (DEDUCED, log 611.) -/
def State.setProofs (s : State) (e v : Nat) (suspect : List Nat := []) : State :=
  (s.ttsOf e).foldl (fun s i =>
    if s.is (Reg.TT_STATE_GLYPH_BAD i) || s.is (Reg.TT_STATE_PLACE_BAD i) then s.put (Reg.TT_STATE_PROOF i) 2
    else if v = 1 ∧ suspect.contains i then s.put (Reg.TT_STATE_PROOF i) 0
    else s.put (Reg.TT_STATE_PROOF i) v) s

/-! ### End-to-end comparison (R159–R162) -/

/-- Entry `e` on pipe `p` has failed its end-to-end comparison (R160): FAILED, its level, and with ACTION 1 the port sends SAFE. -/
def State.e2eFailed (s : State) (e p : Nat) (inj : Bool) : State :=
  let s := ((s.put (Reg.BE_E2E_FAILED e) 1).level (186 + e) true).fault .BEACON_E2E inj
  s.when (s.is Reg.BC_E2E_CFG_ACTION) fun s => s.portSafe p (2 ^ (1 + e))

/-- The outcome of a frame of entry `e` on pipe `p` (Table 06.4): 0 MATCH, 1 MISMATCH, 2 MISSING, 3 UNSUPPORTED. (DEDUCED, log 16.) -/
def State.e2eOutcome (s : State) (e p frame kind : Nat) (inj : Bool := false) : State :=
  let s := (s.put (Reg.BE_E2E_LAST e) kind).put (Reg.BE_E2E_FRAME e) (frame % 256)
  let x := s.entry e
  match kind with
  | 0 =>
    let s := s.count (Reg.BE_E2E_MATCH_RUN e) 1
    let suspect := ((x.kept.find? fun k => k.frame == frame % 256).map fun k => k.suspect).getD []
    let s := (s.setEntry e { x with noMatch := 0 }).setProofs e 1 suspect
    if x.noMatch = 1 then (s.put (Reg.BE_E2E_RETRY e) 1).fault .BEACON_E2E_RETRY inj else s
  | 3 => (s.put (Reg.BE_E2E_MATCH_RUN e) 0).setProofs e 0
  | _ =>
    let s := s.put (Reg.BE_E2E_MATCH_RUN e) 0
    let s := s.setEntry e { x with noMatch := x.noMatch + 1 }
    if x.noMatch = 0 then s.setProofs e 0
    else
      let s := s.setProofs e 2
      s.when (x.noMatch == 1) fun s => s.e2eFailed e p inj

/-- Marks the kept CRC of a frame of an entry as decided. -/
def State.decideFrame (s : State) (e frame : Nat) : State :=
  let x := s.entry e
  s.setEntry e { x with kept := x.kept.map fun k => if k.frame == frame then { k with decided := true } else k }

/-- Keeps the Beacon CRC of a frame (R159): the last 8 frames of the entry. -/
def State.keepCrc (s : State) (e frame crc : Nat) (suspect : List Nat) : State :=
  let x := s.entry e
  s.setEntry e { x with kept := (⟨frame % 256, crc, false, suspect⟩ :: x.kept).take 8 }

/-- The glyph of tell-tale `i` did not match its CRC in a frame of an entry (R158). -/
def State.suspectTt (s : State) (e frame i : Nat) : State :=
  let x := s.entry e
  s.setEntry e { x with kept := x.kept.map fun k => if k.frame == frame % 256 then { k with suspect := i :: k.suspect } else k }

/-- Whether the receiver of pipe `p` declared that it reports CRCs. -/
def State.rxReports (s : State) (p : Nat) : Bool := s.is (Reg.CG_CAPS_CRC p)

/-- At the end of the Beacon line of frame `m`, frames of the entry whose report deadline has passed get their outcome (R159). -/
def State.closeReports (s : State) (e p m : Nat) : State :=
  if (s.entry e).covered then s
  else
    let due := (s.entry e).kept.filter fun k => !k.decided && 1 + s.get Reg.BC_E2E_CFG_SLACK ≤ (m + 256 - k.frame) % 256
    due.reverse.foldl (fun s k => (s.decideFrame e k.frame).e2eOutcome e p k.frame (if s.rxReports p then 2 else 3)) s

/-! ### The master boundary (R15) -/

/-- The pipes that wait for the master frame of a stamp begin their start sequences (R185). -/
def State.startWaiting (s : State) : State :=
  forAll allPipes (fun p s =>
    match (s.pipe p).startAt with
    | some t => if s.mode p == .stopped && t ≤ s.orbit.stamp then s.beginStart p else s
    | none => s) s

/-- The credit of an open decoder session grows by r / f_master at a master orbit, up to 2 (R243); it is kept as a fraction.
(DESIGN CHOICE, log 903.) -/
def State.growCredit (s : State) (i : Nat) : State :=
  if s.get (Reg.DS_STATUS_STATE i) = 0 then s
  else
    let x := s.dses i
    let m := s.masterRate []
    let a := s.get (Reg.DS_RATE_MHZ i) * m.2
    let b := max 1 m.1
    let d := Nat.lcm x.creditD b
    let n := x.creditN * (d / x.creditD) + a * (d / b)
    s.setDses i (if 2 * d ≤ n then { x with creditN := 2, creditD := 1 } else { x with creditN := n, creditD := d })

/-- The orbit stamp increments at a master frame boundary (R15), with everything that counts orbits: the token grant (R405), hold
windows (R154), the orbits of regained capacity (R55), waiting starts (R185), decoder credit (R243), statistics and the cluster engine. -/
def State.masterFrame (s : State) : State :=
  let s := { s with orbit := { s.orbit with stamp := (s.orbit.stamp + 1) % stampMod, orbits := s.orbit.orbits + 1, masterAt := s.now,
                                            restored := false, stable := if s.regained then s.orbit.stable + 1 else 0 },
                    hm := { s.hm with winOrbits := s.hm.winOrbits + 1 },
                    bc := { s.bc with sinceRedraw := s.bc.sinceRedraw + 1, redrawOrbits := s.bc.redrawOrbits + 1 } }
  let s := forAll allEntries (fun e s => s.refreshHold e) s
  let s := forAll decSessions (fun i s => s.growCredit i) s
  (s.grant).startWaiting.handover

end Sys2Proof.Machine
end

