-- ==== Sys2Proof/Machine/Access.lean ====
section
/-! DEFINITION. A write to a register on its way to its effect: the address map (R471, R473), the safe state (R448), ownership and the writer
rules of each block (R11, R20, R62, R138, R196, R197, R303, R341, R365, R394, R416, R417, R455, R456, R470, R482), the class and the
lock of every field (R475–R478). -/
namespace Sys2Proof.Machine

/-! ### Who may write (R11, R456) -/

/-- Whether a requester is one of the management cores MC0–MC3, or DEBUG, which a rule that names them admits (R456). -/
def isCore (o : Origin) : Bool := o != .host

/-- Whether a requester writes for the owner of unit `u` (R11). -/
def State.ownsUnit (s : State) (o : Origin) (u : Nat) : Bool := s.owner u == originPath o

/-- The port of service channel `c` (R197): 0 none, 1 HOST, 2 VEHICLE, 3 FIRMWARE. -/
def State.svcPort (s : State) (c : Nat) : Nat := bits (s.reg Reg.a_DMA_SVC_PORT).toNat (2 * (c - 96) + 1) (2 * (c - 96))

/-- Whether a requester may write the registers of DMA channel `c` (R196, R197). -/
def State.writesChannel (s : State) (o : Origin) (c : Nat) : Bool :=
  if c < 96 then s.ownsUnit o (c / 8) else 1 ≤ s.svcPort c && portAdmits (s.svcPort c - 1) o

/-- Unit numbers of Table 01.4 (R384). -/
def unitDecoder : Nat := 14
def unitEncoder : Nat := 15
def unitPower : Nat := 16

/-- Whether a core is the one that target `t` belongs to: MC0 and MC1 are the safety pair. -/
def isOwnCore (o : Origin) (t : Nat) : Bool :=
  match t with
  | 0 | 1 => o == .sp
  | 2 => o == .mc2
  | 3 => o == .mc3
  | _ => false

/-- Writer rules of the INTC block (R354, R355, R358, R365); SRC_CFG, SRC_PEND, SRC_UNPEND and MBOX_RING are judged bit by bit by
their own rows (R346, R344). -/
def intcWriter (o : Origin) (r : RegName) (i : Nat) : Bool :=
  match r with
  | .MOD => o == .sp
  | .TGT_VBASE => isOwnCore o i
  | .TGT_EOI => if i < 4 then isOwnCore o i else isHostPath o || o == .sp
  | .HQ_CFG | .HQ_ACK => isHostPath o || o == .sp
  | _ => true

/-- Writer rules of the FAULT block (R455). -/
def faultWriter (o : Origin) (r : RegName) : Bool :=
  match r with
  | .FC_SCKICK => o == .mc2 || o == .mc3
  | .FC_STAT | .FC_FIRST | .FC_CLEAR => o == .sp || isHostPath o
  | .FC_STATUS | .FC_LOG_SEL => o == .sp || isHostPath o
  | _ => o == .sp

/-- Writer rules of the SECURITY block (R470). -/
def securityWriter (o : Origin) (r : RegName) : Bool :=
  match r with
  | .SEC_LC | .SEC_KEY_CMD | .SEC_KEY_DATA | .SEC_CPK_DATA => originPath o == 3
  | .SEC_DBG_CTRL | .SEC_DBG_RESP => o == .debug
  | .SEC_RECOVER | .SEC_RECOVER_LEN => isHostPath o
  | _ => true

/-- Whether a requester may write the register at address `a` of name `r` with indices `is` (R11, R456). -/
def State.writerOk (s : State) (o : Origin) (a : Nat) (r : RegName) (is : List Nat) : Bool :=
  let i := is.headD 0
  if r = .FW_VERSION then o == .sp
  else if r = .PIPE_ORBIT then s.ownsUnit o i
  else if 0x20010100 ≤ a ∧ a < 0x20010200 then portAdmits i o
  else if 0x20020200 ≤ a ∧ a < 0x20020300 then portAdmits i o
  else if 0x20100000 ≤ a ∧ a < 0x201C0000 then
    if r = .BL_PWM_MIN then o == .sp else s.ownsUnit o ((a - 0x20100000) / 0x10000)
  else if 0x20200000 ≤ a ∧ a < 0x20210000 then o == .sp
  else if 0x20310000 ≤ a ∧ a < 0x20317000 then s.writesChannel o i
  else if 0x20400000 ≤ a ∧ a < 0x20410000 then s.ownsUnit o unitDecoder
  else if 0x20410000 ≤ a ∧ a < 0x20420000 then s.ownsUnit o unitEncoder
  else if 0x20500000 ≤ a ∧ a < 0x20520000 then isCore o
  else if 0x20600000 ≤ a ∧ a < 0x2060C000 then s.ownsUnit o i
  else if 0x20700000 ≤ a ∧ a < 0x20710000 then isCore o
  else if 0x20800000 ≤ a ∧ a < 0x20810000 then intcWriter o r i
  else if 0x20900000 ≤ a ∧ a < 0x20910000 then faultWriter o r
  else if 0x20A00000 ≤ a ∧ a < 0x20A10000 then
    if r = .PWR_STATE ∨ r = .PWR_BUDGET ∨ r = .PWR_BE then o == .sp || s.ownsUnit o unitPower else o == .sp
  else if 0x20B00000 ≤ a ∧ a < 0x20B10000 then
    if r = .EMB_WAKE_MASK ∨ r = .EMB_TIMER_CMP then o == .sp || s.ownsUnit o unitPower else o == .sp
  else if 0x20C00000 ≤ a ∧ a < 0x20C10000 then if r = .OWN then o == .sp || isHostPath o else o == .sp
  else if 0x20D00000 ≤ a ∧ a < 0x20D10000 then securityWriter o r
  else true

/-- The registers that the HOST path still writes in the safe state (R448). (DEDUCED, log 1803.) -/
def safeWritable (r : RegName) (is : List Nat) : Bool :=
  match r with
  | .FC_CLEAR | .FC_STAT | .FC_FIRST | .HQ_ACK => true
  | .TGT_EOI => 4 ≤ is.headD 0
  | _ => false

/-! ### Classes and locks (R476–R478) -/

/-- Whether every pipe is STOPPED. -/
def State.allStopped (s : State) : Bool := allPipes.all fun p => s.mode p == .stopped

/-- Whether DMA channel `c` is IDLE. -/
def State.chIdle (s : State) (c : Nat) : Bool := s.get (Reg.CH_STATUS_STATE c) == 0

/-- Whether a class S field, at bits [hi:lo] of the register of name `r` and indices `is`, may be written now (Table 20.3). -/
def State.blockStopped (s : State) (r : RegName) (is : List Nat) (lo : Nat) : Bool :=
  let i := is.headD 0
  match r with
  | .ORB_CTRL | .FSYNC_PERIOD => s.allStopped
  | .HEARTH_RSV =>
    !(s.hm.handles.any fun e => e.2.alloc) && (rangeFrom 0 16).all (fun n => s.get (Reg.DS_STATUS_STATE n) == 0) &&
      (rangeFrom 0 12).all fun n => s.get (Reg.ES_STATUS_STATE n) == 0
  | .PNL_SEQ | .PNL_CFG | .BL_PWM_PERIOD | .PLL_SSC => s.mode i == .stopped
  | .DMA_CFG => (rangeFrom 0 112).all fun c => s.chIdle c
  | .DMA_SVC_PORT => s.chIdle (96 + lo / 2)
  | .CH_CFG => s.chIdle i
  | .OD_CTRL | .OD_ID | .OD_ID29 | .OD_AUTH_CFG => s.get Reg.OD_CTRL_EN == 0
  | .CAN_NBT | .CAN_DBT | .CAN_TDC => !bit (s.get Reg.OD_CTRL_BUS_EN) i
  | _ =>
    let a := match is with
      | n :: _ => n
      | [] => 0
    match r with
    | .DS_GEOM | .DS_PARAM | .DS_RATE | .DS_KBPS | .DS_CFG | .DS_OUT_HANDLE | .DS_OUT_STRIDE | .DS_LAYER | .DS_POLICY =>
      s.get (Reg.DS_STATUS_STATE a) == 0
    | .ES_GEOM | .ES_CFG | .ES_OUT | .ES_RATE | .ES_RC | .ES_ROI_EN => s.get (Reg.ES_STATUS_STATE a) == 0
    | _ => true

/-- Whether a write of field value `new` over `cur` is a change (R476). -/
def isChange (f : FieldRow) (cur new : Nat) : Bool :=
  match f.acc with
  | .ro => false
  | .rw | .rwl => cur != new
  | .wo | .w1c | .w1s => new != 0

/-- The fault that a write of a field raises, if it is refused (R476–R478). -/
def State.fieldRefusal (s : State) (r : RegName) (is : List Nat) (f : FieldRow) (cur new : Nat) : Option FaultId :=
  if !isChange f cur new then none
  else if f.acc == .rwl && s.is Reg.GLB_LOCK_CFG then some .ACC_REFUSED
  else if f.cls == .static && !s.blockStopped r is f.lo then some .CFG_VIOLATION
  else none

/-- The word that a write applies: accepted fields as written, refused RW fields at the value they hold, refused W1S, W1C and WO fields
as 0, RO fields as they stand, reserved bits 0 (R475, R476). -/
def State.acceptedWord (s : State) (row : RegRow) (is : List Nat) (cur v : Nat) : Nat :=
  row.fields.foldl (fun w f =>
    let c := bits cur f.hi f.lo
    let n := bits v f.hi f.lo
    let x := match f.acc with
      | .ro => c
      | .rw | .rwl => if (s.fieldRefusal row.name is f c n).isSome then c else n
      | _ => if (s.fieldRefusal row.name is f c n).isSome then 0 else n
    setBits w f.hi f.lo x) 0

/-- The faults of a write, each raised once (R476). -/
def State.writeFaults (s : State) (row : RegRow) (is : List Nat) (cur v : Nat) : State :=
  let fs := row.fields.filterMap fun f => s.fieldRefusal row.name is f (bits cur f.hi f.lo) (bits v f.hi f.lo)
  let s := s.when (fs.contains .ACC_REFUSED) fun s => s.fault .ACC_REFUSED
  s.when (fs.contains .CFG_VIOLATION) fun s => s.fault .CFG_VIOLATION

/-- The registers that DEBUG reaches while debug access is closed (R459): the debug authentication register. -/
def isDbgAuth (r : RegName) : Bool :=
  match r with
  | .SEC_DBG_CTRL | .SEC_DBG_CHAL | .SEC_DBG_RESP => true
  | _ => false

/-- Whether a requester reaches the registers at all: the main domain is out of reset (R397), and DEBUG only while debug access is
open, but for its authentication register (R459). (DEDUCED, log 11.) -/
def State.reaches (s : State) (o : Origin) (r : RegName) : Bool := s.emb.main && (o != .debug || s.debugOpen || isDbgAuth r)

/-- A write that reaches a class L field of a unit advances the unit's generation (R386). -/
def State.genWrite (s : State) (a : Nat) (row : RegRow) : State :=
  match unitOfAddr a with
  | some u => if row.fields.any fun f => f.cls == .live && f.acc != .ro then s.bumpGen u else s
  | none => s

/-- A write of `v` by requester `o` to the register at address `a` takes effect `f`, which receives the accepted word, once the write
passes the map, the safe state, the writer rules, and the class and lock of its fields. -/
def State.written (s : State) (o : Origin) (a : Nat) (v : Word) (f : RegRow → List Nat → Nat → State → State) : State :=
  match regAt a with
  | none => s
  | some (row, is) =>
    if !s.reaches o row.name then s
    else if s.is Reg.FC_STATUS_SAFE && isHostPath o && !safeWritable row.name is then s
    else if !s.writerOk o a row.name is then s.fault .ACC_REFUSED
    else
      let cur := (s.reg a).toNat
      f row is (s.acceptedWord row is cur v.toNat) ((s.writeFaults row is cur v.toNat).genWrite a row)

/-- Stores an accepted word: RW fields as given, W1C fields cleared where it holds 1; the other fields stay. -/
def State.storeRow (s : State) (a : Nat) (row : RegRow) (w : Nat) : State :=
  let cur := (s.reg a).toNat
  let new := row.fields.foldl (fun x f =>
    let c := bits cur f.hi f.lo
    let n := bits w f.hi f.lo
    match f.acc with
    | .rw | .rwl => setBits x f.hi f.lo n
    | .w1c => setBits x f.hi f.lo (c - (c &&& n))
    | _ => x) cur
  s.setReg a (BitVec.ofNat 32 new)

/-- A write of a register whose W1S bits arm something: the bits stay set until they are used. -/
def State.storeArm (s : State) (a : Nat) (row : RegRow) (w : Nat) : State :=
  let s := s.storeRow a row w
  let cur := (s.reg a).toNat
  let m := row.fields.foldl (fun x f => if f.acc == .w1s then setBits x f.hi f.lo (bits w f.hi f.lo) else x) 0
  s.setReg a (BitVec.ofNat 32 (cur ||| m))

/-! ### Shadows (R19, R111, R477) -/

/-- The pipe whose commits take the register at an address, if any. -/
def shadowPipe (a : Nat) : Option Nat := allPipes.find? fun p => commitAddr p a

/-- Whether a register is one of those whose write ends a matrix bypass (R126). -/
def isMatrix (r : RegName) : Bool :=
  match r with
  | .CL_MAT_0 | .CL_MAT_1 | .CL_MAT_2 | .CL_MAT_3 | .CL_MAT_4 | .CL_OFF_RG | .CL_OFF_B => true
  | _ => false

/-- Stores an accepted word in a register that only holds it; the writes of matrix registers are counted for R126. -/
def State.storeShadow (s : State) (a : Nat) (row : RegRow) (w : Nat) : State :=
  let s := s.storeRow a row w
  match shadowPipe a with
  | some p => if isMatrix row.name then s.modPipe p fun x => { x with matWrites := x.matWrites + 1 } else s
  | none => s

/-- Whether a write is held at the register interface (R111): a commit port whose CP_PIPES names the pipe is BUSY. (DEDUCED, log 214.) -/
def State.shadowHeld (s : State) (a : Nat) : Bool :=
  match shadowPipe a with
  | some p => s.orbit.go.any fun e => bit e.2.pipes p
  | none => false

/-- Holds a write: of a requester, or of the object-dictionary engine (none). -/
def State.holdWrite (s : State) (o : Option Origin) (a : Nat) (v : Word) : State :=
  { s with orbit := { s.orbit with heldWrites := s.orbit.heldWrites ++ [(o, a, v)] } }

/-- Writes held because a port was BUSY complete, in order, once none is for their pipe (R111). (DEDUCED, log 214.) -/
def State.releaseHeld (s : State) : State :=
  let free := s.orbit.heldWrites.filter fun e => !s.shadowHeld e.2.1
  let s := { s with orbit := { s.orbit with heldWrites := s.orbit.heldWrites.filter fun e => s.shadowHeld e.2.1 } }
  free.foldl (fun s e =>
    match e.1 with
    | some o => s.written o e.2.1 e.2.2 fun row _ w s => s.storeShadow e.2.1 row w
    | none => match regAt e.2.1 with
      | some (row, _) => (s.genWrite e.2.1 row).storeShadow e.2.1 row e.2.2.toNat
      | none => s) s

end Sys2Proof.Machine
end

