-- ==== Sys2Proof/Machine/DmaOps.lean ====
section
/-! DEFINITION. The DMA as the rest of the device sees it: the fields of a descriptor (R198), the deadlines of R209, a buffer that leaves the
states a TO_HOST transfer reads (R222), and the state of the link that carries its requests (R216). -/
namespace Sys2Proof.Machine

/-! ### Descriptors (R198) -/

/-- DIR: TO_HOST. -/
def Desc.toHost (d : Desc) : Bool := bit d.ctrl 0
/-- FIRST. -/
def Desc.first (d : Desc) : Bool := bit d.ctrl 1
/-- LAST. -/
def Desc.last (d : Desc) : Bool := bit d.ctrl 2
/-- SEAL_EN. -/
def Desc.sealEn (d : Desc) : Bool := bit d.ctrl 3
/-- IRQ. -/
def Desc.irq (d : Desc) : Bool := bit d.ctrl 4
/-- WB. -/
def Desc.wb (d : Desc) : Bool := bit d.ctrl 5
/-- ENDPOINT: 0 HANDLE, 1 CODEC. -/
def Desc.ep (d : Desc) : Nat := bits d.target 31 30
/-- Whether the endpoint is a codec port. -/
def Desc.codec (d : Desc) : Bool := d.ep == 1
/-- PLANE. -/
def Desc.plane (d : Desc) : Nat := bits d.target 25 24
/-- PORT. -/
def Desc.port (d : Desc) : Nat := bits d.target 19 16
/-- HANDLE. -/
def Desc.handle (d : Desc) : Nat := bits d.target 9 0
/-- Whether the descriptor can belong to a fill (R204): TO_DEVICE into a handle. -/
def Desc.fills (d : Desc) : Bool := !d.toHost && d.ep == 0

/-- The field of `n` bytes at byte `i`. -/
def descField (bs : List Byte) (i n : Nat) : Nat := leNat ((bs.drop i).take n)

/-- A descriptor from its 64 bytes. -/
def parseDesc (addr : Nat) (list : Option Nat) (bs : List Byte) : Desc :=
  { addr, next := descField bs 0 8, host := descField bs 8 8, ctrl := descField bs 16 4, target := descField bs 20 4,
    off := descField bs 24 4, rowBytes := descField bs 28 4, rows := descField bs 32 4, hostStride := descField bs 36 4,
    hearthStride := descField bs 40 4, sealWord := descField bs 44 4, tag := descField bs 48 4, rsv := descField bs 52 4, list }

/-- The end of byte `n` of the transfer of a descriptor in its rows: (row, byte of the row). -/
def Desc.pos (d : Desc) (n : Nat) : Nat × Nat := (n / max 1 d.rowBytes, n % max 1 d.rowBytes)

/-- The host address of byte `n` of the transfer (R212). -/
def Desc.hostAt (d : Desc) (n : Nat) : Nat := (d.host + (d.pos n).1 * d.hostStride + (d.pos n).2) % 2 ^ 64

/-- The plane offset of byte `n` of the transfer (R212). -/
def Desc.planeAt (d : Desc) (n : Nat) : Nat := d.off + (d.pos n).1 * d.hearthStride + (d.pos n).2

/-! ### The link (R216) -/

/-- Whether the Aknum link carries packets: ACTIVE, or in electrical idle, which a packet ends (R297). -/
def State.akUp (s : State) : Bool := s.get Reg.AK_STATUS_STATE == 6 || s.get Reg.AK_STATUS_STATE == 7

/-! ### Deadlines (R51, R209) -/

/-- `n` lines of pipe `p` in FABRIC_CLK periods, rounded down. -/
def State.lineTime (s : State) (p n : Nat) : Nat :=
  let x := s.pipe p
  let (a, b) := periodOf x.fNum x.fDen
  n * a / (b * max 1 (s.shownGet p (Reg.TG_VACT_V_TOTAL p)))

/-- The lines still to run on pipe `p` to the end of the commit line of the frame `j` frames ahead, 0 for the frame under way. -/
def State.linesToCommit (s : State) (p j : Nat) : Nat :=
  let m := (s.pipe p).shown
  let vt := imgGet m (Reg.TG_VACT_V_TOTAL p)
  let now := (s.pipe p).nextLine
  if j = 0 then commitLineOf m p (s.frameLines p) + 1 - now
  else s.frameLines p - now + (j - 1) * vt + commitLineOf m p vt + 1

/-- The fill deadline that the pending commits of pipe `p` give buffer `h` (Table 02.1): the end of the commit line of the frame before
the target frame. (DEDUCED, log 813.) -/
def State.fillDeadlineOn (s : State) (p h : Nat) : Option Nat :=
  if !s.counting p then none
  else
    ((s.pipe p).pend.filterMap fun c =>
      if imgNamesAny c.img p h then
        some (s.now + s.lineTime p (s.linesToCommit p (s.firstIndex p (if (s.pipe p).commitDone then 2 else 1) c.eff - 1)))
      else none).min?

/-- The earliest fill deadline of buffer `h`, with its pipe. -/
def State.fillDeadline (s : State) (h : Nat) : Option (Nat × Nat) :=
  allPipes.foldl (fun (b : Option (Nat × Nat)) p =>
    match s.fillDeadlineOn p h, b with
    | some t, some (q, u) => if t < u then some (p, t) else some (q, u)
    | some t, none => some (p, t)
    | none, b => b) none

/-- The layer of the slot that channel `c` serves: that of its shown state, or of its newest state while it shows nothing. -/
def State.chanLayer (s : State) (c : Nat) : Nat :=
  let d := declOf (s.pipe (c / 8)).shown (c / 8) (c % 8)
  if d.enable then d.layer else (declOf (s.newestImg (c / 8)) (c / 8) (c % 8)).layer

/-- The fastest pipe that shows a layer, the lowest-numbered of equal ones. (DEDUCED, log 813.) -/
def State.fastestShowing (s : State) (l : Nat) : Option Nat :=
  allPipes.foldl (fun (b : Option Nat) p =>
    let x := s.pipe p
    if s.counting p && allSlots.any (fun k => (declOf x.shown p k).enable && (declOf x.shown p k).layer == l) then
      match b with
      | some q => if (s.pipe q).fNum * x.fDen < x.fNum * (s.pipe q).fDen then some p else some q
      | none => some p
    else b) none

/-- The deadline of a descriptor of layer channel `c` with the pipe that gives it (R209). -/
def State.layerDeadline (s : State) (c : Nat) (d : Desc) : Option (Nat × Nat) :=
  match s.fillDeadline d.handle with
  | some r => some r
  | none => (s.fastestShowing (s.chanLayer c)).map fun q =>
      (q, s.now + s.lineTime q (s.linesToCommit q (if (s.pipe q).commitDone then 1 else 0)))

/-- Brings the deadline of channel `c` up to date where `sel` selects its pipe and target; one that has passed keeps its value. -/
def State.refreshDeadline (s : State) (c : Nat) (sel : Nat → Nat → Bool) : State :=
  let x := s.chan c
  match x.cur with
  | none => s
  | some u =>
    let passed : Bool := match x.deadline with
      | some t => t ≤ s.now
      | none => false
    if passed then s
    else match s.layerDeadline c u.d with
      | none => s
      | some (q, t) => if sel q u.d.handle then (s.setChan c { x with deadline := some t }).refreshChan c else s

/-- The deadlines are taken again at a commit line of pipe `p`. -/
def State.deadlinesAt (s : State) (p : Nat) : State := forAll (rangeFrom 0 96) (fun c s => s.refreshDeadline c fun q _ => q == p) s

/-- The deadlines are taken again at the acceptance of a commit with the given states. -/
def State.deadlinesFor (s : State) (new : List (Nat × List (Nat × Word))) : State :=
  forAll (rangeFrom 0 96) (fun c s => s.refreshDeadline c fun _ h => new.any fun e => imgNamesAny e.2 e.1 h) s

end Sys2Proof.Machine
end

