-- ==== Sys2Proof/Machine/Layers.lean ====
section
/-! DEFINITION. The commands of the layer slots, the scalers, the colour tables and the writeback tap (chapters 04 and 05). -/
namespace Sys2Proof.Machine

/-! ### What a destination pixel depends on (R94, R98) -/

/-- The bytes of a source sample as (plane, offset, length); luma for the YCbCr formats. -/
def sampleBytes (d : SlotDecl) (x y : Nat) : List (Nat × Nat × Nat) :=
  let row := y * d.stride0
  match d.format with
  | 0x05 => [(0, row + 2 * x, 2)]
  | 0x10 => [(0, row + x, 1)]
  | 0x11 => [(0, row + 2 * x, 2)]
  | 0x12 => [(0, row + 2 * x, 1)]
  | 0x30 | 0x31 => [(0, row + x, 1)]
  | _ => [(0, row + 4 * x, 4)]

/-- The bytes of the chroma samples at chroma column `j` and row `y`. -/
def chromaBytes (d : SlotDecl) (j y : Nat) : List (Nat × Nat × Nat) :=
  match d.format with
  | 0x10 => [(1, y * d.stride1 + 2 * j, 2)]
  | 0x11 => [(1, y * d.stride1 + 4 * j, 4)]
  | _ => [(0, y * d.stride0 + 4 * j + 1, 1), (0, y * d.stride0 + 4 * j + 3, 1)]

/-- The columns (n = 8) or rows (n = 6) that the taps of a position reach, clamped to `len` (R106). (DEDUCED, log 401.) -/
def tapsOf (pos : Int) (n len : Nat) : List Nat :=
  ((rangeFrom 0 n).map fun k : Nat => clampIx (posInt pos + ((k : Nat) : Int) - (if n = 8 then 3 else 2)) len).eraseDups

/-- The source pixels (luma pixels) that destination pixel (x, y) of a slot depends on. -/
def sourcePixels (d : SlotDecl) (x y : Nat) : List (Nat × Nat) :=
  if d.scalerNeed = 0 then [(d.cx + x, d.cy + y)]
  else
    let cols := tapsOf (position x d.cw d.dw (sext d.phaseH 18)) 8 d.cw
    let rows := tapsOf (position y d.ch d.dh (sext d.phaseV 18)) 6 d.ch
    rows.flatMap fun j => cols.map fun i => (d.cx + i, d.cy + j)

/-- The chroma samples that destination pixel (x, y) of a YCbCr slot depends on. -/
def sourceChroma (d : SlotDecl) (x y : Nat) : List (Nat × Nat) :=
  let vert := d.format != 0x12
  let cols := tapsOf (position x d.ccw d.dw (sext d.phaseH 18 + 16384)) 8 d.ccw
  let rows := tapsOf (position y d.cch d.dh (sext d.phaseV 18 + (if vert && d.site == 1 then 16384 else 0))) 6 d.cch
  let row := if vert then d.cy / 2 else d.cy
  rows.flatMap fun j => cols.map fun i => (d.cx / 2 + i, row + j)

/-- The bytes that destination pixel (x, y) of a slot that is not GBC depends on. -/
def depBytes (d : SlotDecl) (x y : Nat) : List (Nat × Nat × Nat) :=
  (sourcePixels d x y).flatMap (fun q => sampleBytes d q.1 q.2) ++
    (if fmtYcc d.format then (sourceChroma d x y).flatMap fun q => chromaBytes d q.1 q.2 else [])

/-- The words of a plane range as physical word addresses. -/
def State.wordsAt (s : State) (h pl off n : Nat) : List Nat :=
  ((wordsOf off n).filterMap fun o => (s.handle h).addr pl o).map fun a => a / 32 * 32

/-- The words that destination pixel (x, y) of a slot depends on. (DEDUCED, log 401.) -/
def State.depWords (s : State) (d : SlotDecl) (x y : Nat) : List Nat :=
  (depBytes d x y).flatMap fun b => s.wordsAt d.handle b.1 b.2.1 b.2.2

/-- The blocks of a GBC slot that destination pixel (x, y) depends on. -/
def depBlocks (d : SlotDecl) (x y : Nat) : List (Nat × Nat) := ((sourcePixels d x y).map fun q => (q.1 / 8, q.2 / 8)).eraseDups

/-! ### Eclipse culling (R96–R100) -/

/-- Whether a slot of full layer alpha above adds pixel (x, y) to the covered set by a SOLID block of alpha 0xFF (R99). -/
def State.solidAt (s : State) (d : SlotDecl) (x y : Nat) : Bool :=
  if d.format = 0x20 ∧ d.scalerNeed = 0 ∧ d.la = 4095 ∧ d.dst.has x y = true then
    let h := s.gbcHeader d ((d.cx + (x - d.dx)) / 8) ((d.cy + (y - d.dy)) / 8)
    bits h 39 38 == 1 && !gbcMalformed h (s.plane1 d) && bits h 31 24 == 255
  else false

/-- The Beacon region that the frame of a fetch has. -/
def State.fetchRegion (s : State) (p : Nat) (ahead : Bool) (m : List (Nat × Word)) : List Rect :=
  let x := s.pipe p
  let b := if ahead then x.bcnNext.getD x.bcn else x.bcn
  match b with
  | some b => regionOf b.img b.entry (imgGet m (Reg.TG_HACT_H_ACTIVE p)) (imgGet m (Reg.TG_VACT_V_ACTIVE p))
  | none => []

/-- Whether the layer of a slot is hidden by shed step 3 in the frame being emitted, or in the coming one (R52, R53). -/
def State.hiddenIn (s : State) (p : Nat) (ahead : Bool) (d : SlotDecl) : Bool :=
  if ahead then hiddenBy s.orbit.sheds d else s.shedHidden p d

/-- The frame that a fetch serves: its image, its Beacon region, and the slots whose STALE_ACTION is in force in it. -/
structure FrameView where
  ahead : Bool
  img : List (Nat × Word)
  region : List Rect
  off : List Nat
  deriving DecidableEq, Repr

/-- The frame of pipe `p` that a fetch serves. -/
def State.viewOf (s : State) (p : Nat) (ahead : Bool) : FrameView :=
  let m := s.frameImg p ahead
  ⟨ahead, m, s.fetchRegion p ahead m, allSlots.filter fun k => s.slotOff p k ahead⟩

/-- Whether active pixel (x, y) lies in the covered set of slot `k` (R96). -/
def State.coveredAt (s : State) (p k : Nat) (v : FrameView) (x y : Nat) : Bool :=
  rectsHave v.region x y ||
    allSlots.any fun j =>
      let d := declOf v.img p j
      k < j && d.enable && !s.hiddenIn p v.ahead d && (d.opaqueArea.has x y || (!v.off.contains j && s.solidAt d x y))

/-- The columns of the destination of a slot on row `y` of it that lie outside its covered set. -/
def State.visibleCols (s : State) (p k : Nat) (v : FrameView) (d : SlotDecl) (y : Nat) : List Nat :=
  (rangeFrom 0 d.dw).filter fun x => !s.coveredAt p k v (d.dx + x) (d.dy + y)

/-- What a fetch of destination row `y` moves: the words fetched, the words skipped, and the GBC blocks whose headers are read. -/
structure Fetch where
  words : List Nat
  skipped : List Nat
  blocks : List (Nat × Nat)
  deriving DecidableEq, Repr

/-- Each word is fetched for the first destination row that needs it, and skipped when no row of the frame needs it (R74, R94, R98). -/
def State.fetchWords (s : State) (p k : Nat) (v : FrameView) (d : SlotDecl) (y : Nat) : Fetch :=
  let all := fun r => ((rangeFrom 0 d.dw).flatMap fun x => s.depWords d x r).eraseDups
  let vis := fun r => ((s.visibleCols p k v d r).flatMap fun x => s.depWords d x r).eraseDups
  let before := (rangeFrom 0 y).flatMap vis
  let beforeAll := (rangeFrom 0 y).flatMap all
  let ever := (rangeFrom 0 d.dh).flatMap vis
  { words := (vis y).filter fun w => !before.contains w,
    skipped := (all y).filter fun w => !beforeAll.contains w && !ever.contains w, blocks := [] }

/-- The blocks of block row `j` that meet the crop, from left to right (R95). -/
def cropBlocks (d : SlotDecl) (j : Nat) : List (Nat × Nat) :=
  (rangeFrom (d.cx / 8) ((d.cx + d.cw - 1) / 8 - d.cx / 8 + 1)).map fun i => (i, j)

/-- The block rows that are fetched for destination row `y` (R95): those that no row above reaches and that this row reaches, and with the
last row those that no row reaches. (DEDUCED, log 413.) -/
def newBlockRows (d : SlotDecl) (y : Nat) : List Nat :=
  let reach := fun r => maxNat ((sourcePixels d 0 r).map fun q => q.2 / 8 + 1)
  let from_ := maxNat (d.cy / 8 :: (rangeFrom 0 y).map reach)
  let upto := if y + 1 = d.dh then (d.cy + d.ch - 1) / 8 + 1 else reach y
  rangeFrom from_ (upto - from_)

/-- The fetch of a GBC slot (R95): the headers of every block of the block rows first met on this row, and the payloads of those that are
not skipped. -/
def State.fetchBlocks (s : State) (p k : Nat) (v : FrameView) (d : SlotDecl) (y : Nat) : Fetch :=
  let new := (newBlockRows d y).flatMap fun j => cropBlocks d j
  let seen := (rangeFrom 0 d.dh).flatMap fun r => (s.visibleCols p k v d r).flatMap fun x => depBlocks d x r
  let hdr := new.flatMap fun b => s.wordsAt d.handle 0 (8 * (b.2 * cdiv d.srcW 8 + b.1)) 8
  let body := fun (b : Nat × Nat) =>
    let h := s.gbcHeader d b.1 b.2
    if gbcMalformed h (s.plane1 d) then [] else s.wordsAt d.handle 1 (32 * bits h 63 40) (32 * bits h 35 32)
  { words := (hdr ++ (new.filter fun b => seen.contains b).flatMap body).eraseDups,
    skipped := ((new.filter fun b => !seen.contains b).flatMap body).eraseDups, blocks := new }

/-- The words of slot `k` for row `y` of its destination. -/
def State.fetchOf (s : State) (p k : Nat) (ahead : Bool) (d : SlotDecl) (y : Nat) : Fetch :=
  let v := s.viewOf p ahead
  if d.format = 0x20 then s.fetchBlocks p k v d y else s.fetchWords p k v d y

/-! ### Failures of a fetch (R70, R74) -/

/-- Marks a part of line `y` of slot `k` as failed, and the slot for its STALE_ACTION from the boundary that follows. (DEDUCED, log 402.) -/
def State.failSpan (s : State) (p k y : Nat) (ahead : Bool) (x0 x1 : Nat) : State :=
  s.modPipe p fun t =>
    let t := { t with spans := t.spans ++ [⟨ahead, k, y, x0, x1⟩] }
    if ahead then t else t.setSlot k { t.slot k with failNext := true }

/-- The columns of destination row `y` that satisfy a test, as the interval that spans them. -/
def spanOf (d : SlotDecl) (f : Nat → Bool) : Nat × Nat :=
  match (rangeFrom 0 d.dw).filter f with
  | [] => (d.dx, d.dx)
  | x :: xs => (d.dx + x, d.dx + (x :: xs).getLastD x + 1)

/-- A word of a fetch failed (R74): the pixels of row `y` that depend on it. (DEDUCED, log 402.) -/
def State.failWord (s : State) (p k : Nat) (ahead : Bool) (d : SlotDecl) (y a : Nat) : State :=
  let dep := fun x =>
    if d.format = 0x20 then
      (depBlocks d x y).any fun b =>
        let h := s.gbcHeader d b.1 b.2
        (s.wordsAt d.handle 0 (8 * (b.2 * cdiv d.srcW 8 + b.1)) 8 ++
          s.wordsAt d.handle 1 (32 * bits h 63 40) (32 * bits h 35 32)).contains a
    else (s.depWords d x y).contains a
  let r := spanOf d dep
  s.failSpan p k (d.dy + y) ahead r.1 r.2

/-- A malformed header is read (R70, R74): every row from `y` on that depends on the block draws it in the fill colour.
(DEDUCED, log 402.) -/
def State.failBlock (s : State) (p k : Nat) (ahead : Bool) (d : SlotDecl) (y : Nat) (b : Nat × Nat) (inj : Bool) : State :=
  let s := match (s.handle d.handle).addr 0 (8 * (b.2 * cdiv d.srcW 8 + b.1)) with
    | some a => s.faultBuffer a
    | none => s
  let s := s.fault .GBC_MALFORMED inj
  let rows := (rangeFrom y (d.dh - y)).filter fun r => (rangeFrom 0 d.dw).any fun x => (depBlocks d x r).contains b
  let s := rows.foldl (fun s r =>
    let sp := spanOf d fun x => (depBlocks d x r).contains b
    s.failSpan p k (d.dy + r) ahead sp.1 sp.2) s
  if rows.isEmpty then s.failSpan p k (d.dy + y) ahead d.dx d.dx else s

/-- The headers of a fetch are judged (R70, R95); FC_INJ.GBC makes the first one that its pipe reads malformed. -/
def State.judgeHeaders (s : State) (p k : Nat) (ahead : Bool) (d : SlotDecl) (y : Nat) (blocks : List (Nat × Nat)) : State :=
  blocks.foldl (fun s b =>
    let inj := s.is Reg.FC_INJ_GBC && s.get Reg.FC_INJ_PIPE == p
    let s := s.when inj fun s => s.put Reg.FC_INJ_GBC 0
    if inj || gbcMalformed (s.gbcHeader d b.1 b.2) (s.plane1 d) then s.failBlock p k ahead d y b inj else s) s

/-- Whether pipe `p` may fetch line `y` now (R47, R183, R189): a line of the frame under way that is not emitted yet, or one of the coming
frame from the prefetch start on, at most 16 lines ahead of the emit point; a Banked pipe fetches only for the frame with which it
resumes. (DEDUCED, log 403.) -/
def State.mayFetch (s : State) (p y : Nat) (ahead : Bool) : Bool :=
  let x := s.pipe p
  if ahead then
    if x.seqStep == 3 then y ≤ 16
    else
      let go := match s.mode p with
        | .banked => false
        | .bankExit => x.wakeNext
        | .bankEntry => !x.holdAck
        | _ => true
      s.counting p && x.prefetched && go && y + s.frameLines p ≤ x.nextLine + 16
  else
    let go := match s.mode p with
      | .banked | .bankExit => false
      | _ => true
    s.counting p && go && x.nextLine ≤ y && y ≤ x.nextLine + 16

/-- Whether slot `k` draws line `y` of a frame from its buffer. -/
def State.drawsLine (s : State) (p k y : Nat) (ahead : Bool) : Bool :=
  let d := declOf (s.frameImg p ahead) p k
  d.enable && !s.slotOff p k ahead && !s.hiddenIn p ahead d && d.dy ≤ y && y < d.dy + d.dh

/-- Whether line `y` of a frame is among the run-ahead lines of slot `k`. -/
def State.hasRun (s : State) (p k y : Nat) (ahead : Bool) : Bool :=
  ((s.pipe p).slot k).run.any fun l => l.ahead == ahead && l.line == y

/-- Slot `k` fetches the words that line `y` of a frame needs, once unless its run-ahead was discarded (R49), and after the slots above it
(R94). (DEDUCED, log 403.) -/
def State.slotFetch (s : State) (p k y : Nat) (ahead : Bool) (e : ReadEvent) : State :=
  let above := allSlots.all fun j => j ≤ k || !s.drawsLine p j y ahead || s.hasRun p j y ahead
  if 12 ≤ p || 8 ≤ k || !s.mayFetch p y ahead || !s.drawsLine p k y ahead || !s.hmReady || s.hasRun p k y ahead || !above then s
  else
    let d := declOf (s.frameImg p ahead) p k
    let r := y - d.dy
    let f := s.fetchOf p k ahead d r
    let s := s.modPipe p fun t =>
      let o := t.slot k
      t.setSlot k { o with fetch := satAdd o.fetch f.words.length 0xFFFFFFFF, cull := satAdd o.cull f.skipped.length 0xFFFFFFFF,
                           culling := o.culling || !f.skipped.isEmpty, run := o.run ++ [⟨ahead, y, f.words⟩] }
    let (s, bad) := s.readWords .functional f.words e
    let s := bad.foldl (fun s a => s.failWord p k ahead d r a) s
    s.judgeHeaders p k ahead d r f.blocks

/-- SLOT_FETCH (R94). -/
def execSlotFetch (p k y : Nat) (ahead : Bool) (e : ReadEvent) (s : State) : Host.Outcome State Fault Refusal :=
  done (s.fresh.when ((p < 12) && (k < 8)) fun s => s.slotFetch p k y ahead e)

/-! ### Banks in use (R110, R125) -/

/-- The images of pipe `p` that select banks: shown, taken, waited for, pending, and in admission. -/
def State.imgsInUse (s : State) (p : Nat) : List (List (Nat × Word)) :=
  let x := s.pipe p
  let adm := if s.orbit.go.any fun g => bit g.2.pipes p then [shadowImg s.regs p] else []
  let next := match x.next with
    | some n => [n.img]
    | none => []
  [x.shown, s.heldImg p] ++ next ++ (x.pend.map fun c => c.img) ++ adm

/-- The filter banks in use on pipe `p`, as a mask (R110). -/
def State.banksInUse (s : State) (p : Nat) : Nat :=
  (s.imgsInUse p).foldl (fun u m => allSlots.foldl (fun u k => (declOf m p k).banks.foldl (fun u b => u ||| 2 ^ b) u) u) 0

/-- The LUT banks in use on pipe `p`, as a mask (R125). -/
def State.lutsInUse (s : State) (p : Nat) : Nat :=
  (s.imgsInUse p).foldl (fun u m =>
    if imgGet m (Reg.TG_CTRL_RUN p) == 1 && (imgGet m (Reg.CL_CTRL_PRE_EN p) == 1 || imgGet m (Reg.CL_CTRL_POST_EN p) == 1) then
      u ||| 2 ^ imgGet m (Reg.CL_CTRL_LUT_BANK p) else u) 0

/-! ### Coefficients (R107, R108, R110) -/

/-- The address after a coefficient write. -/
def State.coefAdvance (s : State) (p : Nat) : State :=
  let tap := s.get (Reg.SC_COEF_ADDR_TAP p)
  let last := if s.is (Reg.SC_COEF_ADDR_DIR p) then 5 else 7
  if tap < last then s.put (Reg.SC_COEF_ADDR_TAP p) (tap + 1) else (s.put (Reg.SC_COEF_ADDR_TAP p) 0).incr (Reg.SC_COEF_ADDR_PHASE p)

/-- A write of SC_COEF_DATA (R107, R110). A write of the value that the entry holds is no change (R476). (DEDUCED, log 404.) -/
def State.coefWrite (s : State) (p v : Nat) : State :=
  let bank := s.get (Reg.SC_COEF_ADDR_BANK p)
  let set := s.get (Reg.SC_COEF_ADDR_DIR p)
  let phase := s.get (Reg.SC_COEF_ADDR_PHASE p)
  let tap := s.get (Reg.SC_COEF_ADDR_TAP p)
  if set = 1 ∧ 6 ≤ tap then s.coefAdvance p
  else
    let c := sext v 10
    if bit (s.banksInUse p) bank && (s.pipe p).coefAt bank set phase tap != c then s.fault .CFG_VIOLATION
    else
      (s.modPipe p fun x =>
        { x with coef := SMap.set (coefDefault bank set phase tap) x.coef (coefKey bank set phase tap) c }).coefAdvance p

/-- SC_COEF_DATA_WRITE (R110). -/
def execScCoefDataWrite (o : Origin) (p : Nat) (v : Word) (s : State) : Host.Outcome State Fault Refusal :=
  done (s.fresh.when (p < 12) fun s => s.written o (Reg.a_SC_COEF_DATA p) v fun _ is w s => s.coefWrite (is.headD 0) (bits w 9 0))

/-- Restores the banks of a mask that are not in use; raises CFG_VIOLATION once for those that are. -/
def State.coefReset (s : State) (p m : Nat) : State :=
  let use := s.banksInUse p
  let s := s.modPipe p fun x =>
    { x with coef := x.coef.filter fun e => !(bit m (e.1 / 1024) && !bit use (e.1 / 1024)) }
  s.when (m &&& use != 0) fun s => s.fault .CFG_VIOLATION

/-- SC_COEF_RESET (R108, R110). -/
def execScCoefReset (o : Origin) (p : Nat) (v : Word) (s : State) : Host.Outcome State Fault Refusal :=
  done (s.fresh.when (p < 12) fun s => s.written o (Reg.a_SC_COEF_RESET p) v fun _ is w s => s.coefReset (is.headD 0) (bits w 3 0))

/-! ### LUT banks (R123, R125) -/

/-- INDEX of CL_LUT_ADDR as it is taken: at most 1,024. -/
def State.lutIndex (s : State) (p : Nat) : Nat := min 1024 (s.get (Reg.CL_LUT_ADDR_INDEX p))

/-- INDEX advances, wrapping from 1,024 to 0. -/
def State.lutAdvance (s : State) (p : Nat) : State :=
  s.put (Reg.CL_LUT_ADDR_INDEX p) (if s.lutIndex p = 1024 then 0 else s.lutIndex p + 1)

/-- The components that CL_LUT_ADDR.COMP addresses on a write. -/
def lutComps (c : Nat) : List Nat := if c = 3 then [0, 1, 2] else [c]

/-- A write of CL_LUT_DATA (R125). (DEDUCED, log 404.) -/
def State.lutWrite (s : State) (p v : Nat) : State :=
  let bank := s.get (Reg.CL_LUT_ADDR_BANK p)
  let table := s.get (Reg.CL_LUT_ADDR_TABLE p)
  let cs := lutComps (s.get (Reg.CL_LUT_ADDR_COMP p))
  let ix := s.lutIndex p
  let v := min v (if ix = 1024 then 4096 else 4095)
  if bit (s.lutsInUse p) bank && cs.any (fun c => (s.pipe p).lutAt bank table c ix != v) then s.fault .CFG_VIOLATION
  else
    (s.modPipe p fun x => { x with lut := cs.foldl (fun m c => SMap.set (4 * ix) m (lutKey bank table c ix) v) x.lut }).lutAdvance p

/-- CL_LUT_DATA_WRITE (R125). -/
def execClLutDataWrite (o : Origin) (p : Nat) (v : Word) (s : State) : Host.Outcome State Fault Refusal :=
  done (s.fresh.when (p < 12) fun s => s.written o (Reg.a_CL_LUT_DATA p) v fun _ is w s => s.lutWrite (is.headD 0) (bits w 12 0))

/-- Restores LUT banks to identity, those in use excepted (R125). -/
def State.lutReset (s : State) (p m : Nat) : State :=
  let use := s.lutsInUse p
  let bankOf := fun key => key / (2 * 3 * 1025)
  let s := s.modPipe p fun x => { x with lut := x.lut.filter fun e => !(bit m (bankOf e.1) && !bit use (bankOf e.1)) }
  s.when (m &&& use != 0) fun s => s.fault .CFG_VIOLATION

/-- CL_LUT_RESET (R125). -/
def execClLutReset (o : Origin) (p : Nat) (v : Word) (s : State) : Host.Outcome State Fault Refusal :=
  done (s.fresh.when (p < 12) fun s => s.written o (Reg.a_CL_LUT_RESET p) v fun _ is w s => s.lutReset (is.headD 0) (bits w 1 0))

/-! ### Writeback (R130–R135) -/

/-- MODE as it is taken: 3 is OFF. -/
def State.wbMode (s : State) (p : Nat) : Nat := if s.get (Reg.WB_CTRL_MODE p) = 3 then 0 else s.get (Reg.WB_CTRL_MODE p)

/-- Stores a WB_CTRL value and arms the writer: the ring starts with handle 0 (R132). -/
def State.wbStore (s : State) (p w : Nat) : State :=
  let s := s.setReg (Reg.a_WB_CTRL p) (BitVec.ofNat 32 w)
  if s.wbMode p = 0 then s.modPipe p fun x => { x with wb := { x.wb with shots := 0 } }
  else (s.put (Reg.WB_STATUS_NEXT p) 0).modPipe p fun x => { x with wb := { x.wb with divCount := 0, shots := 1 } }

/-- A write of WB_CTRL: while BUSY it waits for the next frame boundary (R132). (DEDUCED, log 501.) -/
def State.wbArm (s : State) (p w : Nat) : State :=
  if s.is (Reg.WB_STATUS_BUSY p) then s.modPipe p fun x => { x with wb := { x.wb with deferred := some w } } else s.wbStore p w

/-- WB_ARM (R132). -/
def execWbArm (o : Origin) (p : Nat) (v : Word) (s : State) : Host.Outcome State Fault Refusal :=
  done (s.fresh.when (p < 12) fun s => s.written o (Reg.a_WB_CTRL p) v fun _ is w s => s.wbArm (is.headD 0) w)

/-- The handle of ring entry `j`. -/
def State.wbHandle (s : State) (p j : Nat) : Nat :=
  match j with
  | 0 => s.get (Reg.WB_HANDLE_0_HANDLE p)
  | 1 => s.get (Reg.WB_HANDLE_1_HANDLE p)
  | _ => s.get (Reg.WB_HANDLE_2_HANDLE p)

/-- The ring moves on to its next entry. (DEDUCED, log 405.) -/
def State.wbNext (s : State) (p : Nat) : State :=
  let n := max 1 (s.get (Reg.WB_CTRL_COUNT p))
  s.put (Reg.WB_STATUS_NEXT p) ((s.get (Reg.WB_STATUS_NEXT p) + 1) % n)

/-- The checks of R133 for handle `h`. (DEDUCED, log 407.) -/
def State.wbAllowed (s : State) (p h : Nat) : Bool :=
  let x := s.handle h
  let stride := s.get (Reg.WB_STRIDE_BYTES p)
  let n := if s.is (Reg.WB_CTRL_FORMAT p) then 10 else 8
  x.alloc && x.owner == s.owner p && x.st != .faulted &&
    stride * s.shownGet p (Reg.TG_VACT_V_ACTIVE p) ≤ x.sizes.headD 0 && stride % 32 == 0 &&
    4 * s.shownGet p (Reg.TG_HACT_H_ACTIVE p) ≤ stride &&
    !(2 ≤ s.get (Reg.WB_CTRL_TAP p) && n < depthBits (s.shownGet p (Reg.CL_CTRL_DEPTH p)))

/-- A frame whose acknowledgements are all in is sealed (R133), unless its buffer is pinned (R134); one that met an error is abandoned
(R135). A buffer that the frame in progress already writes again stays FILLING. (DEDUCED, log 406.) (DEDUCED, log 407.) -/
def State.wbSeal (s : State) (p : Nat) (c : WbClose) : State :=
  let w := wbWriter p c.par
  if s.wroteBad w || s.wroteMoved w then s.wbAbandon p c.par (Reg.WB_STATUS_WR_ERR p)
  else if s.pinned c.handle then s.wbAbandon p c.par (Reg.WB_STATUS_PINNED_WRITE p)
  else
    let again := s.hm.writers.any fun x => x.2 == c.handle && x.1 != w
    let s := ((if again then s else s.setBuf c.handle .sealed).quitWriter w).incr (Reg.WB_STATUS_SEALED p)
    let s := (s.put (Reg.WB_STAMP_LO_STAMP p) (c.stamp % 2 ^ 32)).put (Reg.WB_STAMP_HI_STAMP p) (c.stamp / 2 ^ 32)
    let s := s.modPipe p fun t => { t with wb := { t.wb with closing := t.wb.closing.filter fun x => x.par != c.par } }
    ((s.put (Reg.WB_STATUS_DONE p) 1).wbBusy p).record (124 + p) 0x21 p c.handle

/-- The captured frames of pipe `p` whose acknowledgements are all in are sealed, oldest first. -/
def State.wbSettle (s : State) (p : Nat) : State :=
  ((s.pipe p).wb.closing.filter fun c => !s.inFlight (wbWriter p c.par)).foldl (fun s c => s.wbSeal p c) s

/-- The writer selects its frame at a boundary (R132, R133): the ring moves on with each selected frame, refused or not.
(DEDUCED, log 405; DEDUCED, log 501.) -/
def State.wbBoundary (s : State) (p : Nat) : State :=
  let s := s.wbSettle p
  let s := match (s.pipe p).wb.deferred with
    | some w => (s.modPipe p fun x => { x with wb := { x.wb with deferred := none } }).wbStore p w
    | none => s
  let x := (s.pipe p).wb
  let div := max 1 (s.get (Reg.WB_CTRL_DIV p))
  let sel := match s.wbMode p with
    | 1 => x.shots == 1
    | 2 => x.divCount == 0
    | _ => false
  let s := s.modPipe p fun t => { t with wb := { t.wb with shots := 0, divCount := (t.wb.divCount + 1) % div } }
  if !sel then s
  else
    let h := s.wbHandle p (s.get (Reg.WB_STATUS_NEXT p))
    let s := s.wbNext p
    if s.wbAllowed p h then
      (s.modPipe p fun t => { t with wb := { t.wb with capturing := true, par := 2, handle := h, stamp := t.frameStamp } }).wbBusy p
    else s.put (Reg.WB_STATUS_REFUSED p) 1

/-- The writes in flight of the writeback of pipe `p`, one for each line that the tap holds (R135). (DEDUCED, log 406.) -/
def State.wbHeld (s : State) (p : Nat) : Nat :=
  (s.hm.writes.filter fun v => v.writer == wbWriter p 0 || v.writer == wbWriter p 1).length

/-- The first line of a frame takes a writer number that no captured frame holds, and the buffer enters FILLING (R133). -/
def State.wbFirst (s : State) (p : Nat) : State :=
  let x := (s.pipe p).wb
  let par := if x.closing.any fun c => c.par == 0 then 1 else 0
  let s := s.modPipe p fun t => { t with wb := { t.wb with par } }
  (s.setBuf x.handle .filling).beginWriter (wbWriter p par) x.handle

/-- The writer takes emitted line `y` (R133–R135): a pinned buffer, an error acknowledgement or a full tap ends the frame. (DEDUCED, log 406.)
(DEDUCED, log 407.) -/
def State.wbTake (s : State) (p y : Nat) (line : List Taps) : State :=
  let s := if y = 0 then s.wbSettle p else s
  let x := (s.pipe p).wb
  let w := wbWriter p x.par
  if !x.capturing then s
  else if s.wroteBad w || s.wroteMoved w then s.wbAbandon p x.par (Reg.WB_STATUS_WR_ERR p)
  else if s.pinned x.handle then s.wbAbandon p x.par (Reg.WB_STATUS_PINNED_WRITE p)
  else if s.get Reg.PWR_GRANT_XFER = 0 ∨ 2 ≤ s.wbHeld p then s.wbAbandon p x.par (Reg.WB_STATUS_OVERFLOW p)
  else
    let tap := min 2 (s.get (Reg.WB_CTRL_TAP p))
    let bs := wbLine (s.get (Reg.WB_CTRL_FORMAT p)) tap (depthBits (s.shownGet p (Reg.CL_CTRL_DEPTH p))) line
    let s := if y = 0 then s.wbFirst p else s
    let par := (s.pipe p).wb.par
    let s := s.queueWrite ⟨wbWriter p par, x.handle, 0, y * s.get (Reg.WB_STRIDE_BYTES p), bs, false⟩
    if y + 1 = s.shownGet p (Reg.TG_VACT_V_ACTIVE p) then
      s.modPipe p fun t => { t with wb := { t.wb with capturing := false, closing := t.wb.closing ++ [⟨par, x.handle, x.stamp⟩] } }
    else s

/-- The acknowledgements of the last active line of a captured frame are in (R133). -/
def State.wbDone (s : State) (p : Nat) : State := s.wbSettle p

/-- WB_DONE (R133). -/
def execWbDone (p : Nat) (s : State) : Host.Outcome State Fault Refusal := done (s.fresh.when (p < 12) fun s => s.wbDone p)

end Sys2Proof.Machine
end

