-- ==== Sys2Proof/Machine/Beacon.lean ====
section
/-! DEFINITION. The commands of Beacon and of the cluster engine (chapter 06): APPLY, tell-tale requests and timeouts, the clear of a failed
comparison, injection, and the redraw of the cluster. -/
namespace Sys2Proof.Machine

/-! ### Entries (R141, R142, R155) -/

/-- Whether an address holds class F fields of entry `e`, which APPLY takes. -/
def entryCfgAddr (e a : Nat) : Bool :=
  entryAddr e a && (a - 0x20200100 - 0x40 * e < 0x0C || (0x10 ≤ a - 0x20200100 - 0x40 * e && a - 0x20200100 - 0x40 * e < 0x30))

/-- The entry fields as the safety pair wrote them. -/
def State.entryImg (s : State) (e : Nat) : List (Nat × Word) := s.regs.filter fun x => entryCfgAddr e x.1

/-- The enabled entries of the shadow, each with its pipe. -/
def State.wantedEntries (s : State) : List (Nat × Nat) :=
  (allEntries.filter fun e => s.is (Reg.BE_CFG_EN e)).map fun e => (e, s.get (Reg.BE_CFG_PIPE e))

/-- Whether the present rectangles of entry `e` lie wholly inside the active area of pipe `p` (R141): that of the shown state, whatever is
pending. (DEDUCED, log 613.) -/
def State.entryInside (s : State) (e p : Nat) : Bool :=
  let w := s.shownGet p (Reg.TG_HACT_H_ACTIVE p)
  let h := s.shownGet p (Reg.TG_VACT_V_ACTIVE p)
  (entryRects s.regs e).all fun r => r.x + r.w ≤ w && r.y + r.h ≤ h

/-- Whether the shadow keeps R141. -/
def State.entriesLegal (s : State) : Bool :=
  let w := s.wantedEntries
  w.all fun e => e.2 ≤ 11 && s.entryInside e.1 e.2 && !(w.any fun f => f.1 != e.1 && f.2 == e.2)

/-- The entry that the shadow puts on pipe `p`. -/
def State.wantedOn (s : State) (p : Nat) : Option BcnForce :=
  (s.wantedEntries.find? fun e => e.2 == p).map fun e => ⟨e.1, s.entryImg e.1⟩

/-- What pipe `p` will have in force without a further APPLY. (DEDUCED, log 608.) -/
def State.targetOn (s : State) (p : Nat) : Option BcnForce :=
  if s.bc.applyPipes.contains p then
    (imgEntryOn s.bc.applyImg p).map fun e => ⟨e, s.bc.applyImg.filter fun x => entryCfgAddr e x.1⟩
  else (s.pipe p).bcnNext.getD (s.bcn p)

/-- Whether the change on pipe `p` takes its entry away, which needs a hold window that covers the frame from which it is shown (R155). A
stopped pipe shows no frame and needs none. (DEDUCED, log 601.) -/
def State.applyHeld (s : State) (p : Nat) : Bool :=
  match s.targetOn p with
  | none => true
  | some b =>
    (match s.wantedOn p with
      | some w => w.entry == b.entry
      | none => false) || s.mode p == .stopped ||
      s.holdCovers b.entry (if s.counting p then s.nextStamp p (if (s.pipe p).commitDone then 2 else 1) else s.orbit.stamp)

/-- APPLY (R142): the change is validated, checks 3 to 6 are re-run, and each affected pipe latches it at its next commit line; a pipe
that counts no frames takes it with its first counted frame (R425). (DEDUCED, log 601; DEDUCED, log 608.) -/
def State.beaconApply (s : State) : State :=
  if !s.entriesLegal then s.put Reg.BC_STATUS_APPLY_RESULT 1
  else
    let ps := allPipes.filter fun p => s.wantedOn p != s.targetOn p
    if ps.any fun p => !s.applyHeld p then s.put Reg.BC_STATUS_APPLY_RESULT 7
    else
      let stopped := ps.filter fun p => s.mode p == .stopped
      let gap := ps.filter fun p => s.mode p != .stopped && !s.counting p
      let wait := ps.filter fun p => s.counting p
      let img := allEntries.flatMap s.entryImg
      let want := s.wantedOn
      let keep := s.bc.applyPipes.filter fun p => !ps.contains p
      let s := s.put Reg.BC_STATUS_APPLY_RESULT 0
      let s := forAll stopped (fun p s => s.modPipe p fun x => { x with bcn := want p, bcnNext := none }) s
      let s := forAll gap (fun p s => s.modPipe p fun x => { x with bcnNext := some (want p) }) s
      let s := { s with bc := { s.bc with applyImg := img, applyPipes := keep ++ wait } }
      s.readmit s.capacity

/-- BEACON_APPLY: a write of BC_CTRL (R142). -/
def execBeaconApply (o : Origin) (v : Word) (s : State) : Host.Outcome State Fault Refusal :=
  done (s.fresh.written o Reg.a_BC_CTRL v fun _ _ w s => s.when (bit w 0) State.beaconApply)

/-! ### Tell-tales (R150, R151, R158) -/

/-- An accepted write of TT_STATE: the request, and a clear of GLYPH_BAD that waits for the glyph's next check. (DEDUCED, log 603.) -/
def State.writeTtState (s : State) (i w : Nat) : State :=
  let s := s.ttRequest i (bits w 1 0)
  if bit w 10 && s.is (Reg.TT_STATE_GLYPH_BAD i) then s.setTt i { s.tt i with clearReq := true } else s

/-- TELLTALE_REQ_WRITE (R150). -/
def execTelltaleReqWrite (o : Origin) (i : Nat) (v : Word) (s : State) : Host.Outcome State Fault Refusal :=
  done (s.fresh.when (i < 64) fun s => s.written o (Reg.a_TT_STATE i) v fun _ is w s => s.writeTtState (is.headD 0) w)

/-- The signal age of tell-tale `i` exceeds TIMEOUT (R151). (DESIGN CHOICE, log 607.) -/
def State.ttTimeout (s : State) (i : Nat) : State :=
  if i < 64 ∧ s.get (Reg.TT_MODE_TIMEOUT i) ≠ 0 then
    s.setTt i { s.tt i with ageAt := some s.now, age0 := max (s.ttAge i) (s.get (Reg.TT_MODE_TIMEOUT i) * 10 + 1) }
  else s

/-- TELLTALE_TIMEOUT (R151). -/
def execTelltaleTimeout (i : Nat) (s : State) : Host.Outcome State Fault Refusal := done (s.fresh.when (i < 64) fun s => s.ttTimeout i)

/-! ### The end-to-end comparison (R161, R163) -/

/-- Whether entry `e` holds a port in SAFE (R160, ACTION 1). (DEDUCED, log 602.) -/
def State.e2eFenced (s : State) (e : Nat) : Bool := allPipes.any fun p => bit (s.port p).safe (1 + e)

/-- An accepted write of BE_E2E (R161): FAILED clears only after QUIET consecutive matches, and while the entry holds a port in SAFE only
once the LATCHED bit of BEACON_E2E is 0 (R442); that SAFE then ends. (DEDUCED, log 602; DEDUCED, log 609.) -/
def State.writeE2e (s : State) (e w : Nat) : State :=
  let s := s.when (bit w 2) fun s => s.put (Reg.BE_E2E_RETRY e) 0
  if bit w 3 && s.is (Reg.BE_E2E_FAILED e) && (!s.e2eFenced e || s.cleared .BEACON_E2E) && max 1 (s.get Reg.BC_E2E_CFG_QUIET) ≤ s.get (Reg.BE_E2E_MATCH_RUN e) then
    let s := (s.put (Reg.BE_E2E_FAILED e) 0).level (186 + e) false
    forAll allPipes (fun p s => s.portSafeEnd p (2 ^ (1 + e))) s
  else s

/-- E2E_FAILED_CLEAR (R161). -/
def execE2eFailedClear (o : Origin) (i : Nat) (v : Word) (s : State) : Host.Outcome State Fault Refusal :=
  done (s.fresh.when (i < 4) fun s => s.written o (Reg.a_BE_E2E i) v fun _ is w s => s.writeE2e (is.headD 0) w)

/-- BC_INJ (R163): the bits stay armed until they are used. -/
def execBcInj (o : Origin) (v : Word) (s : State) : Host.Outcome State Fault Refusal :=
  done (s.fresh.written o Reg.a_BC_INJ v fun row _ w s => s.storeArm Reg.a_BC_INJ row w)

/-! ### The cluster engine (R164–R169) -/

/-- The cluster signals (Table 06.7). -/
def clusterSignals : List Nat := [1, 2, 3, 4]

/-- Cluster signal `n`. -/
def State.sig (s : State) (n : Nat) : ClusterSig := SMap.get {} s.bc.sigs n

/-- Replaces cluster signal `n`. -/
def State.setSig (s : State) (n : Nat) (x : ClusterSig) : State := { s with bc := { s.bc with sigs := SMap.set {} s.bc.sigs n x } }

/-- The timeout of signal `n` in ms (Table 06.7). -/
def ClusterSig.limit (x : ClusterSig) (n : Nat) : Nat :=
  x.timeout.getD (match n with
    | 3 => 2000
    | 4 => 5000
    | _ => 200)

/-- The age of signal `n` in ms. (DESIGN CHOICE, log 607.) -/
def State.sigAge (s : State) (n : Nat) : Nat := s.ageMs (s.sig n).ageAt (s.sig n).age0

/-- Whether signal `n` is timed out (R151, R166): 0 disables the timeout. -/
def State.sigTimedOut (s : State) (n : Nat) : Bool := (s.sig n).limit n != 0 && (s.sig n).limit n < s.sigAge n

/-- A value reaches signal `n`: its age is reset. -/
def State.sigWrite (s : State) (n : Nat) (v : List Byte) : State :=
  s.setSig n { s.sig n with value := v, ageAt := some s.now, age0 := 0 }

/-- The age of signal `n` exceeds its timeout (R166). (DESIGN CHOICE, log 607.) -/
def State.sigTimeout (s : State) (n : Nat) : State :=
  if n ∈ clusterSignals ∧ (s.sig n).limit n ≠ 0 then
    s.setSig n { s.sig n with ageAt := some s.now, age0 := max (s.sigAge n) ((s.sig n).limit n + 1) }
  else s

/-- CLUSTER_SIGNAL_TIMEOUT (R166). -/
def execClusterSignalTimeout (n : Nat) (s : State) : Host.Outcome State Fault Refusal := done (s.fresh.when (1 ≤ n && n ≤ 4) fun s => s.sigTimeout n)

/-- The base of the sprite atlas (R164). -/
def atlasBase : Nat := 0x10600000

/-- The directory entry of sprite `n`. -/
def State.spriteDir (s : State) (n : Nat) : GlyphDir :=
  let a := atlasBase + 16 * n
  let w1 := s.sramWord (a + 4)
  ⟨s.sramWord a, bits w1 27 16, bits w1 11 0, s.sramWord (a + 8)⟩

/-- Whether sprite `n` is present (R164). -/
def State.spriteOk (s : State) (n : Nat) : Bool :=
  let d := s.spriteDir n
  let w1 := s.sramWord (atlasBase + 16 * n + 4)
  n < 4096 && d.off % 64 == 0 && 0x10000 ≤ d.off && 1 ≤ d.h && d.h ≤ 2048 && 1 ≤ d.w && d.w ≤ 2048 && bits w1 31 28 == 0 &&
    bits w1 15 12 == 0 && s.sramWord (atlasBase + 16 * n + 12) == 0 && d.off + 4 * d.w * d.h ≤ 0x600000

/-- Whether the body of sprite `n` matches its CRC (R164, R168). -/
def State.spriteIntact (s : State) (n : Nat) : Bool :=
  let d := s.spriteDir n
  crc32c (s.sramLoad (atlasBase + d.off) (4 * d.w * d.h)) == d.crc

/-- A display-list record as its eight words (R165). -/
def State.dlRecord (s : State) (i : Nat) : List Nat :=
  (rangeFrom 0 8).map fun j => s.sramWord (s.get Reg.CLU_DL_ADDR + 32 * i + 4 * j)

/-- The type of a record. -/
def dlType (r : List Nat) : Nat := bits (r.headD 0) 31 28

/-- The records of the display list: at most 64, ending at TYPE 0. -/
def State.displayList (s : State) : List (List Nat) := ((rangeFrom 0 64).map s.dlRecord).takeWhile fun r => dlType r != 0

/-- The signal that a record is bound to; none for a SPRITE record. -/
def dlSignal (r : List Nat) : Option Nat := if dlType r = 1 then none else some (bits (r.headD 0) 7 0)

/-- Whether a record keeps Table 06.6. (DEDUCED, log 606.) -/
def dlLegal (r : List Nat) : Bool :=
  let g := fun i => r.getD i 0
  let t := dlType r
  let sig := bits (g 0) 7 0
  1 ≤ t && t ≤ 4 && g 7 == 0 && (t == 1 || (1 ≤ sig && sig ≤ 4)) &&
    (t != 2 || (sig != 4 && 2 ≤ bits (g 2) 31 16 && bits (g 2) 31 16 ≤ 4096 && sext (g 3) 32 < sext (g 4) 32)) &&
    (t != 3 || (sig != 4 && 1 ≤ g 4)) && (t != 4 || sig == 4) && (t ≤ 2 || bits (g 5) 29 28 ≤ 2)

/-- The decimal digits of a number without leading zeros. -/
def decDigits : Nat → Nat → List Nat
  | 0, _ => []
  | n + 1, v => if v < 10 then [v] else decDigits n (v / 10) ++ [v % 10]

/-- The sprite of a character in a font (R164, R166). -/
def charSprite (base c : Nat) : Nat := if 0x20 ≤ c ∧ c ≤ 0x7E then base + (c - 0x20) else base + 95

/-- The pose of a value (R166). -/
def poseOf (v lo hi : Int) (p : Nat) : Nat :=
  (clampI 0 ((p : Int) - 1) (((v - lo) * ((p : Int) - 1) * 2 + (hi - lo)) / (2 * (hi - lo)))).toNat

/-- The sprites of a record in drawing order: none for a record that shows FALLBACK. -/
def State.recordText (s : State) (r : List Nat) : Option (List Nat) :=
  let g := fun i => r.getD i 0
  let base := bits (g 2) 15 0
  let v := match dlSignal r with
    | some n => (s.sig n).value
    | none => []
  match dlType r with
  | 3 => some ((decDigits 10 (leNat v / max 1 (g 4))).map fun d => charSprite base (0x30 + d))
  | 4 => some ((v.takeWhile fun b => b != 0#8).map fun b => charSprite base b.toNat)
  | _ => none

/-- A sprite placed in the buffer. -/
structure Placed where
  sprite : Nat
  x : Int
  y : Int
  deriving DecidableEq, Repr

/-- Places a row of sprites from column `x` on, each advancing by its width. -/
def State.placeRow (s : State) (y : Int) : Int → List Nat → List Placed
  | _, [] => []
  | x, n :: ns => ⟨n, x, y⟩ :: s.placeRow y (x + ((s.spriteDir n).w : Int)) ns

/-- The sprites that a record draws (R165, R166); half of an odd slack is rounded down. (DESIGN CHOICE, log 616.) -/
def State.recordSprites (s : State) (r : List Nat) : List Placed :=
  let g := fun i => r.getD i 0
  let x : Int := bits (g 1) 12 0
  let y : Int := bits (g 1) 27 16
  let out := match dlSignal r with
    | some n => s.sigTimedOut n
    | none => false
  if out then [⟨bits (g 6) 15 0, x, y⟩]
  else match dlType r with
    | 1 => [⟨bits (g 2) 15 0, x, y⟩]
    | 2 =>
      let v : Int := match dlSignal r with
        | some n => leNat (s.sig n).value
        | none => 0
      [⟨bits (g 2) 15 0 + poseOf v (sext (g 3) 32) (sext (g 4) 32) (bits (g 2) 31 16), x, y⟩]
    | _ =>
      let t := (s.recordText r).getD []
      let w : Int := sumNat (t.map fun n => (s.spriteDir n).w)
      let box : Int := bits (g 5) 12 0
      let x := match bits (g 5) 29 28 with
        | 1 => x + box - w
        | 2 => x + (box - w) / 2
        | _ => x
      s.placeRow y x t

/-- The records that are drawn, and whether one was skipped (R165). (DEDUCED, log 606.) -/
def State.drawnRecords (s : State) : List (List Placed) × Bool :=
  s.displayList.foldl (fun a r =>
    let ps := s.recordSprites r
    if dlLegal r && ps.all fun q => s.spriteOk q.sprite then (a.1 ++ [ps], a.2) else (a.1, true)) ([], false)

/-- What a redraw draws from: the bound signals with their timed-out status, and the display list. -/
def State.redrawSource (s : State) : List (List Byte) :=
  let dl := s.displayList
  let bound := (dl.filterMap dlSignal).eraseDups
  (bound.map fun n => BitVec.ofNat 8 (b2n (s.sigTimedOut n)) :: (s.sig n).value) ++ dl.map fun r => r.flatMap (leBytes 4)

/-- One component after a sprite pixel: the PREMULT equation of R119 at LA 4095; alpha follows the same equation. -/
def overComp (c a d : Nat) : Nat := min 4095 (mul12 c 4095 + mul12 d (4095 - mul12 a 4095))

/-- A pixel after a sprite pixel. (DEDUCED, log 408.) -/
def overPx (c d : Px) : Px := ⟨overComp c.a c.a d.a, overComp c.r c.a d.r, overComp c.g c.a d.g, overComp c.b c.a d.b⟩

/-- The buffer pixel (x, y) that a redraw draws. -/
def State.clusterPixel (s : State) (ps : List Placed) (x y : Nat) : Nat :=
  let c := ps.foldl (fun d q =>
    let g := s.spriteDir q.sprite
    let sx := (x : Int) - q.x
    let sy := (y : Int) - q.y
    if 0 ≤ sx ∧ sx < g.w ∧ 0 ≤ sy ∧ sy < g.h then
      overPx (argb8888 (s.sramWord (atlasBase + g.off + 4 * (sy.toNat * g.w + sx.toNat)))) d
    else d) (argb8888 (s.get Reg.CLU_BG_COLOUR))
  reduce12 8 c.a * 2 ^ 24 + reduce12 8 c.r * 2 ^ 16 + reduce12 8 c.g * 2 ^ 8 + reduce12 8 c.b

/-- The sprites of a redraw are read (R168): a lasting mismatch skips the sprite from now on, a transient one is reported. -/
def State.checkSprites (s : State) (ns bad : List Nat) : State :=
  ns.eraseDups.foldl (fun s n =>
    let s := if s.bc.badSprites.contains n then s else s.sramStrike atlasBase 0
    if s.bc.badSprites.contains n then s
    else if !s.spriteIntact n then
      let s := { s with bc := { s.bc with badSprites := n :: s.bc.badSprites } }
      (s.put Reg.CLU_STATUS_ATLAS_BAD 1).fault .CLU_ATLAS
    else if bad.contains n then s.fault .CLU_ATLAS_REREAD
    else s) s

/-- The writer number of the cluster engine. -/
def clusterWriter : Nat := 180

/-- The target pipe of the cluster: 12 to 15 are taken as 0. -/
def State.clusterPipe (s : State) : Nat := if s.get Reg.CLU_TARGET_PIPE < 12 then s.get Reg.CLU_TARGET_PIPE else 0

/-- The engine stops when the owner of its target pipe is no longer FIRMWARE (R169). -/
def State.clusterStop (s : State) : State :=
  let s := ((s.put Reg.CLU_STATUS_STOPPED 1).put Reg.CLU_CTRL_EN 0).put Reg.CLU_STATUS_BUSY 0
  { s with bc := { s.bc with redraw := none } }.quitWriter clusterWriter

/-- The buffer that a redraw draws into: one that is not SHOWN, an unpinned one first (R167). (DEDUCED, log 605.) -/
def State.clusterBuffer (s : State) : Nat :=
  let a := s.get Reg.CLU_HANDLE_HANDLE_A
  let b := s.get Reg.CLU_HANDLE_HANDLE_B
  if !s.pinned a then a else if !s.pinned b then b else if (s.handle a).st != .shown then a else b

/-- Draws the whole of buffer `h` with the geometry that slot `k` of pipe `p` declares (R167, step 1). (DEDUCED, log 605.)
(DESIGN CHOICE, log 615.) -/
def State.clusterDraw (s : State) (h p k : Nat) (bad : List Nat) : State :=
  let s := s.sramStrike (s.get Reg.CLU_DL_ADDR) 0
  let src := s.redrawSource
  let d := declOf (shadowImg s.regs p) p k
  let (recs, skipped) := s.drawnRecords
  let ps := recs.flatten
  let s := s.when skipped fun s => s.put Reg.CLU_STATUS_DL_BAD 1
  let s := s.checkSprites (ps.map fun q => q.sprite) bad
  let ps := ps.filter fun q => !s.bc.badSprites.contains q.sprite
  let s := s.put Reg.CLU_STATUS_BUSY 1
  let s := { s with bc := { s.bc with redraw := some (h, p, k), sinceRedraw := 0, redrawOrbits := 0, lastDrawn := src } }
  let s := if s.pinned h then s else s.setBuf h .filling
  let s := s.beginWriter clusterWriter h
  (rangeFrom 0 d.srcH).foldl (fun s y =>
    let row := (rangeFrom 0 d.srcW).flatMap fun x => leBytes 4 (s.clusterPixel ps x y)
    s.queueWrite ⟨clusterWriter, h, 0, y * d.stride0, row, false⟩) s

/-- A redraw starts (R167): every DIV master orbits, when what it draws from has changed. -/
def State.clusterRedraw (s : State) (bad : List Nat) : State :=
  let div := max 1 (s.get Reg.CLU_CTRL_DIV)
  if !s.is Reg.CLU_CTRL_EN || s.bc.redraw.isSome || s.bc.sinceRedraw < div || !s.hmReady then s
  else if s.redrawSource == s.bc.lastDrawn then { s with bc := { s.bc with sinceRedraw := 0 } }
  else
    let p := s.clusterPipe
    if s.owner p ≠ 3 then s.clusterStop else s.clusterDraw s.clusterBuffer p (s.get Reg.CLU_TARGET_SLOT) bad

/-- CLUSTER_REDRAW (R167). -/
def execClusterRedraw (bad : List Nat) (s : State) : Host.Outcome State Fault Refusal := done (s.fresh.clusterRedraw bad)

/-- A redraw is abandoned (R167). (DESIGN CHOICE, log 615.) -/
def State.clusterAbandon (s : State) : State :=
  let s := (s.put Reg.CLU_STATUS_LATE 1).put Reg.CLU_STATUS_BUSY 0
  { s with bc := { s.bc with redraw := none, lastDrawn := [] } }.quitWriter clusterWriter

/-- A completed redraw seals its buffer and submits its commit through port 2 (R167); the target must still belong to FIRMWARE (R169). The
redraw of a DRAW directive of Kindling ends with the seal (Table 17.4). (DEDUCED, log 605.) -/
def State.clusterSealed (s : State) : State :=
  match s.bc.redraw with
  | none => s
  | some (h, p, k) =>
    if s.inFlight clusterWriter then s
    else if (s.handle h).st ≠ .filling ∨ s.wroteBad clusterWriter = true ∨ s.wroteMoved clusterWriter = true then s.clusterAbandon
    else
      let s := ((s.setBuf h .sealed).quitWriter clusterWriter).put Reg.CLU_STATUS_BUSY 0
      let s := { s with bc := { s.bc with redraw := none } }
      if s.kin.wait = .draw h then s
      else if s.owner p ≠ 3 then s.clusterStop
      else
        let s := s.put (Reg.SL_HANDLE_HANDLE p k) h
        let g : GoCap := { pipes := 2 ^ p, target := 0, tag := 0, allOrHold := false, lateOk := true, testOnly := false }
        let s := s.admCompare
        let new := s.memberImgs g
        let r := s.judgeGo 2 g new
        let s := if r.code = 0 then ((s.acceptAll 2 g new).refreshAdm).deadlinesFor new else s
        s.put Reg.CLU_STATUS_RESULT r.code

/-- CLUSTER_SEALED (R167). -/
def execClusterSealed (s : State) : Host.Outcome State Fault Refusal := done s.fresh.clusterSealed

/-- CLUSTER_REDRAW_LATE (R167). -/
def execClusterRedrawLate (s : State) : Host.Outcome State Fault Refusal :=
  let s := s.fresh
  done (if s.bc.redraw.isSome && max 1 (s.get Reg.CLU_CTRL_DIV) ≤ s.bc.redrawOrbits then s.clusterAbandon else s)

end Sys2Proof.Machine
end

