-- ==== Sys2Proof/Machine/Cagan.lean ====
section
/-! DEFINITION. The commands of the Cagan ports (chapter 12): training, retraining, back-channel messages and injection. -/
namespace Sys2Proof.Machine

/-! ### Training (R310–R312) -/

/-- Uses an armed injection bit: whether it was armed, and the state with it cleared. -/
def State.takeInj (s : State) (f : FRef) : State × Bool := if s.is f then (s.put f 0, true) else (s, false)

/-- The image whose timing is in force on pipe `p`, or about to be: the commit that starts it, the state of a relock, else the shown
state. -/
def State.timingImg (s : State) (p : Nat) : List (Nat × Word) :=
  let x := s.pipe p
  match s.mode p, x.next, x.pend with
  | .starting, _, c :: _ => if x.restart then x.shown else c.img
  | .relock, some n, _ => n.img
  | _, _, _ => x.shown

/-- Brings the refusal of HOLD of pipe `p`: the pipe stays active and restarts the count of R187; BLOCK shows 9 (R188). -/
def State.refuseHold (s : State) (p : Nat) : State :=
  (((s.cancelHold p).noteChange p).put (Reg.BANK_STAT_UNCHANGED p) 0).put (Reg.BANK_STAT_BLOCK p) 9

/-- The port reaches ACTIVE: it sends SAFE while a cause of SAFE holds, BLANK in a relock gap or until the FH that ends one, else the frame
schedule (R316, R318). -/
def State.cgActive (s : State) (p : Nat) : State :=
  let x := s.port p
  let s := (s.setPort p { x with retraining := false, retrainInj := false, down := false }).setCgState p 6
  let s := if x.retraining then s.fault .CG_RETRAIN x.retrainInj else s
  let s := s.modPipe p fun t => { t with trainOk := true }
  let tx := if (s.port p).safe ≠ 0 then 4 else if s.mode p = .relock ∨ s.get (Reg.CG_STATUS_TX p) = 1 then 1 else 0
  (s.setTx p tx).cgFill p

/-- The exit condition of a training state (Table 12.4): from CAPS, a CAPS that covers the timing was accepted; from CLOCK, EQ and ALIGN, the last
STATUS reports both lanes locked, EQ_DONE, and the lanes aligned. (DEDUCED, log 1101.) -/
def State.cgAdvance (s : State) (p : Nat) : State :=
  let st := (s.port p).status
  match s.get (Reg.CG_STATUS_STATE p) with
  | 1 => (s.put (Reg.CG_STATUS_BC_LOCK p) 1).setCgState p 2
  | 2 => if (s.port p).capsOk then (s.setCgState p 3).cgFill p else s
  | 3 => if bits st 1 0 = 3 then (s.setCgState p 4).cgFill p else s
  | 4 => if bit st 3 then (s.setCgState p 5).cgFill p else s
  | 5 => if bit st 2 then s.cgActive p else s
  | _ => s

/-- CG_TRAIN_ADVANCE (R310). -/
def execCgTrainAdvance (p : Nat) (s : State) : Host.Outcome State Fault Refusal := done (s.fresh.when (p < 12) fun s => s.cgAdvance p)

/-- The link is down (R312): the port returns to DETECT every 10 ms. -/
def State.cgLinkDown (s : State) (p : Nat) (inj : Bool) : State :=
  let s := s.setPort p { s.port p with retraining := false, holdOut := false, down := true, capsOk := false }
  (((s.put (Reg.CG_STATUS_BC_LOCK p) 0).setCgState p 0).cgFill p).faultHeld .CG_LINK_DOWN inj

/-- The limit of a training state expires (R310, R312, R185): a retrain has failed; a full training tries again from DETECT, and its pipe
no longer waits for it. (DEDUCED, log 1203.) -/
def State.cgLimit (s : State) (p : Nat) : State :=
  let st := s.get (Reg.CG_STATUS_STATE p)
  if st = 0 ∨ 6 ≤ st then s
  else if (s.port p).retraining then s.cgLinkDown p false
  else
    let s := s.modPipe p fun t => { t with trainOk := true }
    if st = 1 ∨ (st = 2 ∧ s.is (Reg.CG_STATUS_CAPS_BAD p)) then s
    else
      let s := s.setPort p { s.port p with capsOk := false }
      ((s.put (Reg.CG_STATUS_BC_LOCK p) 0).setCgState p 1).cgFill p

/-- CG_TRAIN_LIMIT (R310). -/
def execCgTrainLimit (p : Nat) (s : State) : Host.Outcome State Fault Refusal := done (s.fresh.when (p < 12) fun s => s.cgLimit p)

/-- The port trains from DETECT at the lane rate of its pipe; a Banked pipe leaves Banked. (DEDUCED, log 1206.) -/
def State.cgFullTrain (s : State) (p : Nat) : State :=
  let rate := (timingOf (s.timingImg p) p).rate
  let s := s.bankExit p
  let s := s.setPort p { s.port p with capsOk := false }
  (s.put (Reg.CG_STATUS_CAPS_BAD p) 0).cgDetect p rate

/-- CG_FULL_TRAIN: a write of CG_CTRL (R310). -/
def execCgFullTrain (o : Origin) (p : Nat) (v : Word) (s : State) : Host.Outcome State Fault Refusal :=
  done (s.fresh.when (p < 12) fun s => s.written o (Reg.a_CG_CTRL p) v fun _ is w s => s.when (bit w 0) fun s => s.cgFullTrain (is.headD 0))

/-- The port retrains from CLOCK (R312); a second retrain within 100 ms takes the link down. A Banked pipe leaves Banked (Table
12.6). (DEDUCED, log 1202.) -/
def State.cgRetrain (s : State) (p : Nat) (inj : Bool) : State :=
  let st := s.get (Reg.CG_STATUS_STATE p)
  if st < 2 then s
  else
    let near : Bool := match (s.port p).lastRetrain with
      | some t => s.now < t + 100 * msNs
      | none => false
    let s := s.bankExit p
    let s := s.setPort p { s.port p with lastRetrain := some s.now, retraining := true, retrainInj := inj, holdOut := false, status := 0 }
    if near then s.cgLinkDown p inj else (s.setCgState p 3).cgFill p

/-- A lane of the port is unlocked (R312); an armed CG_INJ.LOCK is used. (DEDUCED, log 1201.) -/
def State.laneUnlocked (s : State) (p : Nat) : State :=
  let (s, inj) := s.takeInj (Reg.CG_INJ_LOCK p)
  s.cgRetrain p inj

/-- CG_RETRAIN: a lane unlock is reported to a port in ACTIVE or in the electrical idle of Banked (R312). -/
def execCgRetrain (p : Nat) (s : State) : Host.Outcome State Fault Refusal :=
  done (s.fresh.when (p < 12 && 6 ≤ s.get (Reg.CG_STATUS_STATE p)) fun s => s.laneUnlocked p)

/-- CG_DETECT_RETRY: after CG_LINK_DOWN the port returns to DETECT (R312). -/
def execCgDetectRetry (p : Nat) (s : State) : Host.Outcome State Fault Refusal :=
  let s := s.fresh
  done (if p < 12 && (s.port p).down && s.get (Reg.CG_STATUS_STATE p) == 0 && s.mode p != .stopped then s.cgFullTrain p else s)

/-! ### Back-channel messages (R313–R315) -/

/-- A message that fails its CRC (R315). -/
def State.bcBad (s : State) (p : Nat) (inj : Bool) : State := (s.count (Reg.CG_ERR_BC_ERR p) 1).fault .CG_BC_CRC inj

/-- One step of the CRC-16 of R313: a byte enters the register from its most significant bit. -/
def crc16Byte (c b : Nat) : Nat :=
  (rangeFrom 0 8).foldl (fun c _ => if bit c 15 then (c * 2 % 65536) ^^^ 0x1021 else c * 2 % 65536) (c ^^^ (b * 256))

/-- The CRC-16 of R313: polynomial 0x1021, initial value 0xFFFF, not reflected, no final XOR. -/
def crc16 (bs : List Byte) : Nat := bs.foldl (fun c b => crc16Byte c b.toNat) 0xFFFF

/-- Bytes 0 to 13 of a message: TYPE, SEQ and the body, its unused bytes 0 (R313). -/
def bcBytes (type seq : Nat) (bs : List Byte) : List Byte := [BitVec.ofNat 8 type, BitVec.ofNat 8 seq] ++ padTo (bs.take 12) 12

/-- A message reaches the port: it is heard from the CAPS state on (Table 12.4); one whose CRC field is not that of its bytes, or that meets
CG_INJ.BC, is discarded (R315). -/
def State.bcHear (s : State) (p : Nat) (m : List Byte) (crc : Nat) (f : State → State) : State :=
  if s.get (Reg.CG_STATUS_STATE p) < 2 then s
  else
    let (s, inj) := s.takeInj (Reg.CG_INJ_BC p)
    if inj || crc16 m != crc then s.bcBad p inj else f s

/-- A message of a type reaches the port. -/
def State.bcMessage (s : State) (p type seq : Nat) (bs : List Byte) (crc : Nat) (f : State → State) : State :=
  s.bcHear p (bcBytes type seq bs) crc f

/-- Body byte `i` of a message, numbered from byte 2 of the message. -/
def bodyByte (bs : List Byte) (i : Nat) : Nat := (bs.getD (i - 2) 0#8).toNat

/-- A little-endian body field of two bytes. -/
def bodyHalf (bs : List Byte) (i : Nat) : Nat := bodyByte bs i + 256 * bodyByte bs (i + 1)

/-- CAPS: the receiver's capabilities are recorded; in training they are accepted when they cover the timing in force, else
CG_CAPS_MISMATCH is raised and the port stays in CAPS (R307, R314). (DEDUCED, log 19.) -/
def State.capsMessage (s : State) (p : Nat) (bs : List Byte) : State :=
  let s := (s.put (Reg.CG_CAPS_RATES p) (bodyByte bs 2)).put (Reg.CG_CAPS_HOLD p) (bodyByte bs 3)
  let s := (s.put (Reg.CG_CAPS_CRC p) (bodyByte bs 3 / 2)).put (Reg.CG_CAPS_DEPTHS p) (bodyByte bs 4)
  let s := (s.put (Reg.CG_CAPS_MAX_H p) (bodyHalf bs 5)).put (Reg.CG_CAPS2_MAX_V p) (bodyHalf bs 7)
  let s := s.put (Reg.CG_CAPS2_RX_ID p) (bodyHalf bs 9)
  if s.get (Reg.CG_STATUS_STATE p) ≠ 2 then s
  else
    let ok := s.get (Reg.CG_CAPS_RATES p) != 0 && s.capsAllow p (timingOf (s.timingImg p) p)
    let s := s.setPort p { s.port p with capsOk := ok }
    let s := s.put (Reg.CG_STATUS_CAPS_BAD p) (b2n !ok)
    if ok then s.portConds else s.faultHeld .CG_CAPS_MISMATCH

/-- CAPS (R314). -/
def execCaps (p seq : Nat) (bs : List Byte) (crc : Nat) (s : State) : Host.Outcome State Fault Refusal :=
  done (s.fresh.when (p < 12) fun s => s.bcMessage p 1 seq bs crc fun s => s.capsMessage p bs)

/-- LINE_ERR of a STATUS message, whose increases are counted for the threshold (R314, R321). -/
def State.lineErrStatus (s : State) (p : Nat) (bs : List Byte) : State :=
  let new := bodyHalf bs 3
  let inc := (new + 65536 - s.get (Reg.CG_ERR_LINE_ERR p)) % 65536
  let s := s.put (Reg.CG_ERR_LINE_ERR p) new
  if inc = 0 then s
  else
    let old := (s.port p).errs.filter fun t => s.orbit.orbits < t + 2 ^ s.get (Reg.CG_CFG_WIN p)
    let x := s.port p
    let s := s.setPort p { x with errs := old ++ List.replicate (min inc 256) s.orbit.orbits, lineInj := false, thrInj := x.thrInj || x.lineInj }
    s.fault .CG_LINE_ERR x.lineInj

/-- STATUS: LINE_ERR; in training its bits let the port leave the state (Table 12.4); in ACTIVE a lane reported unlocked, or an armed
CG_INJ.LOCK, makes the port retrain (R312, R314). (DEDUCED, log 19.) -/
def State.statusMessage (s : State) (p : Nat) (bs : List Byte) : State :=
  let s := s.lineErrStatus p bs
  let s := s.setPort p { s.port p with status := bodyByte bs 2 }
  match s.get (Reg.CG_STATUS_STATE p) with
  | 3 | 4 | 5 => s.cgAdvance p
  | 6 => if bodyByte bs 2 % 4 ≠ 3 ∨ s.is (Reg.CG_INJ_LOCK p) = true then s.laneUnlocked p else s
  | _ => s

/-- STATUS (R314). (DEDUCED, log 1201; DEDUCED, log 1202.) -/
def execStatus (p seq : Nat) (bs : List Byte) (crc : Nat) (s : State) : Host.Outcome State Fault Refusal :=
  done (s.fresh.when (p < 12) fun s => s.bcMessage p 2 seq bs crc fun s => s.statusMessage p bs)

/-- A report of CRC `crc` for frame `f` of entry `e` (R159, R162): a Banked pipe compares the newest undecided frame. -/
def State.crcReport (s : State) (e p f crc : Nat) (held : Bool) : State :=
  let s := s.put (Reg.BE_RX_CRC_CRC e) crc
  if (s.entry e).covered then s
  else
    let k? := if held then ((s.entry e).kept.head?).filter fun k => !k.decided
      else (s.entry e).kept.find? fun k => k.frame == f && !k.decided
    match k? with
    | none => s
    | some k =>
      let inj := bit (s.get Reg.BC_INJ_CRC) e
      let s := s.when inj fun s => s.put Reg.BC_INJ_CRC (setBit (s.get Reg.BC_INJ_CRC) e false)
      let kept := if inj then crcFinal k.crc else k.crc
      (s.decideFrame e k.frame).e2eOutcome e p f (if crc = kept then 0 else 1) inj

/-- CRC_REPORT: the receiver report for a frame (R159, R314); one with HELD counts only while the pipe is Banked (Table 12.6),
and for the frame that the receiver holds. -/
def State.crcMessage (s : State) (p : Nat) (bs : List Byte) : State :=
  let held := bit (bodyByte bs 3) 0
  let banked := s.mode p == .banked || s.mode p == .bankExit
  if held && (!banked || bodyByte bs 2 != (s.port p).heldFrame) then s
  else match s.bcn p with
    | none => s
    | some b => s.crcReport b.entry p (bodyByte bs 2) (bodyHalf bs 4 + 65536 * bodyHalf bs 6) held

/-- CRC_REPORT (R314). -/
def execCrcReport (p seq : Nat) (bs : List Byte) (crc : Nat) (s : State) : Host.Outcome State Fault Refusal :=
  done (s.fresh.when (p < 12) fun s => s.bcMessage p 3 seq bs crc fun s => s.crcMessage p bs)

/-- HOLD_ACK: before the prefetch start it lets the pipe enter Banked, later it is a refusal (R188, Table 12.6). -/
def State.holdAck (s : State) (p : Nat) (bs : List Byte) : State :=
  let x := s.pipe p
  if !(s.port p).holdOut || bodyHalf bs 2 != s.get (Reg.PIPE_POS_FRAME p) % 65536 then s
  else
    let s := s.setPort p { s.port p with holdOut := false, heldFrame := bodyByte bs 2 }
    if x.prefetched then s.refuseHold p else s.modPipe p fun t => { t with holdAck := true }

/-- HOLD_ACK (R188). -/
def execHoldAck (p seq : Nat) (bs : List Byte) (crc : Nat) (s : State) : Host.Outcome State Fault Refusal :=
  done (s.fresh.when (p < 12) fun s => s.bcMessage p 4 seq bs crc fun s => s.holdAck p bs)

/-- HOLD_NAK for the frame of the HOLD outstanding is a refusal (R188). -/
def State.holdNak (s : State) (p : Nat) (bs : List Byte) : State :=
  s.when ((s.port p).holdOut && bodyHalf bs 2 == s.get (Reg.PIPE_POS_FRAME p) % 65536) fun s => s.refuseHold p

/-- HOLD_NAK (R188). -/
def execHoldNak (p seq : Nat) (bs : List Byte) (crc : Nat) (s : State) : Host.Outcome State Fault Refusal :=
  done (s.fresh.when (p < 12) fun s => s.bcMessage p 5 seq bs crc fun s => s.holdNak p bs)

/-- HELD_LOST: taken as HOLD_NAK while HOLD is outstanding, an exit trigger while Banked (R190, Table 12.6). -/
def State.heldLost (s : State) (p : Nat) : State := if (s.port p).holdOut then s.refuseHold p else s.bankExit p

/-- HELD_LOST (R319). -/
def execHeldLost (p seq : Nat) (bs : List Byte) (crc : Nat) (s : State) : Host.Outcome State Fault Refusal :=
  done (s.fresh.when (p < 12) fun s => s.bcMessage p 7 seq bs crc fun s => s.heldLost p)

/-- EQ_REQ: one step of a transmit tap, never beyond its limit, answered with EQ_ACK (R311). (DEDUCED, log 1205.) -/
def State.eqReq (s : State) (p : Nat) (bs : List Byte) : State :=
  let lane := bodyByte bs 2
  let tap := bodyByte bs 3
  let f : FRef := match lane, tap with
    | 0, 1 => Reg.CG_EQ_0_PRE p
    | 0, _ => Reg.CG_EQ_0_POST p
    | _, 1 => Reg.CG_EQ_1_PRE p
    | _, _ => Reg.CG_EQ_1_POST p
  let max := if tap = 1 then 15 else 31
  let v : Int := s.get f
  let n := v + sext (bodyByte bs 4) 8
  let lim := n < 0 || (max : Int) < n
  if 1 < lane ∨ tap = 0 ∨ 2 < tap then s
  else
    let s := if lim then s else s.put f n.toNat
    s.emit (.cgBlock p (0xE1 + lane * 2 ^ 8 + bodyByte bs 5 * 2 ^ 16 + b2n lim * 2 ^ 24))

/-- EQ_REQ is heard in EQ and in ACTIVE (Table 12.4). -/
def State.eqReqMessage (s : State) (p : Nat) (bs : List Byte) : State :=
  if s.get (Reg.CG_STATUS_STATE p) = 4 ∨ s.get (Reg.CG_STATUS_STATE p) = 6 then s.eqReq p bs else s

/-- CG_EQ_REQ (R311). -/
def execCgEqReq (p seq : Nat) (bs : List Byte) (crc : Nat) (s : State) : Host.Outcome State Fault Refusal :=
  done (s.fresh.when (p < 12) fun s => s.bcMessage p 6 seq bs crc fun s => s.eqReqMessage p bs)

/-- A message acts by its TYPE; an undefined one is ignored (R314). -/
def State.bcAct (s : State) (p : Nat) (m : List Byte) : State :=
  let bs := m.drop 2
  match (m.headD 0#8).toNat with
  | 1 => s.capsMessage p bs
  | 2 => s.statusMessage p bs
  | 3 => s.crcMessage p bs
  | 4 => s.holdAck p bs
  | 5 => s.holdNak p bs
  | 6 => s.eqReqMessage p bs
  | 7 => s.heldLost p
  | _ => s

/-- CG_BC_CRC (R313, R315): 16 bytes reach the port; where bytes 14 and 15 are not their CRC the message is discarded. -/
def execCgBcCrc (p : Nat) (bs : List Byte) (s : State) : Host.Outcome State Fault Refusal :=
  done (s.fresh.when (p < 12) fun s =>
    let m := padTo (bs.take 14) 14
    s.bcHear p m (leNat ((bs.drop 14).take 2)) fun s => s.bcAct p m)

/-- The back-channel is silent for 200 µs in a state after DETECT (R315): the port retrains from CLOCK (R312). -/
def State.bcLoss (s : State) (p : Nat) : State :=
  let st := s.get (Reg.CG_STATUS_STATE p)
  if st < 2 then s
  else
    (s.fault .CG_BC_LOSS).cgRetrain p false

/-- CG_BC_LOSS (R315). -/
def execCgBcLoss (p : Nat) (s : State) : Host.Outcome State Fault Refusal := done (s.fresh.when (p < 12) fun s => s.bcLoss p)

/-- LINE_ERR increases reach THR within the window of 2^WIN orbits (R321). -/
def State.lineThr (s : State) (p : Nat) : State :=
  let thr := s.get (Reg.CG_CFG_THR p)
  let n := ((s.port p).errs.filter fun t => s.orbit.orbits < t + 2 ^ s.get (Reg.CG_CFG_WIN p)).length
  if thr = 0 ∨ n < thr then s
  else
    let inj := (s.port p).thrInj
    ((s.setPort p { s.port p with errs := [], thrInj := false }).fault .CG_LINE_THR inj).cgRetrain p inj

/-- CG_LINE_THR (R321). -/
def execCgLineThr (p : Nat) (s : State) : Host.Outcome State Fault Refusal := done (s.fresh.when (p < 12) fun s => s.lineThr p)

/-- CG_INJ (R321): the bits stay armed until they are used. (DEDUCED, log 1112.) -/
def execCgInj (o : Origin) (p : Nat) (v : Word) (s : State) : Host.Outcome State Fault Refusal :=
  done (s.fresh.when (p < 12) fun s => s.written o (Reg.a_CG_INJ p) v fun row _ w s => s.storeArm (Reg.a_CG_INJ p) row w)

end Sys2Proof.Machine
end

