-- ==== Sys2Proof/Machine/Clock.lean ====
section
/-! DEFINITION. The commands of clock synthesis (chapter 13): the end, the failure and the loss of a lock, the frequency guard, the loss of
REFCLK, restart and injection. -/
namespace Sys2Proof.Machine

/-- Records the last clock fault (CLK_ERR_INFO) and reports it. -/
def State.clkFault (s : State) (f : FaultId) (n i : Nat) (inj : Bool) : State :=
  ((s.put Reg.CLK_ERR_INFO_PLL i).put Reg.CLK_ERR_INFO_FAULT n).fault f inj

/-- Uses an armed injection of the lock checker (`bitLock`) or of the guard of PLL `i` (R338). (DEDUCED, log 1305.) -/
def State.takeClkInj (s : State) (f : FRef) (i : Nat) : State × Bool :=
  if s.get Reg.CLK_INJ_PLL = i then s.takeInj f else (s, false)

/-- Whether PLL `i` is in a lock. (DEDUCED, log 1303.) -/
def State.pllLocking (s : State) (i : Nat) : Bool := 1 ≤ s.get (Reg.PLL_STATUS_STATE i) && s.get (Reg.PLL_STATUS_STATE i) ≤ 5

/-- A pipe stops for the failure of its PLL: R186 steps 3 and 4, its committed state and reservations kept (R338). -/
def State.pixFail (s : State) (i : Nat) (f : FaultId) (n : Nat) (inj : Bool) : State :=
  let s := s.clkFault f n i inj
  let s := s.setPll i { s.pll i with failed := true, retry := false, planned := false }
  let s := s.cancelHold i
  let s := (s.seqBacklight i false).setMode i .stopping
  let s := s.modPipe i fun x => { x with wakeNext := false, wakeLate := false, blOnIn := none, startAt := none }
  s.stopOutput i

/-- A repeated lock of a pixel PLL starts; its pipe goes into the relock gap (R338, R339). -/
def State.pixRetry (s : State) (i : Nat) (inj : Bool) : State :=
  let s := s.setPll i { s.pll i with retry := true, retryInj := inj }
  let s := s.startLock i false
  match s.mode i with
  | .stopped | .starting | .relock => s.modPipe i fun x => { x with pllOk := false, seqStep := min 2 x.seqStep }
  | .stopping => s
  | _ => s.lossRelock i

/-- The CAGAN PLL has locked again: every port runs a full training (R338). -/
def State.retrainPorts (s : State) (inj : Bool) : State :=
  forAll allPipes (fun p s => if s.get (Reg.CG_STATUS_STATE p) = 0 then s else s.cgFullTrain p) (s.clkFault .CLK_CG_RELOCK 4 14 inj)

/-- A lock completes (R328): the figures that the search and the count measured are free values; a repeated lock is reported; with the lock
of the Hearth PLL a cold Hearth begins to initialise (R84). (DEDUCED, log 1206; DEDUCED, log 1301.) (DEDUCED, log 1306.) -/
def State.lockDone (s : State) (i : Nat) : State :=
  if 15 ≤ i || !s.pllLocking i then s
  else
    let retry := (s.pll i).retry
    let inj := (s.pll i).retryInj
    let s := s.put (Reg.PLL_STATUS_BAND i) (Config.pllBand s.freeCtr % 64)
    let s := s.put (Reg.PLL_STATUS_CLAMPED i) (Config.pllClamped s.freeCtr % 2)
    let s := (s.put (Reg.PLL_MEAS_HZ i) (Config.pllMeas s.freeCtr % 4294968 * 1000)).tick
    let s := s.setPll i { s.pll i with planned := false, retry := false, retryInj := false }
    let s := s.setPllState i 6
    if i < 12 then
      let s := s.modPipe i fun x => { x with pllOk := true }
      if retry then s.clkFault .CLK_PIX_RELOCK 1 i inj else s
    else if i = 14 && retry then s.retrainPorts inj
    else s.when (i == 13 && !s.hmReady) fun s => s.put Reg.HM_STATUS_INIT_BUSY 1

/-- A PLL does not lock (R328, R338). -/
def State.lockFail (s : State) (i : Nat) : State :=
  if 15 ≤ i || !s.pllLocking i then s
  else
    let (s, inj) := s.takeClkInj Reg.CLK_INJ_LOCK i
    if i < 12 then if (s.pll i).retry then s.pixFail i .CLK_PIX_FAIL 2 inj else s.pixRetry i inj
    else if i = 12 then s.clkFault .CLK_CORE_LOSS 6 i inj
    else if i = 13 then s.clkFault .CLK_HM_LOSS 7 i inj
    else if (s.pll i).retry then s.clkFault .CLK_CG_FAIL 5 i inj
    else (s.setPll i { s.pll i with retry := true, retryInj := inj }).startLock i false

/-- PLL_LOCK_FAIL (R328). -/
def execPllLockFail (i : Nat) (s : State) : Host.Outcome State Fault Refusal := done (s.fresh.when (i < 15) fun s => s.lockFail i)

/-- LOCKMON stays low for at least 1 ms after an unplanned loss of a PLL that it monitors (R336). -/
def State.holdLockmon (s : State) (i : Nat) : State :=
  if bit (s.get Reg.CLK_LOCKMON_MASK) i then { s with clk := { s.clk with lockmonHold := true } } else s

/-- A locked PLL loses lock (R337, Table 13.3): a pixel PLL and the CAGAN PLL lock once more; a second loss of a pixel PLL within 1 s
stops its pipe. (DEDUCED, log 1303.) -/
def State.lossOfLock (s : State) (i : Nat) : State :=
  if 15 ≤ i || !s.pllLocked i then s
  else
    let (s, inj) := s.takeClkInj Reg.CLK_INJ_LOCK i
    let near : Bool := match (s.pll i).lostAt with
      | some t => s.now < t + 1000 * msNs
      | none => false
    let s := (s.setPll i { s.pll i with lostAt := some s.now }).holdLockmon i
    if i < 12 then if near then s.pixFail i .CLK_PIX_FAIL 2 inj else s.pixRetry i inj
    else
      let s := s.setPllState i 4
      if i = 12 then s.clkFault .CLK_CORE_LOSS 6 i inj
      else if i = 13 then s.clkFault .CLK_HM_LOSS 7 i inj
      else (s.setPll i { s.pll i with retry := true, retryInj := inj }).startLock i false

/-- PLL_LOSS_OF_LOCK (R337). -/
def execPllLossOfLock (i : Nat) (s : State) : Host.Outcome State Fault Refusal := done (s.fresh.when (i < 15) fun s => s.lossOfLock i)

/-- The frequency guard of a PLL trips (R337, Table 13.3): the output switches to the holding clock. -/
def State.guardTrip (s : State) (i : Nat) : State :=
  if 15 ≤ i || !s.pllLocked i then s
  else
    let (s, inj) := s.takeClkInj Reg.CLK_INJ_GUARD i
    let s := s.holdLockmon i
    if i < 12 then s.pixFail i .CLK_GUARD_PIX 3 inj else (s.setPllState i 4).clkFault .CLK_GUARD_INT 8 i inj

/-- FREQ_GUARD_TRIP (R337). -/
def execFreqGuardTrip (i : Nat) (s : State) : Host.Outcome State Fault Refusal := done (s.fresh.when (i < 15) fun s => s.guardTrip i)

/-- REFCLK is lost (R340): every PLL that runs enters holdover, and the safe state follows. -/
def State.refLoss (s : State) : State :=
  if s.clk.refLost then s
  else
    let (s, inj) := s.takeInj Reg.CLK_INJ_REF
    let s := { s with clk := { s.clk with refLost := true } }
    let s := (s.put Reg.CLK_STATUS_REF_OK 0).put Reg.CLK_STATUS_HOLDOVER 1
    let s := forAll (rangeFrom 0 15) (fun i s => if s.get (Reg.PLL_STATUS_STATE i) = 0 then s else s.setPllState i 7) s
    s.clkFault .CLK_REF_LOSS 9 0 inj

/-- CLK_REF_LOSS (R340). -/
def execClkRefLoss (s : State) : Host.Outcome State Fault Refusal := done s.fresh.refLoss

/-- An accepted write of PLL_CTRL: with RESTART a pipe stopped by its PLL runs its start sequence once the fault status is clear
(R339). -/
def State.writePllCtrl (s : State) (i : Nat) (row : RegRow) (w : Nat) : State :=
  let s := s.storeRow (Reg.a_PLL_CTRL i) row w
  if bit w 2 && i < 12 && (s.pll i).failed && s.mode i == .stopped && s.cleared .CLK_PIX_FAIL && s.cleared .CLK_GUARD_PIX then
    let s := s.setPll i { s.pll i with failed := false, lostAt := none }
    if s.runShown i then (s.modPipe i fun x => { x with restart := true }).beginStart i else s.startPipe i
  else s

/-- PLL_RESTART: a write of PLL_CTRL (R339). -/
def execPllRestart (o : Origin) (i : Nat) (v : Word) (s : State) : Host.Outcome State Fault Refusal :=
  done (s.fresh.when (i < 15) fun s => s.written o (Reg.a_PLL_CTRL i) v fun row is w s => s.writePllCtrl (is.headD 0) row w)

/-- The clock checkers use what CLK_INJ has armed (R338): REF at once, LOCK on a PLL that is locked or locking, GUARD on one that is
locked; a bit armed for a PLL that is OFF stays armed. (DEDUCED, log 1305.) -/
def State.clkChecks (s : State) : State :=
  let i := s.get Reg.CLK_INJ_PLL
  let s := if s.is Reg.CLK_INJ_REF then s.refLoss else s
  let s := if s.is Reg.CLK_INJ_LOCK then (if s.pllLocked i then s.lossOfLock i else s.lockFail i) else s
  if s.is Reg.CLK_INJ_GUARD then s.guardTrip i else s

/-- PLL_LOCK_DONE (R328). An injection that waited for this PLL is used. -/
def execPllLockDone (i : Nat) (s : State) : Host.Outcome State Fault Refusal := done (s.fresh.when (i < 15) fun s => (s.lockDone i).clkChecks)

/-- An accepted write of CLK_INJ (R338); PLL 15 is ignored. (DEDUCED, log 1305.) -/
def State.writeClkInj (s : State) (row : RegRow) (w : Nat) : State :=
  let s := s.storeArm Reg.a_CLK_INJ row w
  (s.when (s.get Reg.CLK_INJ_PLL == 15) fun s => (s.put Reg.CLK_INJ_LOCK 0).put Reg.CLK_INJ_GUARD 0).clkChecks

/-- CLK_INJ (R338). -/
def execClkInj (o : Origin) (v : Word) (s : State) : Host.Outcome State Fault Refusal :=
  done (s.fresh.written o Reg.a_CLK_INJ v fun row _ w s => s.writeClkInj row w)

/-- LOCKMON_HOLD_EXPIRY (R336). -/
def execLockmonHoldExpiry (s : State) : Host.Outcome State Fault Refusal :=
  let s := s.fresh
  done { s with clk := { s.clk with lockmonHold := false } }

end Sys2Proof.Machine
end

