-- ==== Sys2Proof/Machine/EncRate.lean ====
section
/-! DEFINITION. The coding of a picture (R254, R264–R267): what its stream declares, the search window, regions of interest, and the rate
control, which gives every CTU its QP or has it skip-coded. The bits of a CTU and the proposals of the search come with the command. -/
namespace Sys2Proof.Machine

/-! ### What the stream declares (R254) -/

/-- Table A.8 of H.265: general_level_idc, MaxLumaPs and MaxLumaSr (Main tier). (PRESUMED, log 1005.) -/
def levels : List (Nat × Nat × Nat) :=
  [(30, 36864, 552960), (60, 122880, 3686400), (63, 245760, 7372800), (90, 552960, 16588800), (93, 983040, 33177600),
   (120, 2228224, 66846720), (123, 2228224, 133693440), (150, 8912896, 267386880), (153, 8912896, 534773760), (156, 8912896, 1069547520),
   (180, 35651584, 1069547520), (183, 35651584, 2139095040), (186, 35651584, 4278190080)]

/-- What the parameter sets declare of a picture of `w` by `h` at depth `d`, recorded every `div` frames at `fn / fd` millihertz (R254). -/
def streamParams (w h d csc fn fd div : Nat) : StreamParams :=
  let y := pad8 w * pad8 h
  let level := ((levels.find? fun l => y ≤ l.2.1 && y * fn ≤ l.2.2 * 1000 * fd * div).map fun l => l.1).getD 186
  { profile := if d = 8 then 1 else 2, level, w := pad8 w, h := pad8 h, cropR := pad8 w - w, cropB := pad8 h - h, depth := d, csc }

/-- The fields of `StreamParams` in order. -/
def StreamParams.fields (q : StreamParams) : List Nat := [q.profile, q.level, q.w, q.h, q.cropR, q.cropB, q.depth, q.csc]

/-! ### CTUs and the search window (R264) -/

/-- CTUs in a row, and rows, of a picture. -/
def ctuCols (w : Nat) : Nat := cdiv w 32

/-- The first and the last sample that a block of `n` samples at `x` uses along one axis: `v` is the vector there in units of 1 / `u` sample,
with `lo` taps before and `hi` after the block where it is fractional. -/
def refSpan (x n u lo hi : Nat) (v : Int) : Int × Int :=
  let a : Int := x + v / (u : Int)
  if v % (u : Int) = 0 then (a, a + n - 1) else (a - lo, a + n - 1 + hi)

/-- Whether the samples of a block along one axis lie in the window of a CTU at `x0`: luma from `x0 - lo` to `x0 + hi`, chroma the
co-located half. -/
def axisIn (x0 x n : Nat) (lo hi : Int) (v : Int) : Bool :=
  let l := refSpan x n 4 3 4 v
  let c := refSpan (x / 2) (n / 2) 8 1 2 v
  (x0 : Int) - lo ≤ l.1 && l.2 ≤ x0 + hi && (x0 : Int) / 2 - lo / 2 ≤ c.1 && c.2 ≤ x0 / 2 + hi / 2

/-- Whether every reference sample that a prediction unit uses with vector `mv` lies in the window of the CTU at (x0, y0) (R264): luma columns
x0 − 192 to x0 + 223 and rows y0 − 96 to y0 + 127, and the co-located chroma. -/
def inWindow (x0 y0 : Nat) (u : PuFact) (mv : Int × Int) : Bool :=
  axisIn x0 u.x u.w 192 223 mv.1 && axisIn y0 u.y u.h 96 127 mv.2

/-- The prediction units of a CTU at (x0, y0): each takes the first proposal whose reference samples lie in the window; one without such a
proposal is not predicted from the reference (R264). (DEDUCED, log 1001.) -/
def choosePus (x0 y0 : Nat) (us : List PuFact) : List Pu :=
  us.filterMap fun u =>
    if u.x < x0 ∨ u.y < y0 ∨ x0 + 32 < u.x + u.w ∨ y0 + 32 < u.y + u.h then none
    else (u.cands.find? fun mv => inWindow x0 y0 u mv).map fun mv => ⟨u.x, u.y, u.w, u.h, mv⟩

/-- The reference samples that enter the window before the CTU in column `j` of row `r` is coded, as luma columns and rows from and to:
the first window of a row, then a column of 32 (R264). Positions outside the picture are replicated on chip. -/
def slide (w h r j : Nat) : (Nat × Nat) × (Nat × Nat) :=
  ((if j = 0 then 0 else min w (32 * j + 192), min w (32 * j + 224)), (32 * r - 96, min h (32 * r + 128)))

/-- The words of a picture of stride `n` bytes, `q` bytes a sample, that hold the samples of an area, luma and chroma. -/
def areaWords (luma chroma : List Nat) (n q : Nat) (a : (Nat × Nat) × (Nat × Nat)) : List Nat :=
  let cols := a.1.2 - a.1.1
  let rows := fun (cs : List Nat) (y k : Nat) => (rangeFrom y k).flatMap fun y => cellsWords cs (y * n + a.1.1 * q) (cols * q)
  rows luma a.2.1 (a.2.2 - a.2.1) ++ rows chroma (a.2.1 / 2) ((a.2.2 + 1) / 2 - a.2.1 / 2)

/-- The words that the window takes from the reference picture, CTU by CTU (R264). -/
def windowWords (luma chroma : List Nat) (n q w h : Nat) : List Nat :=
  (rangeFrom 0 (cdiv h 32)).flatMap fun r => (rangeFrom 0 (ctuCols w)).flatMap fun j => areaWords luma chroma n q (slide w h r j)

/-! ### Regions of interest (R265) -/

/-- Whether the CTU at (x0, y0) of a picture of `w` by `h` has a pixel in a region. -/
def Roi.covers (a : Roi) (w h x0 y0 : Nat) : Bool :=
  max a.x x0 < min (a.x + a.w) (min w (x0 + 32)) && max a.y y0 < min (a.y + a.h) (min h (y0 + 32))

/-- The QP of an ROI CTU in a row of QP `qr` (R265): the offset of the first covering region, the smallest cap of them all. -/
def roiQp (rs : List Roi) (w h x0 y0 qr : Nat) : Option Nat :=
  match rs.filter fun a => a.covers w h x0 y0 with
  | [] => none
  | a :: as => some (min ((clampI 0 51 ((qr : Int) + a.off)).toNat) (as.foldl (fun m b => min m b.cap) a.cap))

/-- The QP of a CTU that the session's regions or those of Beacon make an ROI CTU: the lower one where both do. (DEDUCED, log 1006.) -/
def EncPlan.qpAt (p : EncPlan) (w h x0 y0 qr : Nat) : Option Nat :=
  match roiQp p.rois w h x0 y0 qr, roiQp p.bcn w h x0 y0 qr with
  | some a, some b => some (min a b)
  | some a, none => some a
  | none, b => b

/-! ### Rate control (R266) -/

/-- round(6 × log2(a / b)) limited to ± m: the number of thresholds k, 1 − m to m, with (a / b)^12 ≥ 2^(2k − 1), less m; log2 of 0 is −∞.
(DEDUCED, log 1001.) -/
def qpStep (m a b : Nat) : Int :=
  let at_ := fun k : Int => if 0 < k then b ^ 12 * 2 ^ (2 * k - 1).toNat ≤ a ^ 12 else b ^ 12 ≤ a ^ 12 * 2 ^ (1 - 2 * k).toNat
  (((rangeFrom 1 (2 * m)).map fun (n : Nat) => (n : Int) - (m : Int)).filter fun k => at_ k).length - m

/-- The largest number whose sixth power is at most `n`. -/
def root6 (n : Nat) : Nat :=
  (rangeFrom 0 (Nat.log2 n / 6 + 1)).foldr (fun k a => if (a + 2 ^ k) ^ 6 ≤ n then a + 2 ^ k else a) 0

/-- A cost of `b` bits scaled by 2^(d / 6), rounded down (R266). (DESIGN CHOICE, log 1007.) -/
def scaleBits (b : Nat) (d : Int) : Nat := if 0 ≤ d then root6 (b ^ 6 * 2 ^ d.toNat) else root6 (b ^ 6 / 2 ^ (-d).toNat)

/-- What the rate control of a picture works with: its plan and size, whether it is the P picture of a Banked frame, the CTUs of the previous
picture, and c[r]. -/
structure Rating where
  plan : EncPlan
  w : Nat
  h : Nat
  held : Bool
  prev : List CtuCode
  cost : List Nat

/-- The place of CTU `k`. -/
def Rating.at_ (t : Rating) (k : Nat) : Nat × Nat := (32 * (k % ctuCols t.w), 32 * (k / ctuCols t.w))

/-- The CTUs of a picture. -/
def Rating.count (t : Rating) : Nat := ctuCols t.w * cdiv t.h 32

/-- The QP of CTU `k` as an ROI CTU in a row of QP `qr`. -/
def Rating.roi (t : Rating) (k qr : Nat) : Option Nat := t.plan.qpAt t.w t.h (t.at_ k).1 (t.at_ k).2 qr

/-- The estimated cost of CTU `k` at QP `q`: its bits in the previous picture, scaled; a CTU that was skip-coded counts as QP 51 then, and one
without a previous picture as 0 (R266). (DESIGN CHOICE, log 1007.) -/
def Rating.est (t : Rating) (k q : Nat) : Nat :=
  match t.prev[k]? with
  | some c => scaleBits c.bits ((c.qp.getD 51 : Nat) - (q : Int))
  | none => 0

/-- est(r): CTUs from row `r` on, each at the QP that it takes in a row of QP `qr` (R266). (DEDUCED, log 1007.) -/
def Rating.estRows (t : Rating) (r qr : Nat) : Nat :=
  let k := r * ctuCols t.w
  sumNat ((rangeFrom k (t.count - k)).map fun k => t.est k ((t.roi k qr).getD qr))

/-- reserve(k): the estimate for the ROI CTUs after `k` (R266). -/
def Rating.reserve (t : Rating) (k qr : Nat) : Nat :=
  sumNat ((rangeFrom (k + 1) (t.count - (k + 1))).map fun j => match t.roi j qr with
    | some q => t.est j q
    | none => 0)

/-- qr of row `r` after `spent` bits (R266). -/
def Rating.rowQp (t : Rating) (r spent : Nat) : Nat :=
  let part := t.plan.f * sumNat (t.cost.take r)
  if part = 0 then t.plan.qf
  else (clampI (t.plan.minQp : Nat) 51 ((t.plan.qf : Int) + qpStep 6 (spent * sumNat t.cost) part)).toNat

/-- The rate control under way: the mode (0 NORMAL, 1 CLAMP, 2 SKIP), the bits spent, the CTUs coded. -/
structure Coding where
  mode : Nat := 0
  spent : Nat := 0
  ctus : List CtuCode := []

/-- CTU `k` in a row of QP `qr` is coded, `f` as the coder codes it (R266). -/
def Rating.ctu (t : Rating) (qr : Nat) (c : Coding) (k : Nat) (f : CtuFact) : Coding :=
  let roi := t.roi k qr
  let skip := t.held || (roi.isNone && (c.mode == 2 || (c.mode == 1 && t.plan.h < c.spent + t.reserve k qr + t.est k 51)))
  let qp := if skip then none else some (roi.getD (if c.mode = 0 then qr else 51))
  let pus := if skip || t.plan.idr then [] else choosePus (t.at_ k).1 (t.at_ k).2 f.pus
  { mode := if skip && !t.held then 2 else c.mode, spent := c.spent + f.bits, ctus := c.ctus ++ [⟨qp, f.bits, pus⟩] }

/-- Row `r` is coded: CLAMP begins where the estimate passes H (R266). (DESIGN CHOICE, log 1007.) -/
def Rating.row (t : Rating) (fs : List CtuFact) (c : Coding) (r : Nat) : Coding :=
  let qr := t.rowQp r c.spent
  let c := if c.mode = 0 ∧ t.held = false ∧ t.plan.h < c.spent + t.estRows r qr then { c with mode := 1 } else c
  (rangeFrom (r * ctuCols t.w) (ctuCols t.w)).foldl (fun c k => t.ctu qr c k (fs.getD k ⟨0, []⟩)) c

/-- A whole picture is coded (R266). -/
def Rating.code (t : Rating) (fs : List CtuFact) : Coding := (rangeFrom 0 (cdiv t.h 32)).foldl (fun c r => t.row fs c r) {}

end Sys2Proof.Machine
end

