-- ==== Sys2Proof/Machine/Encoder.lean ====
section
/-! DEFINITION. The encoder and Witness (chapter 10): sessions and their cells, capture with its colour conversion, the coding of a picture, the
Witness SEI, output records, drops, the watchdog and injection. The bytes of a slice come with the command. -/
namespace Sys2Proof.Machine

/-! ### Sessions (R256–R258) -/

/-- Records the last encoder fault (ENC_ERR_INFO) and reports it. -/
def State.encFault (s : State) (f : FaultId) (n i : Nat) (inj : Bool) : State :=
  ((s.put Reg.ENC_ERR_INFO_SESSION i).put Reg.ENC_ERR_INFO_FAULT n).fault f inj

/-- The parameter reasons of Table 10.2, first one first. -/
def State.encReason (s : State) (i : Nat) : Option Nat :=
  let p := s.get (Reg.ES_CFG_PIPE i)
  let w := s.get (Reg.ES_GEOM_W i)
  let h := s.get (Reg.ES_GEOM_H i)
  if s.get (Reg.ES_STATUS_STATE i) ≠ 0 ∨ s.is Reg.ENC_STATUS_FENCED = true then some 1
  else if 11 < p || (s.openEnc.any fun j => j != i && s.get (Reg.ES_CFG_PIPE j) == p) then some 2
  else if w < 64 ∨ 7680 < w ∨ w % 2 = 1 ∨ h < 16 ∨ 2880 < h then some 3
  else if s.get (Reg.ES_CFG_CSC i) = 3 ∨ s.get (Reg.ES_CFG_TAP i) = 3 then some 4
  else if s.get (Reg.ES_OUT_CELLS i) < 4 then some 5
  else none

/-- The planes that a session reserves, in bytes: three pictures and the output queue (R257). -/
def State.encPlanes (s : State) (i : Nat) : List Nat :=
  let q := if s.is (Reg.ES_CFG_DEPTH i) then 2 else 1
  let y := 32 * cdiv (s.get (Reg.ES_GEOM_W i)) 32 * (32 * cdiv (s.get (Reg.ES_GEOM_H i)) 32) * q
  [y, y / 2, y, y / 2, y, y / 2, 65536 * s.get (Reg.ES_OUT_CELLS i)]

/-- OPEN (R256): the result code, the detail, and on ACCEPT the reservation and RUNNING. (DESIGN CHOICE, log 914.) -/
def State.encOpen (s : State) (i : Nat) : State × Nat × Nat :=
  match s.encReason i with
  | some r => (s, 1, r)
  | none =>
    let f := s.figures s.orbit.sheds (s.world [])
    let need := f.cells + s.encCells i
    if f.cellsAvail < need then (s, 3, need - f.cellsAvail)
    else match s.placePlanes s.heldCells (s.encPlanes i) with
      | none => (s, 3, s.cellsShort (s.encPlanes i))
      | some cells =>
        let s := { s with hm := { s.hm with codecCells := SMap.set [] s.hm.codecCells (32 + i) cells.flatten } }
        let b := (s.eses i).busy
        ((((s.setEses i { busy := b }).put (Reg.ES_STATUS_STATE i) 1).refreshEnc).refreshAdm, 0, 0)

/-! ### The cells of a session (R257) -/

/-- Bytes of a sample at the depth of session `i`. -/
def State.encQ (s : State) (i : Nat) : Nat := if s.is (Reg.ES_CFG_DEPTH i) then 2 else 1

/-- The bytes from a row of a session's picture to the next. -/
def State.encStride (s : State) (i : Nat) : Nat := 32 * cdiv (s.get (Reg.ES_GEOM_W i)) 32 * s.encQ i

/-- The cells of plane `pl` of session `i`: luma and chroma of the two capture frames (0 to 3) and of the reference picture (4, 5), and the output
queue (6). (DEDUCED, log 1008.) -/
def State.encPlane (s : State) (i pl : Nat) : List Nat :=
  let ns := (s.encPlanes i).map fun z => cdiv z 65536
  ((SMap.get [] s.hm.codecCells (32 + i)).drop (sumNat (ns.take pl))).take (ns.getD pl 0)

/-- Writes a row of samples into plane `pl` of session `i`. -/
def State.encRow (s : State) (i pl y : Nat) (vs : List Nat) : State :=
  s.cellsWrite (s.encPlane i pl) (y * s.encStride i) (vs.flatMap fun v => leBytes (s.encQ i) v)

/-- The bytes that the output queue holds. -/
def EncSes.queued (x : EncSes) : Nat := sumNat x.recs - x.part

/-- The size of the output queue of session `i` (R269). -/
def State.encRing (s : State) (i : Nat) : Nat := s.get (Reg.ES_OUT_CELLS i) * 65536

/-- The runs of `n` bytes of a ring of `z` bytes from place `a`, as (place, length). -/
def ringRuns (z a n : Nat) : List (Nat × Nat) := if a + n ≤ z then [(a, n)] else [(a, z - a), (0, n - (z - a))]

/-- Records enter the output queue of session `i` (R269). -/
def State.encPush (s : State) (i : Nat) (rs : List (List Byte)) : State :=
  let x := s.eses i
  let z := s.encRing i
  let bs := rs.flatten
  let a := (x.head + x.queued) % max 1 z
  let s := s.setEses i { x with recs := x.recs ++ rs.map List.length }
  (ringRuns z a bs.length).foldl (fun (t : State × List Byte) r => (t.1.cellsWrite (s.encPlane i 6) r.1 (t.2.take r.2), t.2.drop r.2)) (s, bs) |>.1

/-- Brings ES_OUT_LEVEL up to date (R269). -/
def State.encLevel (s : State) (i : Nat) : State :=
  s.put (Reg.ES_OUT_LEVEL_BYTES i) (s.eses i).queued

/-- A DRAINING session becomes CLOSED when nothing captured is left to code and its output queue is empty (R258). -/
def State.encDrained (s : State) (i : Nat) : State :=
  let x := s.eses i
  if s.get (Reg.ES_STATUS_STATE i) = 2 && x.cap.isNone && x.frames.isEmpty && x.coding.isNone && x.recs.isEmpty then
    ((s.closeEnc i).refreshEnc).refreshAdm
  else s

/-- CLOSE and FORCE_IDR (R258), which a CLOSED session refuses with reason 0x01. CLOSE ends a capture in progress, which is no drop.
(DEDUCED, log 1009.) -/
def State.encCommand (s : State) (i cmd : Nat) : State × Nat × Nat :=
  if cmd = 1 then s.encOpen i
  else if s.get (Reg.ES_STATUS_STATE i) = 0 then (s, 1, 1)
  else if cmd = 2 then (((s.setEses i { s.eses i with cap := none }).put (Reg.ES_STATUS_STATE i) 2).encDrained i, 0, 0)
  else (s.setEses i { s.eses i with forceIdr := true }, 0, 0)

/-- An accepted write of ES_CMD (R256): discarded with OVERRUN while BUSY; the result waits to be latched. (DEDUCED, log 911.) -/
def State.writeEsCmd (s : State) (i cmd : Nat) : State :=
  if cmd = 0 ∨ 3 < cmd then s
  else if s.is (Reg.ES_RESULT_BUSY i) then s.put (Reg.ES_RESULT_OVERRUN i) 1
  else
    let s := (s.put (Reg.ES_RESULT_BUSY i) 1).put (Reg.ES_RESULT_VALID i) 0
    let (s, code, detail) := s.encCommand i cmd
    s.setEses i { s.eses i with busy := some (code, detail), openBy := if cmd = 1 ∧ code = 0 then s.owner unitEncoder else 0 }

/-- A write of an encoder command by a requester. -/
def State.encCmdWrite (s : State) (o : Origin) (i cmd : Nat) : State :=
  s.written o (Reg.a_ES_CMD i) (BitVec.ofNat 32 cmd) fun _ is w s => s.writeEsCmd (is.headD 0) (bits w 2 0)

/-- ENC_OPEN (R256). -/
def execEncOpen (o : Origin) (i : Nat) (s : State) : Host.Outcome State Fault Refusal := done (s.fresh.when (i < 12) fun s => s.encCmdWrite o i 1)

/-- ENC_CLOSE (R258). -/
def execEncClose (o : Origin) (i : Nat) (s : State) : Host.Outcome State Fault Refusal := done (s.fresh.when (i < 12) fun s => s.encCmdWrite o i 2)

/-- FORCE_IDR (R258). -/
def execForceIdr (o : Origin) (i : Nat) (s : State) : Host.Outcome State Fault Refusal := done (s.fresh.when (i < 12) fun s => s.encCmdWrite o i 3)

/-- Whether an accepted OPEN of session `i` comes from a path that no longer owns the encoder (R256, check 3). (DEDUCED, log 910.) -/
def State.esLost (s : State) (i : Nat) : Bool := (s.eses i).openBy != 0 && (s.eses i).openBy != s.owner unitEncoder

/-- The result of an encoder command is latched (R256), with interrupt source 183; an OPEN whose path has lost the encoder is REJ_OWNER. -/
def State.latchEs (s : State) (i : Nat) : State :=
  match (s.eses i).busy with
  | none => s
  | some r =>
    let lost := s.esLost i
    let (code, detail) := if lost then (8, s.owner unitEncoder) else r
    let s := if lost then ((s.closeEnc i).refreshEnc).refreshAdm else s
    let s := s.setEses i { s.eses i with busy := none, openBy := 0 }
    let s := ((s.put (Reg.ES_RESULT_CODE i) code).put (Reg.ES_DETAIL_DETAIL i) detail).put (Reg.ES_RESULT_VALID i) 1
    ((s.put (Reg.ES_RESULT_BUSY i) 0).incr (Reg.ES_RESULT_SEQ i)).occur 183

/-- ES_RESULT_LATCH (R256). -/
def execEsResultLatch (i : Nat) (s : State) : Host.Outcome State Fault Refusal := done (s.fresh.when (i < 12) fun s => s.latchEs i)

/-! ### Drops (R262) -/

/-- Recorded frame `n` with its stamp is dropped for a reason of Table 10.3. -/
def State.encDrop (s : State) (i n stamp reason : Nat) : State :=
  let x := s.eses i
  let s := s.setEses i { x with drops := x.drops ++ [(n, stamp, reason)], dropsAu := x.dropsAu + 1 }
  let s := ((s.incr (Reg.ES_FRAMES_DROPPED i)).put (Reg.ES_STATUS_GAP i) 1).put (Reg.ES_STATUS_GAP_REASON i) reason
  s.record (164 + i) 0x41 i reason

/-! ### Capture (R259–R261) -/

/-- Kr and Kb in units of 1/10,000 (Table 04.4). -/
def lumaWeights (csc : Nat) : Nat × Nat := if csc = 0 then (2990, 1140) else if csc = 1 then (2126, 722) else (2627, 593)

/-- Y, Cb and Cr of a 12-bit pixel at session depth `d` (R260). -/
def witnessYcc (csc d r g b : Nat) : Nat × Nat × Nat :=
  let (kr, kb) := lumaWeights csc
  let num := kr * r + (10000 - kr - kb) * g + kb * b
  let dd := 4095 * 10000
  let sc := 2 ^ (d - 8)
  let y := (2 * sc * (16 * dd + 219 * num) + dd) / (2 * dd)
  let chroma := fun (c k : Nat) =>
    let e : Int := dd * 2 * (10000 - k)
    let x : Int := sc * (128 * e + 224 * 10000 * ((10000 * c : Nat) - (num : Int)))
    ((2 * x + e) / (2 * e)).toNat
  (y, chroma b kb, chroma r kr)

/-- A pixel at tap point `tap` taken to 12 bits (R260). -/
def tapTo12 (tap depth : Nat) (t : Taps) : Nat × Nat × Nat :=
  let w := fun v => if depth = 6 then widen6 v else if depth = 8 then widen8 v else widen10 v
  match tap with
  | 0 => (t.blend.r, t.blend.g, t.blend.b)
  | 1 => (t.colour.r, t.colour.g, t.colour.b)
  | _ => (w t.out.1, w t.out.2.1, w t.out.2.2)

/-- Adds neighbouring chroma values in pairs. -/
def pairUp : List (Nat × Nat) → List (Nat × Nat)
  | a :: b :: cs => (a.1 + b.1, a.2 + b.2) :: pairUp cs
  | [a] => [(2 * a.1, 2 * a.2)]
  | [] => []

/-- The samples of an emitted line at session depth `d`: Y, Cb and Cr of each pixel (R260). -/
def witnessSamples (csc d tap depth : Nat) (line : List Taps) : List (Nat × Nat × Nat) :=
  line.map fun t =>
    let v := tapTo12 tap depth t
    witnessYcc csc d v.1 v.2.1 v.2.2

/-- The chroma samples of a pair of lines from the sums of their pixel pairs: (a + b + c + e + 2) >> 2, Cb before Cr (R260). -/
def chromaRow (a b : List (Nat × Nat)) : List Nat :=
  (a.zip b).flatMap fun (e : (Nat × Nat) × (Nat × Nat)) => [(e.1.1 + e.2.1 + 2) / 4, (e.1.2 + e.2.2 + 2) / 4]

/-- Capture frame `k` of session `i` takes an emitted line of capture `c`: luma at once, chroma with the second line of a pair. -/
def State.captureLine (s : State) (i k : Nat) (c : CapFrame) (ycc : List (Nat × Nat × Nat)) : State × CapFrame :=
  let sums := pairUp (ycc.map fun v => v.2)
  let s := s.encRow i (2 * k) c.lines (ycc.map Prod.fst)
  let d := { c with lines := c.lines + 1 }
  if c.half.isEmpty then (s, { d with half := sums })
  else (s.encRow i (2 * k + 1) (c.lines / 2) (chromaRow c.half sums), { d with half := [] })

/-- The sessions that record pipe `p`. -/
def State.sessionsOn (s : State) (p : Nat) : List Nat :=
  encSessions.filter fun i => s.get (Reg.ES_STATUS_STATE i) == 1 && s.get (Reg.ES_CFG_PIPE i) == p

/-- The first capture frame of a session that holds no uncoded picture (R262). -/
def EncSes.freeSlot (x : EncSes) : Option Nat :=
  let used := (x.cap.toList ++ x.frames ++ x.coding.toList).filterMap fun c => c.slot
  [0, 1].find? fun k => !used.contains k

/-- A frame that session `i` records begins on pipe `p` (R259, R261, R262). -/
def State.captureBegin (s : State) (i p : Nat) : State :=
  let x := s.eses i
  let n := x.seq
  let s := s.setEses i { x with seq := n + 1 }
  let t := s.pipe p
  let w := s.shownGet p (Reg.TG_HACT_H_ACTIVE p)
  let h := s.shownGet p (Reg.TG_VACT_V_ACTIVE p)
  let banked := s.mode p == .banked || s.mode p == .bankExit
  if s.get Reg.PWR_GRANT_ENC < 3 then s.encDrop i n t.frameStamp 1
  else if !banked && x.freeSlot.isNone then s.encDrop i n t.frameStamp 3
  else if s.get (Reg.ES_GEOM_W i) < w ∨ s.get (Reg.ES_GEOM_H i) < h then s.encDrop i n t.frameStamp 5
  else
    s.setEses i { s.eses i with cap := some { seq := n, stamp := t.frameStamp, frame := s.get (Reg.PIPE_POS_FRAME p), w, h, banked,
                                              slot := if banked then none else x.freeSlot, refresh := (t.fNum, t.fDen),
                                              beacon := t.bcn.map fun b => (b.entry, b.img) } }

/-- A counted frame of pipe `p` begins: each of its sessions records every DIV-th frame (R259). -/
def State.witnessBoundary (s : State) (p : Nat) : State :=
  (s.sessionsOn p).foldl (fun s i =>
    let x := s.eses i
    let s := s.setEses i { x with divCount := (x.divCount + 1) % max 1 (s.get (Reg.ES_CFG_DIV i)) }
    if x.divCount ≠ 0 then s else s.captureBegin i p) s

/-- An emitted line reaches the captures of pipe `p`; a full capture buffer stops the capture (R262). -/
def State.witnessLine (s : State) (p : Nat) (line : List Taps) (full : Bool) : State :=
  (s.sessionsOn p).foldl (fun s i =>
    match (s.eses i).cap with
    | none => s
    | some c =>
      match c.slot with
      | none => s
      | some k =>
        if full then (s.setEses i { s.eses i with cap := none }).encDrop i c.seq c.stamp 2
        else
          let d := if s.is (Reg.ES_CFG_DEPTH i) then 10 else 8
          let (s, c) := s.captureLine i k c
            (witnessSamples (s.get (Reg.ES_CFG_CSC i)) d (s.get (Reg.ES_CFG_TAP i)) (depthBits (s.shownGet p (Reg.CL_CTRL_DEPTH p))) line)
          s.setEses i { s.eses i with cap := some c }) s

/-- A vector of 2-bit codes of the 64 tell-tales, in the byte layout of R150. -/
def State.ttVector (s : State) (f : Nat → FRef) : List Byte :=
  leBytes 16 ((rangeFrom 0 64).foldl (fun a i => a + s.get (f i) * 4 ^ i) 0)

/-- The fields of the SEI that the Witness close samples, with the fields that coding decides left 0 (Table 10.5). -/
def State.seiAtClose (s : State) (i p : Nat) (c : CapFrame) : List Byte :=
  let on := c.beacon.isSome
  let e := match c.beacon with
    | some b => b.1
    | none => 0xFF
  let flags := s.get (Reg.ES_CFG_TAP i) * 64 + b2n c.banked * 32 + b2n on * 2 + b2n (on && s.is (Reg.BE_E2E_FAILED e))
  let crc := if c.banked then ((s.entry e).kept.head?.map fun k => k.crc).getD 0 else s.get (Reg.BE_CRC_CRC e)
  [1#8, BitVec.ofNat 8 i, BitVec.ofNat 8 p, BitVec.ofNat 8 flags] ++ beBytes 6 c.stamp ++ beBytes 2 c.frame ++
    (if on then
      [BitVec.ofNat 8 e, BitVec.ofNat 8 (s.get (Reg.BE_E2E_LAST e)), BitVec.ofNat 8 (s.get (Reg.BE_E2E_FRAME e)), 0#8] ++
        beBytes 4 crc ++ beBytes 4 (s.get (Reg.BE_RX_CRC_CRC e)) ++ s.ttVector Reg.TT_STATE_SHOWN ++ s.ttVector Reg.TT_STATE_PROOF
    else 0xFF#8 :: List.replicate 43 0#8)

/-- The Witness close of pipe `p` (R259): a whole capture joins the pictures that wait to be coded. A last line without a partner is
paired with its replica (Table 10.1). -/
def State.witnessClose (s : State) (p : Nat) : State :=
  (s.sessionsOn p).foldl (fun s i =>
    match (s.eses i).cap with
    | none => s
    | some c =>
      if c.slot.isNone || c.h ≤ c.lines then
        let s := match c.slot, c.half with
          | some k, _ :: _ => s.encRow i (2 * k + 1) (c.lines / 2) (chromaRow c.half c.half)
          | _, _ => s
        let c := { c with sei := s.seiAtClose i p c, drops := (s.eses i).dropsAu, half := [] }
        let s := s.setEses i { s.eses i with cap := none, frames := (s.eses i).frames ++ [c] }
        { s with enc := { s.enc with order := s.enc.order ++ [i] } }
      else s) s

/-- WITNESS_CLOSE (R259). -/
def execWitnessClose (p : Nat) (s : State) : Host.Outcome State Fault Refusal := done (s.fresh.when (p < 12) fun s => s.witnessClose p)

/-! ### Coding (R255, R263, R266) -/

/-- The repayments due on the next picture (R266): the overshoots of the last 8 pictures, newest first, in eight parts each. -/
def EncSes.repay (x : EncSes) : Nat := sumNat ((x.overs.take 8).map fun o => cdiv o 8)

/-- The repayments still outstanding: an overshoot of `j` pictures ago has 8 − j parts left. -/
def EncSes.debt (x : EncSes) : Nat := sumNat ((x.overs.take 8).zipIdx.map fun e => cdiv e.1 8 * (8 - e.2))

/-- F of R266 for a picture at refresh `fn / fd` millihertz. -/
def State.encF (s : State) (i fn fd : Nat) : Nat :=
  let fb := if fn = 0 then 0 else s.get (Reg.ES_RATE_KBPS i) * 1000 * 1000 * fd * max 1 (s.get (Reg.ES_CFG_DIV i)) / fn
  max (fb / 4) (fb - (s.eses i).repay)

/-- H of R266. -/
def State.encH (s : State) (i f : Nat) : Nat := f * max 100 (s.get (Reg.ES_RC_CAP_PCT i)) / 100

/-- qf of R266. -/
def State.encQf (s : State) (i : Nat) : Nat :=
  let x := s.eses i
  if x.first then min 51 (s.get (Reg.ES_RC_INIT_QP i))
  else (clampI (min 51 (s.get (Reg.ES_RC_MIN_QP i)) : Nat) 51 ((x.qprev : Int) + qpStep 3 x.sprev x.fprev)).toNat

/-- The enabled regions of session `i` (R265, R274). -/
def State.encRois (s : State) (i : Nat) : List Roi :=
  ((rangeFrom 0 16).filter fun j => bit (s.get (Reg.ES_ROI_EN_EN i)) j).map fun j =>
    { x := s.get (Reg.ES_ROI_POS_X i j), y := s.get (Reg.ES_ROI_POS_Y i j), w := s.get (Reg.ES_ROI_SIZE_W i j), h := s.get (Reg.ES_ROI_SIZE_H i j),
      off := clampI (-51) 51 (sext (s.get (Reg.ES_ROI_QP_OFFSET i j)) 7), cap := min 51 (s.get (Reg.ES_ROI_QP_CAP i j)) }

/-- The Beacon regions of a recorded frame: the region latched for it, at offset −51 and cap BEACON_QP (R265). -/
def State.encBeacon (s : State) (i : Nat) (c : CapFrame) : List Roi :=
  match c.beacon with
  | none => []
  | some (e, img) => (regionOf img e c.w c.h).map fun r => ⟨r.x, r.y, r.w, r.h, -51, min 12 (s.get (Reg.ES_RC_BEACON_QP i))⟩

/-- Whether the picture of a recorded frame is IDR (R255). -/
def State.encIdr (s : State) (i : Nat) (c : CapFrame) : Bool :=
  let x := s.eses i
  x.first || max 1 (s.get (Reg.ES_CFG_GOP i)) ≤ x.sinceIdr || x.forceIdr || x.lastSize != some (c.w, c.h) || x.lastDropped

/-- What the start of a picture fixes (R265, R266, R274). -/
def State.encPlan (s : State) (i : Nat) (c : CapFrame) : EncPlan :=
  let f := s.encF i c.refresh.1 c.refresh.2
  { idr := s.encIdr i c, f, h := s.encH i f, qf := s.encQf i, minQp := min 51 (s.get (Reg.ES_RC_MIN_QP i)), rois := s.encRois i,
    bcn := s.encBeacon i c }

/-- The encoder is fenced: every session becomes CLOSED (R272). -/
def State.encFence (s : State) : State :=
  let s := s.openEnc.foldl (fun s i => s.closeEnc i) s
  (((s.put Reg.ENC_STATUS_FENCED 1).put Reg.ENC_STATUS_BUSY 0).refreshEnc).refreshAdm

/-- The session whose picture is being coded. -/
def State.encCoding (s : State) : Option Nat := encSessions.find? fun i => (s.eses i).coding.isSome

/-- The next captured picture starts (R263), not below 3 tokens (R271); an armed PAR strikes the check of its session state. -/
def State.encStart (s : State) : State :=
  if s.encCoding.isSome || s.get Reg.PWR_GRANT_ENC < 3 then s
  else match s.enc.order with
    | [] => s
    | i :: rest =>
      let (s, par) := s.takeInj Reg.ENC_INJ_PAR
      if par then (s.encFault .ENC_STATE_PAR 5 i true).encFence
      else match (s.eses i).frames with
        | [] => { s with enc := { s.enc with order := rest } }
        | c :: cs =>
          let plan := s.encPlan i c
          let s := s.setEses i { s.eses i with frames := cs, coding := some c, plan, forceIdr := false, qprev := plan.qf }
          let s := { s with enc := { s.enc with order := rest } }
          (s.put (Reg.ES_DEBT_LAST_QP i) plan.qf).put Reg.ENC_STATUS_BUSY 1

/-- ENC_PICTURE_START (R263). -/
def execEncPictureStart (s : State) : Host.Outcome State Fault Refusal := done s.fresh.encStart

/-! ### The Witness SEI and records (R268, R269) -/

/-- Emulation prevention of an Annex B NAL payload; `z` counts the zero bytes just written. -/
def emulate : Nat → List Byte → List Byte
  | _, [] => []
  | z, b :: bs =>
    if z = 2 ∧ b.toNat ≤ 3 then 3#8 :: b :: emulate (if b = 0#8 then 1 else 0) bs
    else b :: emulate (if b = 0#8 then z + 1 else 0) bs

/-- The UUID of the Witness SEI: the ASCII bytes of GMD-WITNESS-V1.0. -/
def witnessUuid : List Byte :=
  [0x47#8, 0x4D#8, 0x44#8, 0x2D#8, 0x57#8, 0x49#8, 0x54#8, 0x4E#8, 0x45#8, 0x53#8, 0x53#8, 0x2D#8, 0x56#8, 0x31#8, 0x2E#8, 0x30#8]

/-- The 62 bytes of the SEI with the fields that coding decides (Table 10.5). (DEDUCED, log 1002.) -/
def seiFinal (sei : List Byte) (flags drops : Nat) : List Byte :=
  let b := setAt sei 3 (BitVec.ofNat 8 ((sei.getD 3 0#8).toNat + flags)) ++ beBytes 2 drops
  b ++ beBytes 4 (crc32c b)

/-- The prefix SEI NAL unit as Annex B bytes: start code, header of type 39, payload type 5 of 78 bytes, the stop bit. -/
def seiNal (body : List Byte) : List Byte :=
  [0#8, 0#8, 0#8, 1#8, 0x4E#8, 0x01#8] ++ emulate 0 ([5#8, 78#8] ++ witnessUuid ++ body ++ [0x80#8])

/-- A record of Table 10.6, padded to a multiple of 16. -/
def witRecord (type i len stamp flags : Nat) (data : List Byte) : List Byte :=
  [0x57#8, 0x52#8, BitVec.ofNat 8 type, BitVec.ofNat 8 i] ++ leBytes 4 len ++ leBytes 6 stamp ++ leBytes 2 flags ++ data ++
    List.replicate (16 * cdiv data.length 16 - data.length) 0#8

/-- The drops of recorded frames before frame `n` that no GAP record reports yet. -/
def EncSes.dropsBefore (x : EncSes) (n : Nat) : List (Nat × Nat × Nat) := x.drops.filter fun d => d.1 < n

/-- The GAP record of the drops before recorded frame `n` (R269): how many, and the stamp and reason of the first. (DEDUCED, log 1002.) -/
def EncSes.gap (x : EncSes) (i n : Nat) : List (List Byte) :=
  match x.dropsBefore n with
  | [] => []
  | d :: ds => [witRecord 3 i (1 + ds.length) d.2.1 d.2.2 []]

/-- The picture being coded ends without an access unit. (DEDUCED, log 1004.) -/
def State.encAbandon (s : State) (i reason : Nat) : State :=
  match (s.eses i).coding with
  | none => s
  | some c =>
    let s := (s.setEses i { s.eses i with coding := none, lastDropped := true, first := (s.eses i).first && reason == 6, lastSize := some (c.w, c.h) })
    ((s.encDrop i c.seq c.stamp reason).put Reg.ENC_STATUS_BUSY 0).encDrained i

/-- What the picture of frame `c` is, coded as `k` says (R254). -/
def State.encPic (s : State) (i : Nat) (c : CapFrame) (k : Coding) : CodedPic :=
  let d := if s.is (Reg.ES_CFG_DEPTH i) then 10 else 8
  ⟨streamParams c.w c.h d (s.get (Reg.ES_CFG_CSC i)) c.refresh.1 c.refresh.2 (max 1 (s.get (Reg.ES_CFG_DIV i))), (s.eses i).plan.idr, k.ctus⟩

/-- The records of that picture (R268, R269): the GAP record of the drops before it, and its access unit. (DEDUCED, log 1002.) -/
def State.encRecords (s : State) (i : Nat) (c : CapFrame) (k : Coding) (slice : List Byte) : List (List Byte) :=
  let pic := s.encPic i c k
  let sei := seiFinal c.sei (b2n pic.idr * 16 + b2n (k.mode == 1) * 8 + b2n (k.mode == 2) * 4) (min 65535 c.drops)
  let au := (if pic.idr then Config.paramSets pic.params.fields else []) ++ seiNal sei ++ slice
  (s.eses i).gap i c.seq ++ [witRecord 1 i au.length c.stamp (sei.getD 3 0#8).toNat au]

/-- The records of a coded picture enter the output queue, or the picture is dropped under OUT_FULL (R262, R269). (DEDUCED, log 1002.) -/
def State.encDeliver (s : State) (i : Nat) (c : CapFrame) (k : Coding) (slice : List Byte) : State :=
  let x := s.eses i
  let new := s.encRecords i c k slice
  if s.encRing i < x.queued + sumNat (new.map List.length) then (s.put (Reg.ES_STATUS_OUT_FULL i) 1).encAbandon i 4
  else
    let s := s.setEses i { x with coding := none, drops := x.drops.filter (fun d => c.seq < d.1), dropsAu := x.dropsAu - c.drops,
                                  lastDropped := false, first := false, lastSize := some (c.w, c.h) }
    let s := ((s.encPush i new).incr (Reg.ES_FRAMES_CODED i)).put (Reg.ES_STAMP_LO_STAMP i) (c.stamp % 2 ^ 32)
    ((s.put (Reg.ES_STAMP_HI_STAMP i) (c.stamp / 2 ^ 32)).put Reg.ENC_STATUS_BUSY 0).encLevel i

/-- The watchdog expires on the picture being coded (R272): the picture is dropped; on two consecutive pictures the encoder is
fenced. (DEDUCED, log 1003.) -/
def State.encExpire (s : State) (inj : Bool) : State :=
  match s.encCoding with
  | none => s
  | some i =>
    let s := (s.put (Reg.ES_STATUS_TIMEOUT i) 1).encAbandon i 6
    if s.enc.expired.isSome then
      ({ s with enc := { s.enc with expired := none } }.encFault .ENC_TIMEOUT 4 i inj).encFence
    else { s with enc := { s.enc with expired := some inj } }

/-- The words that the coding of a picture reads (R257, R261, R264): its samples, from its capture frame or, for an IDR picture of a Banked frame,
from the reference picture; and the search window of a P picture. (DEDUCED, log 1008.) -/
def State.encReads (s : State) (i : Nat) (c : CapFrame) (idr : Bool) : List Nat × List Nat :=
  let n := s.encStride i
  let q := s.encQ i
  let whole := fun pl => areaWords (s.encPlane i pl) (s.encPlane i (pl + 1)) n q ((0, c.w), (0, c.h))
  let src := match c.slot with
    | some k => whole (2 * k)
    | none => if idr then whole 4 else []
  (src, if idr then [] else windowWords (s.encPlane i 4) (s.encPlane i 5) n q (pad8 c.w) (pad8 c.h))

/-- What the search SRAM met while a picture was coded (R272): an armed injection is met as the event says, an uncorrectable word unless it was
corrected; an uncorrectable word, the `k`-th of the window, is reloaded from Hearth. Answers whether the reload was clean. (DEDUCED, log 1004.) -/
def State.sramMet (s : State) (i : Nat) (m : CacheEvent) (win : List Nat) (k : Nat) (e : ReadEvent) : State × Bool :=
  let (s, inj) := s.takeInj Reg.ENC_INJ_SRAM
  match m, inj with
  | .corr, _ => (s.encFault .ENC_SRAM_CORR 1 i inj, true)
  | .clean, false => (s, true)
  | _, _ =>
    let (s, bad) := s.readWords .functional (win.drop (k % max 1 win.length) |>.take 1) e
    if bad.isEmpty then (s.encFault .ENC_SRAM_REREAD 2 i inj, true) else (s, false)

/-- The rate control of the picture being coded in session `i` (R266): c[r] is 1 for a first picture, and for an IDR picture that follows a P
picture or one of another size. -/
def State.encRating (s : State) (i : Nat) (c : CapFrame) : Rating :=
  let x := s.eses i
  let p := x.plan
  let rows := cdiv c.h 32
  let cols := ctuCols c.w
  let fresh := !x.prev.any fun q => q.params.w == pad8 c.w && q.params.h == pad8 c.h
  let prev := if fresh then [] else (x.prev.map fun q => q.ctus).getD []
  let ones := fresh || (p.idr && x.prev.any fun q => !q.idr)
  { plan := p, w := c.w, h := c.h, held := c.banked && !p.idr, prev,
    cost := (rangeFrom 0 rows).map fun r => if ones then 1 else sumNat (((prev.drop (r * cols)).take cols).map fun k => k.bits) }

/-- The reconstruction of a coded picture becomes the reference picture (R254, R261): a picture of skipped CTUs alone is its reference again; the
samples of any other are free. -/
def State.encRecon (s : State) (i : Nat) (pic : CodedPic) : State :=
  if !pic.idr && pic.ctus.all fun k => k.qp.isNone then s
  else
    let s := s.tick
    let n := s.freeCtr
    let d := pic.params.depth
    let s := (rangeFrom 0 pic.params.h).foldl (fun s y =>
      s.encRow i 4 y ((rangeFrom 0 pic.params.w).map fun x => Config.reconSample n 0 y x % 2 ^ d)) s
    (rangeFrom 0 (pic.params.h / 2)).foldl (fun s y =>
      s.encRow i 5 y ((rangeFrom 0 (pic.params.w / 2)).flatMap fun x =>
        [Config.reconSample n 1 y x % 2 ^ d, Config.reconSample n 2 y x % 2 ^ d])) s

/-- The picture of frame `c`, coded as `k` says, completes (R255, R263, R266, R267). (DEDUCED, log 1006.) -/
def State.encCoded (s : State) (i : Nat) (c : CapFrame) (k : Coding) (slice : List Byte) : State :=
  let x := s.eses i
  let pic := s.encPic i c k
  let x := { x with sprev := k.spent, fprev := x.plan.f, overs := ((k.spent - x.plan.f) :: x.overs).take 8, prev := some pic,
                    sinceIdr := if x.plan.idr then 1 else x.sinceIdr + 1 }
  let s := ((s.setEses i x).put (Reg.ES_DEBT_BITS i) (min (2 ^ 26 - 1) x.debt)).encRecon i pic
  let s := s.when (k.mode != 0) fun s => (s.put (Reg.ES_STATUS_EXHAUSTED i) 1).record (164 + i) 0x40 i 0
  (s.encDeliver i c k slice).encDrained i

/-- The picture being coded ends (R263–R267, R272): `fs` are its CTUs as the coder codes them, `m` and `k` what the SRAM met, `e` what the Hearth
reads returned. A word that lasts uncorrectable abandons it. (DEDUCED, log 1001; DEDUCED, log 1003.) -/
def State.encDone (s : State) (fs : List CtuFact) (slice : List Byte) (m : CacheEvent) (k : Nat) (e : ReadEvent) : State :=
  match s.encCoding with
  | none => s
  | some i =>
    let (s, wdt) := s.takeInj Reg.ENC_INJ_WDT
    if wdt then s.encExpire true
    else match (s.eses i).coding with
      | none => s
      | some c =>
        let (src, win) := s.encReads i c (s.eses i).plan.idr
        let (s, bad) := s.readWords .functional (src ++ win) e
        let (s, clean) := s.sramMet i m win k e
        let was := s.enc.expired
        let s := { s with enc := { s.enc with expired := none } }
        if !bad.isEmpty || !clean then s.encAbandon i 6
        else
          let s := match was with
            | some inj => s.encFault .ENC_TIMEOUT_RETRY 3 i inj
            | none => s
          s.encCoded i c ((s.encRating i c).code fs) slice

/-- ENC_PICTURE_DONE (R263). (DEDUCED, log 1001.) -/
def execEncPictureDone (fs : List CtuFact) (slice : List Byte) (m : CacheEvent) (k : Nat) (e : ReadEvent) (s : State) :
    Host.Outcome State Fault Refusal := done (s.fresh.encDone fs slice m k e)

/-- ENC_WATCHDOG (R272). -/
def execEncWatchdog (s : State) : Host.Outcome State Fault Refusal :=
  let (s, inj) := s.fresh.takeInj Reg.ENC_INJ_WDT
  done (s.encExpire inj)

/-- An accepted write of ENC_CTRL: UNFENCE is taken once the fault status is clear (R272). -/
def State.writeEncCtrl (s : State) (w : Nat) : State :=
  if bit w 0 && s.cleared .ENC_TIMEOUT && s.cleared .ENC_STATE_PAR then s.put Reg.ENC_STATUS_FENCED 0 else s

/-- ENC_UNFENCE: a write of ENC_CTRL (R272). -/
def execEncUnfence (o : Origin) (v : Word) (s : State) : Host.Outcome State Fault Refusal :=
  done (s.fresh.written o Reg.a_ENC_CTRL v fun _ _ w s => s.writeEncCtrl w)

/-- ENC_INJ (R272): the bits stay armed until they are used. (DEDUCED, log 1004.) -/
def execEncInj (o : Origin) (v : Word) (s : State) : Host.Outcome State Fault Refusal :=
  done (s.fresh.written o Reg.a_ENC_INJ v fun row _ w s => s.storeArm Reg.a_ENC_INJ row w)

/-- The bytes that the codec port of session `i` supplies next to a descriptor that has taken `asked` bytes, at most `n` (R270): queued records in
order, read from their cells. Answers them, and whether a record has now been taken whole by this descriptor. (DEDUCED, log 1008.) -/
def State.encPull (s : State) (i n asked : Nat) (e : ReadEvent) : State × List Byte × Bool :=
  let x := s.eses i
  let k := min n x.queued
  let cs := s.encPlane i 6
  let runs := ringRuns (s.encRing i) x.head k
  let bs := runs.flatMap fun r => s.cellsBytes cs r.1 r.2
  let (s, _) := s.readWords .functional (runs.flatMap fun r => cellsWords cs r.1 r.2).eraseDups e
  -- records left after `k` more bytes are gone, and the bytes of the first that are gone
  let rest := x.recs.foldl (fun (a : Nat × List Nat × Nat) r =>
    if a.2.1.isEmpty && r ≤ a.1 then (a.1 - r, [], 0) else (0, a.2.1 ++ [r], if a.2.1.isEmpty then a.1 else a.2.2)) (x.part + k, [], 0)
  let gone := x.recs.length - rest.2.1.length
  let whole := if x.part ≤ asked then 1 ≤ gone else 2 ≤ gone
  let s := s.setEses i { x with recs := rest.2.1, part := rest.2.2, head := (x.head + k) % max 1 (s.encRing i) }
  ((s.encLevel i).encDrained i, bs, whole)

/-- The PAD record of `n` bytes, header included (R269). -/
def padRecord (i n : Nat) : List Byte := witRecord 2 i (n - 16) 0 0 (List.replicate (n - 16) 0#8)

end Sys2Proof.Machine
end

