-- ==== Sys2Proof/Machine/Dma.lean ====
section
/-! DEFINITION. The commands of the DMA (chapter 08): doorbells and channel control, descriptor reads, validation, the read engine,
completions, fills with their content seal, and aborts. -/
namespace Sys2Proof.Machine

/-! ### Doorbell and channel control (R200, R202, R223, R224) -/

/-- An accepted write of CH_DB_HI (R200). -/
def State.ringDoorbell (s : State) (c hi : Nat) : State :=
  let x := s.chan c
  let addr := hi * 2 ^ 32 + s.get (Reg.CH_DB_LO_ADDR c) * 64
  if 4 ≤ x.lists.length - x.again then s.put (Reg.CH_STATUS_DB_OVERRUN c) 1
  else (s.setChan c { x with lists := x.lists ++ [addr] }).refreshChan c

/-- DOORBELL: a write of CH_DB_HI (R200). -/
def execDoorbell (o : Origin) (c : Nat) (v : Word) (s : State) : Host.Outcome State Fault Refusal :=
  done (s.fresh.when (c < 112) fun s => s.written o (Reg.a_CH_DB_HI c) v fun _ is w s => s.ringDoorbell (is.headD 0) w)

/-- The descriptor requests of a channel are no longer wanted. -/
def State.dropDescReqs (s : State) (c : Nat) : State :=
  { s with dma := { s.dma with reqs := s.dma.reqs.map fun r => if r.chan == c && r.desc then { r with dead := true } else r } }

/-- The queued lists whose first descriptor was read ahead or is being read, in order. -/
def Chan.entered (x : Chan) : List Nat :=
  (x.pre.filterMap fun d => d.list) ++ (match x.reading with
    | some r => r.list.toList
    | none => [])

/-- RELOAD (R202): copies that have not become current are discarded and NEXT of the current descriptor is read again. Without a current
descriptor it does nothing. -/
def State.reloadChan (s : State) (c : Nat) : State :=
  let x := s.chan c
  if x.cur.isNone || x.aborting then s
  else
    let s := s.dropDescReqs c
    (s.setChan c { x with lists := x.entered ++ x.lists, again := x.entered.length + x.again, pre := [], next := 0, reading := none,
                          result := none, retry := false, stopAt := none, reload := x.cur.map fun u => u.d.addr }).refreshChan c

/-- An accepted write of CH_CTRL. -/
def State.writeChCtrl (s : State) (c : Nat) (row : RegRow) (w : Nat) : State :=
  let s := s.storeRow (Reg.a_CH_CTRL c) row w
  let s := s.when (bit w 1) fun s => s.reloadChan c
  let s := s.when (bit w 2) fun s => s.beginAbort c
  s.refreshChan c

/-- A write of CH_CTRL by a requester. -/
def State.chCtrlWrite (s : State) (o : Origin) (c : Nat) (v : Word) : State :=
  s.written o (Reg.a_CH_CTRL c) v fun row is w s => s.writeChCtrl (is.headD 0) row w

/-- RELOAD (R202). -/
def execReload (o : Origin) (c : Nat) (v : Word) (s : State) : Host.Outcome State Fault Refusal := done (s.fresh.when (c < 112) fun s => s.chCtrlWrite o c v)

/-- PAUSE (R223). -/
def execPause (o : Origin) (c : Nat) (v : Word) (s : State) : Host.Outcome State Fault Refusal := done (s.fresh.when (c < 112) fun s => s.chCtrlWrite o c v)

/-- ABORT (R224). -/
def execAbort (o : Origin) (c : Nat) (v : Word) (s : State) : Host.Outcome State Fault Refusal := done (s.fresh.when (c < 112) fun s => s.chCtrlWrite o c v)

/-- DMA_INJ (R226): the bits stay armed until they are used. -/
def execDmaInj (o : Origin) (v : Word) (s : State) : Host.Outcome State Fault Refusal :=
  done (s.fresh.written o Reg.a_DMA_INJ v fun row _ w s => s.storeArm Reg.a_DMA_INJ row w)

/-! ### The outcome of a descriptor (R213, R214, Table 08.2) -/

/-- The status codes (Table 08.2). -/
def stOK : Nat := 1
def stRETRIED : Nat := 2
def stBAD : Nat := 3
def stPINNED : Nat := 4
def stSKIPPED : Nat := 5
def stINVALID : Nat := 6
def stOWNER : Nat := 7
def stCONFLICT : Nat := 8
def stABORTED : Nat := 9
def stCHANGED : Nat := 10
def stSEALFAIL : Nat := 11

/-- DMA_ERR_INFO and DMA_ERR_ADDR of the last outcome that is not OK. -/
def State.dmaErr (s : State) (c cause code addr : Nat) : State :=
  let s := ((s.put Reg.DMA_ERR_INFO_CH c).put Reg.DMA_ERR_INFO_CAUSE cause).put Reg.DMA_ERR_INFO_CODE code
  (s.put Reg.DMA_ERR_ADDR_LO_ADDR (addr % 2 ^ 32)).put Reg.DMA_ERR_ADDR_HI_ADDR (addr / 2 ^ 32)

/-- The status flag of an outcome. -/
def State.flagOutcome (s : State) (c code : Nat) : State :=
  match code with
  | 3 => s.put (Reg.CH_STATUS_BAD c) 1
  | 6 => s.put (Reg.CH_STATUS_INVALID c) 1
  | 7 => s.put (Reg.CH_STATUS_OWNER c) 1
  | 8 => s.put (Reg.CH_STATUS_CONFLICT c) 1
  | 10 => s.put (Reg.CH_STATUS_SOURCE_CHANGED c) 1
  | 11 => s.put (Reg.CH_STATUS_SEAL_FAIL c) 1
  | _ => s

/-- A fill ends without being sealed (R206); `flag` where it was abandoned. Its buffer stays as it is, and what it wrote counts as
speculative (R85). (DEDUCED, log 802; DEDUCED, log 815.) -/
def State.dropFill (s : State) (c : Nat) (flag : Bool) : State :=
  let x := s.chan c
  if x.fill.isNone then s
  else
    let s := (s.setChan c { x with fill := none }).wroteInVain fun u => u.writer == c
    s.when flag fun s => s.put (Reg.CH_STATUS_FILL_ABANDONED c) 1

/-- A channel whose list cannot be followed stops once nothing it read is left: DESC_ERR, the address of the failing descriptor, and its
open fill is abandoned (R219). (DEDUCED, log 802.) -/
def State.stopIfDone (s : State) (c : Nat) : State :=
  let x := s.chan c
  match x.stopAt with
  | some a =>
    if x.cur.isSome || !x.pre.isEmpty then s
    else ((s.put (Reg.CH_STATUS_DESC_ERR c) 1).dmaErr c 5 0 a).dropFill c true
  | none => s

/-- The fill of a channel after a descriptor of it has completed with a code (R204, R206): it is over when it seals or its buffer is FAULTED,
or when it holds no buffer at its LAST descriptor; otherwise a fill that cannot seal keeps its hold until it is abandoned or aborted.
(DEDUCED, log 802.) -/
def Fill.after (f : Fill) (last : Bool) (code : Nat) (isSealed : Bool) : Option Fill :=
  let f := if code != stOK && code != stRETRIED then { f with bad := true } else f
  if code == stBAD || code == stSEALFAIL || (last && (isSealed || !f.started || f.dropped)) then none
  else some { f with ended := f.ended || last }

/-- A descriptor completes (R214): STATUS is written back, CH_LAST and the error registers follow, CH_DONE comes after STATUS, and its fill
takes note. -/
def State.completeDesc (s : State) (c : Nat) (d : Desc) (code attempts cause : Nat) (isSealed : Bool := false) : State :=
  let st := [BitVec.ofNat 8 code, BitVec.ofNat 8 attempts, 0#8, 0#8] ++ leBytes 4 (s.orbit.stamp % 2 ^ 32)
  let s := s.when d.wb fun s => s.akSend (.mwr ((d.addr + 56) % 2 ^ 64) st none)
  let s := (s.put (Reg.CH_LAST_TAG c) d.tag).incr (Reg.CH_LAST_STATUS_DONE c)
  let s := (s.put (Reg.CH_LAST_STATUS_ATTEMPTS c) attempts).put (Reg.CH_LAST_STATUS_CODE c) code
  let s := if code = stOK then s else s.dmaErr c cause code d.addr
  let s := s.flagOutcome c code
  let x := s.chan c
  let fill := match x.fill with
    | some f => if d.fills && !f.ended then f.after d.last code isSealed else some f
    | none => none
  let ends := x.fill.isSome && fill.isNone
  let s := ((s.setChan c { x with cur := none, fill, deadline := none }).dropWriter c).keepUnsealed c
  let s := if isSealed then s.sealedBy c else s.when ends fun s => s.wroteInVain fun u => u.writer == c
  let s := s.when d.irq fun s => s.record c 0x01 c d.tag
  (s.stopIfDone c).refreshChan c

/-! ### A descriptor becomes current (R199, R204–R207, R222) -/

/-- The reserved fields and bits of Table 08.1. -/
def Desc.reserved (d : Desc) : Bool :=
  d.next % 64 != 0 || 64 ≤ d.ctrl || 2 ^ 24 ≤ d.rowBytes || 2 ^ 16 ≤ d.rows || d.rsv != 0 ||
    bits d.target 29 26 != 0 || bits d.target 23 20 != 0 || bits d.target 15 10 != 0

/-- Whether a descriptor of channel `c` is INVALID by R199, or by R270 on an encoder port. -/
def State.descInvalid (s : State) (c : Nat) (d : Desc) : Bool :=
  let h := s.handle d.handle
  let sizes := d.reserved || 2 ≤ d.ep || d.rowBytes == 0 || d.rows == 0 ||
    (1 < d.rows && (d.hostStride < d.rowBytes || (!d.codec && d.hearthStride < d.rowBytes)))
  if sizes || (c < 96 && (d.toHost || d.codec)) then true
  else if d.codec then
    d.toHost && (12 ≤ d.port || s.get (Reg.ES_STATUS_STATE d.port) == 0 || d.bytes % 16 != 0)
  else
    !h.alloc || h.sizes.length ≤ d.plane || h.sizes.getD d.plane 0 < d.off + (d.rows - 1) * d.hearthStride + d.rowBytes

/-- The path of channel `c`: the owner of its pipe, or its bound port (R196, R197). -/
def State.chanPath (s : State) (c : Nat) : Nat := if c < 96 then s.owner (c / 8) else s.svcPort c

/-- Whether a descriptor names a target that its channel may not use (R196, R197). -/
def State.descForeign (s : State) (c : Nat) (d : Desc) : Bool :=
  let path := s.chanPath c
  if path = 0 then true
  else if d.codec then s.owner (if d.toHost then unitEncoder else unitDecoder) != path
  else (s.handle d.handle).owner != path

/-- Whether another channel's fill holds buffer `h` (R206). -/
def State.heldByOther (s : State) (c h : Nat) : Bool :=
  s.dma.chans.any fun e => e.1 != c && (e.2.fill.any fun f => f.handle == h && f.started && !f.dropped)

/-- Whether a fill of any channel holds buffer `h` (R206). -/
def State.fillHolds (s : State) (h : Nat) : Bool :=
  s.dma.chans.any fun e => e.2.fill.any fun f => f.handle == h && f.started && !f.dropped

/-- Whether a FIRST descriptor begins the second pass of its channel's fill (R221). -/
def Chan.reruns (x : Chan) (d : Desc) : Bool := d.first && (x.fill.any fun f => f.rerun && f.first == d.addr)

/-- The outcome of a descriptor that does not transfer, when it becomes current; none where it starts.
(DEDUCED, log 803; DEDUCED, log 804.) -/
def State.descOutcome (s : State) (c : Nat) (d : Desc) : Option Nat :=
  let x := s.chan c
  let st := (s.handle d.handle).st
  let inFill := x.fill.any fun f => f.handle == d.handle && !f.ended
  if s.descInvalid c d then some stINVALID
  else if s.descForeign c d then some stOWNER
  else if d.codec then none
  else if d.fills && !d.first && inFill && (x.fill.any fun f => f.dropped) then some stPINNED
  else if st == .faulted || (d.toHost && st != .sealed && st != .shown) then some stSKIPPED
  else if d.fills && !d.first && !inFill then some stINVALID
  else if s.heldByOther c d.handle then some stCONFLICT
  else none

/-- A descriptor becomes current: a FIRST descriptor ends an open fill whatever its own outcome (R206); then it is validated and starts,
or completes at once. (DEDUCED, log 807.) -/
def State.startDesc (s : State) (c : Nat) (d : Desc) : State :=
  let rerun := (s.chan c).reruns d
  let s := if d.first && !rerun then s.dropFill c true else s
  let x := s.chan c
  let s := s.setChan c { x with fill := x.fill.map fun f =>
    if rerun then { f with rerun := false } else { f with lists := f.lists ++ d.list.toList } }
  match s.descOutcome c d with
  | some code => s.completeDesc c d code 0 0
  | none =>
    let x := s.chan c
    let fill := if d.fills && d.first && !rerun then some { handle := d.handle, first := d.addr } else x.fill
    let deadline := if c < 96 then none else some (s.now + s.get (Reg.CH_CFG_SLACK c) * 1000)
    let s := s.setChan c { x with cur := some { d }, fill, deadline }
    let s := if d.codec then s else s.beginWriter c d.handle
    (s.when (c < 96) fun s => s.refreshDeadline c fun _ _ => true).refreshChan c

/-- The first descriptor read ahead of channel `c` becomes current. -/
def State.descCurrent (s : State) (c : Nat) : State :=
  let x := s.chan c
  match x.cur, x.pre with
  | none, d :: ds => if x.aborting || 112 ≤ c then s else (s.setChan c { x with pre := ds }).startDesc c d
  | _, _ => s

/-- DESCRIPTOR_CURRENT (R199). -/
def execDescriptorCurrent (c : Nat) (s : State) : Host.Outcome State Fault Refusal := done (s.fresh.when (c < 112) fun s => s.descCurrent c)

/-! ### Descriptor reads (R201, R219) -/

/-- A descriptor read fails: it is read once more; a second failure stops the channel there (R219). -/
def State.descReadFailed (s : State) (c : Nat) (r : Reading) : State :=
  let x := s.chan c
  if !x.retry then (s.setChan c { x with result := none, retry := true }).refreshChan c
  else
    let s := s.setChan c { x with result := none, retry := false, reading := none, next := 0, stopAt := some r.addr }
    ((s.fault .DMA_DESC).stopIfDone c).refreshChan c

/-- The result of a descriptor read is taken: the descriptor is held, and its NEXT is the next to read; NEXT of a RELOAD likewise.
(DEDUCED, log 810.) -/
def State.descRead (s : State) (c : Nat) : State :=
  let x := s.chan c
  match x.reading, x.result with
  | some r, some none => s.descReadFailed c r
  | some r, some (some bs) =>
    let s := s.when x.retry fun s => s.fault .DMA_DESC_RETRY
    let next := descField bs 0 8 / 64 * 64
    let pre := if r.reload then x.pre else x.pre ++ [parseDesc r.addr r.list bs]
    (s.setChan c { x with reading := none, result := none, retry := false, next, pre }).refreshChan c
  | _, _ => s

/-- DESCRIPTOR_READ_DONE (R201). -/
def execDescriptorReadDone (c : Nat) (s : State) : Host.Outcome State Fault Refusal := done (s.fresh.when (c < 112) fun s => s.descRead c)

/-! ### The read engine (R208–R211) -/

/-- The states of a slot that rank its channel: the shown one, the one taken for the next frame, and every pending one.
(DEDUCED, log 812.) -/
def State.slotStates (s : State) (p k : Nat) : List SlotDecl :=
  let x := s.pipe p
  let ms := x.shown :: ((match x.next with
    | some n => [n.img]
    | none => []) ++ x.pend.map fun c => c.img)
  (ms.map fun m => declOf m p k).filter fun d => d.enable

/-- Whether some slot that names one of the layers declares T1. -/
def State.anyT1 (s : State) (ls : List Nat) : Bool :=
  allPipes.any fun p => allSlots.any fun k => (s.slotStates p k).any fun d => d.t1 && ls.contains d.layer

/-- The rank of channel `c` in Table 08.3 and, within rank 3, 0 for T1 and 1 for T2. -/
def State.rankOf (s : State) (c : Nat) : Nat × Nat :=
  if c < 96 then
    let ds := s.slotStates (c / 8) (c % 8)
    let t1 := s.anyT1 (ds.map fun d => d.layer)
    if ds.any fun d => 1 ≤ effDiv s.orbit.sheds d && stepOf s.orbit.sheds d.layer < 2 then (if t1 then 1 else 2, 0)
    else (3, if t1 then 0 else 1)
  else match s.get (Reg.CH_CFG_TIER c) with
    | 0 => (1, 0)
    | 1 => (2, 0)
    | _ => (4, 0)

/-- The staging bytes that channel `c` has reserved: requested and not yet acknowledged or taken (R211). (DEDUCED, log 808.) -/
def State.stageOf (s : State) (c : Nat) : Nat :=
  let x := s.chan c
  let reqs := sumNat ((s.dma.reqs.filter fun r => r.chan == c && !r.desc).map fun r => r.len)
  let gather := match x.cur with
    | some u => u.gather
    | none => 0
  let codec := match x.cur with
    | some u => if u.d.codec && !u.d.toHost then sumNat (u.arrived.map fun e => e.2.length) - u.taken else 0
    | none => 0
  reqs + gather + s.ackBytes c + codec

/-- The staging bytes in use. -/
def State.stageUsed (s : State) : Nat := sumNat ((s.dma.chans.map fun e => e.1).map s.stageOf)

/-- The staging buffer: 2 MiB. -/
def stageSize : Nat := 2097152

/-- The staging share of channel `c` in 16 KiB units (R211). -/
def State.stageMax (s : State) (c : Nat) : Nat := max 1 (min 128 (s.get (Reg.CH_CFG_STAGE_MAX c)))

/-- The hysteresis of R211 is brought up to date for a channel. -/
def State.stageChan (s : State) (c : Nat) : State :=
  let m := s.stageMax c
  let h := min (m - 1) (s.get (Reg.CH_CFG_STAGE_HYST c))
  let u := s.stageOf c
  let x := s.chan c
  let stop := if m * 16384 ≤ u then true else if u ≤ (m - h) * 16384 then false else x.stageStop
  s.setChan c { x with stageStop := stop }

/-- The hysteresis of R211 for ranks 3 and 4. -/
def State.stageAll (s : State) : State :=
  let hi := max 1 (min 128 (s.get Reg.DMA_STAGE_HIGH))
  let lo := min hi (s.get Reg.DMA_STAGE_LOW)
  let u := s.stageUsed
  let stop := if hi * 16384 ≤ u then true else if u ≤ lo * 16384 then false else s.dma.stageStop
  { s with dma := { s.dma with stageStop := stop } }

/-- The levels of R211 are compared: every channel's and the total. -/
def State.stageLevels (s : State) : State := (forAll (s.dma.chans.map fun e => e.1) (fun c s => s.stageChan c) s).stageAll

/-- The tags in use, held ones included (R210, R215). -/
def State.tagsUsed (s : State) : List Nat := (s.dma.reqs.map fun r => r.tag) ++ s.dma.held.map Prod.fst

/-- The lowest free tag. (DESIGN CHOICE, log 801.) -/
def State.freeTag (s : State) : Option Nat :=
  let used := s.tagsUsed
  (rangeFrom 0 1024).find? fun t => !used.contains t

/-- The address and list of the descriptor read that channel `c` wants, and whether it is the read of a RELOAD. -/
def State.wantsDesc (s : State) (c : Nat) : Option Reading :=
  let x := s.chan c
  if x.aborting || s.is (Reg.CH_CTRL_PAUSE c) || x.result.isSome || (s.openReqs c).any (fun r => r.desc && !r.dead) then none
  else match x.reading, x.reload, x.next, x.lists with
    | some r, _, _, _ => some r
    | none, some a, _, _ => some ⟨a, none, true⟩
    | none, none, 0, l :: _ => if x.pre.length < 4 && x.stopAt.isNone then some ⟨l, some l, false⟩ else none
    | none, none, 0, [] => none
    | none, none, n, _ => if x.pre.length < 4 && x.stopAt.isNone then some ⟨n, none, false⟩ else none

/-- The next data request of a descriptor: its length (R210). -/
def Cur.nextLen (u : Cur) : Nat := min (u.d.rowBytes - (u.d.pos u.asked).2) (4096 - u.d.hostAt u.asked % 4096)

/-- Whether channel `c`, at rank `r`, is eligible with data (R208, R211). A TO_HOST transfer needs neither a tag nor staging; one from an
encoder port waits for the port. (DEDUCED, log 806; DEDUCED, log 808.) -/
def State.wantsData (s : State) (c r : Nat) : Bool :=
  let x := s.chan c
  match x.cur with
  | none => false
  | some u =>
    let dropped := u.conflict || (u.d.fills && (x.fill.any fun f => f.dropped))
    if x.aborting || s.is (Reg.CH_CTRL_PAUSE c) || u.d.bytes ≤ u.asked || dropped then false
    else if u.d.toHost then !u.d.codec || u.pad.isSome || (s.eses u.d.port).queued != 0
    else !x.stageStop && s.stageOf c + u.nextLen ≤ s.stageMax c * 16384 && s.stageUsed + u.nextLen ≤ stageSize && s.freeTag.isSome && !(3 ≤ r && s.dma.stageStop)

/-- The order of Table 08.3: rank, tier, deadline, channel. -/
def State.issueKey (s : State) (c : Nat) : Nat × Nat × Nat × Nat :=
  let (r, t) := s.rankOf c
  if r = 4 then (4, 0, 0, (c + 111 - s.dma.lastBest) % 16) else (r, t, ((s.chan c).deadline).getD (2 ^ 65), c)

/-- Lexicographic order of two keys. -/
def keyLt (a b : Nat × Nat × Nat × Nat) : Bool :=
  a.1 < b.1 || (a.1 == b.1 && (a.2.1 < b.2.1 || (a.2.1 == b.2.1 && (a.2.2.1 < b.2.2.1 || (a.2.2.1 == b.2.2.1 && a.2.2.2 < b.2.2.2)))))

/-- The channel that the read engine serves next (R208): rank 4 only while the transfer grant is above 0 (R409). -/
def State.nextChan (s : State) : Option Nat :=
  (s.dma.chans.map fun e => e.1).foldl (fun (b : Option Nat) c =>
    let r := (s.rankOf c).1
    if (r = 4 ∧ s.get Reg.PWR_GRANT_XFER = 0) ∨ (((s.wantsDesc c).isNone ∨ s.freeTag.isNone) ∧ s.wantsData c r = false) then b
    else match b with
      | none => some c
      | some d => if keyLt (s.issueKey c) (s.issueKey d) then some c else some d) none

/-- The data of an attempt has failed: the first cause counts. -/
def State.failAttempt (s : State) (c cause : Nat) : State :=
  let x := s.chan c
  match x.cur with
  | some u => s.setChan c { x with cur := some { u with cause := if u.cause = 0 then cause else u.cause } }
  | none => s

/-- Issues a descriptor read. (DEDUCED, log 810.) -/
def State.issueDesc (s : State) (c tag : Nat) (r : Reading) : State :=
  let x := s.chan c
  let len := if r.reload then 8 else 64
  let took := x.reading.isNone && r.list.isSome
  let s := s.setChan c { x with reading := some r, reload := none, next := if x.reading.isNone then 0 else x.next,
                                lists := if took then x.lists.drop 1 else x.lists, again := if took then x.again - 1 else x.again }
  let s := s.akSend (.mrd tag r.addr len)
  { s with dma := { s.dma with reqs := s.dma.reqs ++ [⟨tag, c, r.addr, len, true, 0, [], false⟩] } }

/-- Issues a data read of a TO_DEVICE descriptor. -/
def State.issueRead (s : State) (c tag : Nat) (u : Cur) : State :=
  let x := s.chan c
  let n := u.nextLen
  let host := u.d.hostAt u.asked
  let s := s.setChan c { x with cur := some { u with asked := u.asked + n } }
  let s := s.akSend (.mrd tag host n)
  { s with dma := { s.dma with reqs := s.dma.reqs ++ [⟨tag, c, host, n, false, u.asked, [], false⟩] } }

/-- Posts bytes to host memory in packets of at most 256 bytes that cross no 256-byte border (R291). -/
def State.postBytes (s : State) (c host : Nat) : Nat → List Byte → State
  | 0, _ => s
  | n + 1, bs =>
    if bs.isEmpty then s
    else
      let k := min bs.length (256 - host % 256)
      (s.akSend (.mwr (host % 2 ^ 64) (bs.take k) (some c))).postBytes c (host + k) n (bs.drop k)

/-- What the port of an encoder session supplies of the next `n` bytes of a descriptor (R270): queued records, and once the queue has emptied
after a whole record, the one PAD record that fills the rest of the descriptor. -/
def State.encSupply (s : State) (u : Cur) (n : Nat) (e : ReadEvent) : State × Cur × List Byte :=
  match u.pad with
  | some a => (s, u, ((padRecord u.d.port (u.d.bytes - a)).drop (u.asked - a)).take n)
  | none =>
    let (s, bs, whole) := s.encPull u.d.port n u.asked e
    let u := { u with whole := u.whole || whole }
    let a := u.asked + bs.length
    if u.whole && a < u.d.bytes && (s.eses u.d.port).queued == 0 then
      (s, { u with pad := some a }, bs ++ (padRecord u.d.port (u.d.bytes - a)).take (n - bs.length))
    else (s, u, bs)

/-- Issues a part of a TO_HOST transfer: whole Hearth words are read and the row's bytes sent (R212, R222), or the port of an encoder
session supplies them (R270). (DEDUCED, log 809.) -/
def State.issueWrite (s : State) (c : Nat) (u : Cur) (e : ReadEvent) : State :=
  let n := u.nextLen
  let host := u.d.hostAt u.asked
  if u.d.codec then
    let (s, u) := s.encSupply u n e
    let bs := u.2
    let x := s.chan c
    let s := s.setChan c { x with cur := some { u.1 with asked := u.1.asked + bs.length }, statBytes := x.statBytes + bs.length }
    s.postBytes c host bs.length bs
  else
    let off := u.d.planeAt u.asked
    let ws := (s.wordsAt u.d.handle u.d.plane off n).eraseDups
    let st := (s.handle u.d.handle).st
    let left := st != .sealed && st != .shown
    let bs := s.planeBytes u.d.handle u.d.plane off n
    let x := s.chan c
    let s := s.setChan c { x with cur := some { u with asked := u.asked + n, changed := u.changed || left }, statBytes := x.statBytes + n }
    let (s, bad) := s.readWords .functional ws e
    let s := s.when (!bad.isEmpty) fun s => s.failAttempt c 3
    s.postBytes c host n bs

/-- The read engine issues one request (R208). -/
def State.issueNext (s : State) (e : ReadEvent) : State :=
  if !s.akUp then s
  else
    let s := s.stageLevels
    match s.nextChan with
    | none => s
    | some c =>
      let s := if (s.rankOf c).1 = 4 then { s with dma := { s.dma with lastBest := c } } else s
      match s.wantsDesc c, s.freeTag, (s.chan c).cur with
      | some r, some tag, _ => (s.issueDesc c tag r).refreshChan c
      | _, tag, some u =>
        if u.d.toHost then (s.issueWrite c u e).refreshChan c
        else match tag with
          | some tag => ((s.issueRead c tag u).stageLevels).refreshChan c
          | none => s
      | _, _, none => s

/-- DMA_READ_ISSUE (R208): `e` is what the Hearth words of a TO_HOST transfer returned. -/
def execDmaReadIssue (e : ReadEvent) (s : State) : Host.Outcome State Fault Refusal := done (s.fresh.issueNext e)

/-! ### Completions (R205, R213, R215, R236) -/

/-- Adds to a channel's statistics: bytes transferred, or fetched in vain. -/
def State.chanStat (s : State) (c good spec : Nat) : State :=
  let x := s.chan c
  s.setChan c { x with statBytes := x.statBytes + good, statSpec := x.statSpec + spec }

/-- The first Hearth write of a fill decides the pin (R205) and takes hold of the buffer; while another fill holds it, the fill ends and
its descriptor is a CONFLICT (R206). (DEDUCED, log 805.) -/
def State.fillStart (s : State) (c : Nat) : State :=
  let x := s.chan c
  match x.fill with
  | none => s
  | some f =>
    if f.started then s
    else if s.heldByOther c f.handle then
      s.setChan c { x with fill := none, cur := x.cur.map fun u => { u with conflict := true } }
    else if s.pinned f.handle then
      ((s.setChan c { x with fill := some { f with started := true, dropped := true } }).put (Reg.CH_STATUS_PINNED_WRITE c) 1)
    else (s.setChan c { x with fill := some { f with started := true } }).setBuf f.handle .filling

/-- The bytes of a codec descriptor that the port has not taken and that follow on from those it has: the part of an arrived chunk. -/
def Cur.ready (u : Cur) : List Byte :=
  match u.arrived.find? fun e => e.1 ≤ u.taken && u.taken < e.1 + e.2.length with
  | some e => e.2.drop (u.taken - e.1)
  | none => []

/-- The decoder port of a codec descriptor takes arrived bytes in order while its FIFO has room (R236); `n` bounds the chunks.
(DEDUCED, log 811.) -/
def State.feedCodec (s : State) (c : Nat) : Nat → State
  | 0 => s
  | n + 1 =>
    match (s.chan c).cur with
    | none => s
    | some u =>
      let i := u.d.port
      let x := s.dses i
      let x := if u.taken = 0 ∧ u.d.first = true then { x with fifo := x.fifo.take x.whole } else x
      let bs := u.ready
      let st := s.get (Reg.DS_STATUS_STATE i)
      let dump := st == 0 || st == 3 || x.spsBad
      let k := if dump then bs.length else min bs.length (65536 - x.fifo.length)
      if k = 0 || u.d.toHost then s
      else
        let x := if dump then x else { x with fifo := x.fifo ++ bs.take k }
        let x := if !dump && u.d.last && u.taken + k == u.d.bytes then { x with whole := x.fifo.length } else x
        let s := s.setDses i x
        let s := if dump then s.count (Reg.DS_IN_DISCARDED i) k else s
        (s.setChan c { s.chan c with cur := some { u with taken := u.taken + k } }).feedCodec c n

/-- The bytes of the transfer from `a` to `b` that have arrived. -/
def Cur.bytesOf (u : Cur) (a b : Nat) : List Byte :=
  (u.arrived.filter fun e => e.1 < b && a < e.1 + e.2.length).flatMap fun e => (e.2.take (b - e.1)).drop (a - e.1)

/-- Whether byte `n` of the transfer has arrived. -/
def Cur.has (u : Cur) (n : Nat) : Bool := u.arrived.any fun e => e.1 ≤ n && n < e.1 + e.2.length

/-- The part of the transfer that the write engine writes when the bytes from `a` to `b` have arrived (R212): a word that the row covers
beyond them is written whole, once its other bytes are there. -/
def Cur.writes (u : Cur) (a b : Nat) : Nat × Nat :=
  let row := a / max 1 u.d.rowBytes * u.d.rowBytes
  let lo := u.d.planeAt a % 32
  let hi := (32 - u.d.planeAt b % 32) % 32
  let a' := if a = row ∨ lo = 0 then a else if u.has (a - 1) then max row (a - lo) else min b (a + (32 - lo))
  let b' := if b = row + u.d.rowBytes ∨ hi = 0 then b else if u.has b then min (row + u.d.rowBytes) (b + hi) else b - (32 - hi)
  (a', max a' b')

/-- The data of a request reaches staging and its destination: Hearth through the write engine, or a decoder port. -/
def State.landData (s : State) (r : Req) (u : Cur) : State :=
  let c := r.chan
  let (s, inj) := s.takeInj Reg.DMA_INJ_STG
  let s := s.when inj fun s => s.fault .DMA_STG_CORR true
  let u := { u with arrived := u.arrived ++ [(r.at_, r.data)] }
  if u.d.codec then ((s.setChan c { s.chan c with cur := some u }).chanStat c r.len 0).feedCodec c u.arrived.length
  else
    let (a, b) := u.writes r.at_ (r.at_ + r.len)
    let s := s.when (a != b) fun s => s.fillStart c
    let x := s.chan c
    if (x.fill.any fun f => f.dropped) || (x.cur.any fun u => u.conflict) then s.chanStat c 0 r.len
    else
      let u := { u with wrote := u.wrote + r.len, gather := u.gather + r.len - (b - a) }
      let s := (s.setChan c { x with cur := some u }).chanStat c r.len 0
      s.when (a != b) fun s => s.queueWrite ⟨c, u.d.handle, u.d.plane, u.d.planeAt a, u.bytesOf a b, false⟩

/-- Takes a request off the open ones. -/
def State.closeReq (s : State) (tag : Nat) : State :=
  { s with dma := { s.dma with reqs := s.dma.reqs.filter fun r => r.tag != tag } }

/-- A request has ended: with its data, or by an error of the given cause (R217). -/
def State.endReq (s : State) (r : Req) (cause : Option Nat) : State :=
  let c := r.chan
  let s := s.closeReq r.tag
  let x := s.chan c
  let s := if x.aborting || r.dead then s.chanStat c 0 r.data.length
    else if r.desc then s.setChan c { x with result := some (match cause with
      | some _ => none
      | none => some r.data) }
    else match x.cur, cause with
      | some u, none => s.landData r u
      | some _, some k => (s.chanStat c 0 r.data.length).failAttempt c k
      | none, _ => s
  s.refreshChan c

/-- Whether a completion keeps the rules of R291 for its request: in address order, ending on a 256-byte border unless it is the last,
which completes the request. -/
def Req.keeps (r : Req) (off : Nat) (last : Bool) (n : Nat) : Bool :=
  off == r.data.length && 1 ≤ n && r.data.length + n ≤ r.len && n ≤ 256 &&
    (last == (r.data.length + n == r.len)) && (last || (r.host + off + n) % 256 == 0) && (r.host + off) % 256 + n ≤ 256

/-- A completion arrives for an open request: `bad` tells that it broke R291. -/
def State.cplData (s : State) (r : Req) (status off : Nat) (last : Bool) (bs : List Byte) : State × Bool :=
  if status ≠ 0 then (s.endReq r (some 1), !last)
  else if !r.keeps off last bs.length then (s.endReq r (some 1), true)
  else
    let r := { r with data := r.data ++ bs }
    if last then (s.endReq r none, false)
    else ({ s with dma := { s.dma with reqs := s.dma.reqs.map fun q => if q.tag == r.tag then r else q } }, false)

/-- A request has waited for CPL_TIMEOUT (R215): an error of its descriptor; its tag is held. No timer runs while the link is down
(R216). -/
def State.cplTimeout (s : State) (tag : Nat) : State :=
  match s.dma.reqs.find? fun r => r.tag == tag with
  | none => s
  | some r =>
    if !s.akUp then s
    else
      let s := { s with dma := { s.dma with held := s.dma.held ++ [(tag, r.chan)] } }
      s.endReq r (some 2)

/-- CPL_TIMEOUT (R215). -/
def execCplTimeout (tag : Nat) (s : State) : Host.Outcome State Fault Refusal := done (s.fresh.cplTimeout tag)

/-- HELD_TAG_RELEASE (R215). -/
def execHeldTagRelease (tag : Nat) (s : State) : Host.Outcome State Fault Refusal :=
  let s := s.fresh
  done { s with dma := { s.dma with held := s.dma.held.filter fun e => e.1 != tag } }

/-! ### Completion of a descriptor (R213, R217, R218, R221) -/

/-- Whether posted writes of channel `c` still await the link (R213). -/
def State.postedOpen (s : State) (c : Nat) : Bool :=
  let own := fun q : Pkt => match q with
    | .mwr _ _ (some d) => d == c
    | _ => false
  s.ak.queue.any own || (s.ak.restPkt.any own) || s.ak.unacked.any fun f => f.pkts.any own

/-- Whether everything that the current attempt started has answered (R213). (DEDUCED, log 806.) -/
def State.attemptDone (s : State) (c : Nat) (u : Cur) : Bool :=
  let dropped := u.conflict || (u.d.fills && ((s.chan c).fill.any fun f => f.dropped))
  (dropped || u.d.bytes ≤ u.asked) && !((s.openReqs c).any fun r => !r.desc) && !s.inFlight c && !s.postedOpen c &&
    (u.cause != 0 || !u.d.codec || u.d.toHost || u.d.bytes ≤ u.taken)

/-- The current descriptor transfers once more. What a codec port has taken stays taken. (DEDUCED, log 811.) -/
def State.restart (s : State) (c : Nat) (u : Cur) (attempt cause : Nat) : State :=
  let s := ((s.clearWriteErr c).chanStat c 0 u.wrote).wroteInVain fun w => w.writer == c && w.cur
  s.setChan c { s.chan c with cur := some { d := u.d, attempt, prior := cause, taken := u.taken, whole := u.whole, pad := u.pad } }

/-- The whole fill runs again from its FIRST descriptor (R221). -/
def State.rerunFill (s : State) (c : Nat) (f : Fill) : State :=
  let s := ((s.dropDescReqs c).dropWriter c).wroteInVain fun u => u.writer == c
  let x := s.chan c
  s.setChan c { x with cur := none, pre := [], reading := none, result := none, retry := false, reload := none, stopAt := none,
                       deadline := none, next := f.first, lists := f.lists ++ x.entered ++ x.lists,
                       again := f.lists.length + x.entered.length + x.again,
                       fill := some { f with pass := 2, crc := 0xFFFFFFFF, bad := false, rerun := true, lists := [] } }

/-- The bytes of a completed transfer in descriptor order. (DEDUCED, log 814.) -/
def Cur.ordered (u : Cur) : List Byte :=
  (u.arrived.foldl (fun m e => SMap.set [] m e.1 e.2) ([] : List (Nat × List Byte))).flatMap fun e => e.2

/-- The LAST descriptor of a fill completes with every descriptor OK: the seal is checked and the buffer sealed (R204, R221). -/
def State.closeFill (s : State) (c : Nat) (u : Cur) (f : Fill) (code : Nat) : State :=
  if !u.d.sealEn then (s.setBuf f.handle .sealed).completeDesc c u.d code u.attempt u.prior true
  else
    let (s, inj) := s.takeInj Reg.DMA_INJ_SEAL
    let crc := crcFinal f.crc
    if (if inj then crcFinal crc else crc) = u.d.sealWord then
      let s := s.setBuf f.handle .sealed
      if f.pass = 2 then (s.fault .DMA_SEAL_RETRY).completeDesc c u.d stRETRIED u.attempt 6 true
      else s.completeDesc c u.d code u.attempt u.prior true
    else if f.pass = 1 then s.rerunFill c f
    else ((s.setBuf f.handle .faulted).fault .DMA_SEAL inj).completeDesc c u.d stSEALFAIL u.attempt 6

/-- A successful attempt: the fill's seal runs on, and a fill closes with its LAST descriptor. (DEDUCED, log 814.) -/
def State.attemptGood (s : State) (c : Nat) (u : Cur) : State :=
  let s := s.when (u.attempt == 2) fun s => s.fault .DMA_RD_RETRY
  let code := if u.attempt = 2 then stRETRIED else stOK
  let x := s.chan c
  match x.fill with
  | some f =>
    if !u.d.fills || f.handle != u.d.handle then s.completeDesc c u.d code u.attempt u.prior
    else
      let f := { f with crc := crc32cUpdate f.crc u.ordered }
      let s := s.setChan c { x with fill := some f }
      if u.d.last && !f.bad && f.started && (s.handle f.handle).st == .filling then s.closeFill c u f code
      else s.completeDesc c u.d code u.attempt u.prior
  | none => s.completeDesc c u.d code u.attempt u.prior

/-- Whether every cell that a descriptor writes has been remapped out of the fenced channels (R218). -/
def State.cellsBack (s : State) (d : Desc) : Bool :=
  (rangeFrom 0 d.rows).all fun r => !s.planeFenced d.handle d.plane (d.off + r * d.hearthStride) d.rowBytes

/-- The current descriptor of channel `c` has answered wholly and is classified (R205, R217, R218, R222, Table 08.4). `stg` tells that a
staging word of the attempt was uncorrectable. (DEDUCED, log 805.) -/
def State.descComplete (s : State) (c : Nat) (stg : Bool) : State :=
  let x := s.chan c
  match x.cur with
  | none => s
  | some u =>
    if x.aborting || !s.attemptDone c u then s
    else if u.conflict then s.completeDesc c u.d stCONFLICT u.attempt 0
    else if u.d.fills && (x.fill.any fun f => f.dropped) then s.completeDesc c u.d stPINNED u.attempt 0
    else if u.d.toHost && u.changed then s.completeDesc c u.d stCHANGED u.attempt 0
    else
      let cause := if u.cause != 0 then u.cause else if s.wroteBad c then 3 else if stg then 4 else 0
      if cause = 0 ∧ s.wroteMoved c = true then if s.cellsBack u.d then (s.restart c u u.attempt u.prior).refreshChan c else s
      else if cause = 0 then (s.attemptGood c u).refreshChan c
      else if u.attempt = 1 then (s.restart c u 2 cause).refreshChan c
      else
        let s := (if u.d.fills then s.setBuf u.d.handle .faulted else s).chanStat c 0 u.wrote
        (s.fault .DMA_BAD).completeDesc c u.d stBAD 2 cause

/-- DESCRIPTOR_COMPLETE (R213). -/
def execDescriptorComplete (c : Nat) (stg : Bool) (s : State) : Host.Outcome State Fault Refusal := done (s.fresh.when (c < 112) fun s => s.descComplete c stg)

/-- The drain of an ABORT ends (R224): the current descriptor completes as ABORTED, an open fill ends with its buffer FILLING, and the
channel is idle; doorbells rung meanwhile stay queued. -/
def State.abortDone (s : State) (c : Nat) : State :=
  let x := s.chan c
  if !x.aborting || !(s.openReqs c).isEmpty || s.inFlight c || s.postedOpen c then s
  else
    let s := match x.cur with
      | some u => s.completeDesc c u.d stABORTED u.attempt u.cause
      | none => s
    let s := s.dropFill c false
    let y := s.chan c
    (s.setChan c { lists := y.lists, statBytes := y.statBytes, statSpec := y.statSpec }).refreshChan c

/-- ABORT_DRAIN_DONE (R224). -/
def execAbortDrainDone (c : Nat) (s : State) : Host.Outcome State Fault Refusal := done (s.fresh.when (c < 112) fun s => s.abortDone c)

/-- A fill that a pending commit names has missed its fill deadline (R209): an event, and LATE. -/
def State.dmaLate (s : State) (c : Nat) : State :=
  let x := s.chan c
  match x.fill with
  | none => s
  | some f =>
    if s.pendNames f.handle || s.heldNames f.handle then
      let tag := match x.cur with
        | some u => u.d.tag
        | none => s.get (Reg.CH_LAST_TAG c)
      (s.put (Reg.CH_STATUS_LATE c) 1).record c 0x02 c tag
    else s

/-- DMA_LATE (R209). -/
def execDmaLate (c : Nat) (s : State) : Host.Outcome State Fault Refusal := done (s.fresh.when (c < 112) fun s => s.dmaLate c)

/-- Every channel becomes idle with empty queues (R225). -/
def State.dmaReset (s : State) : State :=
  let cs := s.dma.chans.map fun e => e.1
  let s := forAll cs (fun c s => s.quitWriter c) s
  let s := { s with dma := {} }
  forAll cs (fun c s => s.refreshChan c) s

end Sys2Proof.Machine
end

