-- ==== Sys2Proof/Machine/Crypto.lean ====
section
/-! DEFINITION. The cryptographic functions that the spec names by their standards (R378–R381, R420, R461, R464, R466): AES-128 and its CMAC
(FIPS 197, SP 800-38B), the AES key wrap (RFC 3394), SHA-256 (FIPS 180-4) and ECDSA verification over P-256 (FIPS 186). The standards are not
part of the spec: PRESUMED, log entry 8. -/
namespace Sys2Proof.Machine

/-! ### AES-128 -/

/-- Multiplication by x in GF(2^8) with the AES polynomial. -/
def xtime (a : Nat) : Nat := if a < 128 then 2 * a else (2 * a) ^^^ 0x11B

/-- The product of `a` and `b` in GF(2^8), for `b` below 16. -/
def gmul (a b : Nat) : Nat :=
  let a2 := xtime a
  let a4 := xtime a2
  (if b % 2 = 1 then a else 0) ^^^ (if b / 2 % 2 = 1 then a2 else 0) ^^^ (if b / 4 % 2 = 1 then a4 else 0) ^^^
    (if b / 8 = 1 then xtime a4 else 0)

/-- The S-box of FIPS 197: the byte for `a` stands at bits 8 a + 7 to 8 a. -/
def sboxBits : Nat :=
  0xC072A49CAFA2D4ADF04759FA7DC982CA76ABD7FE2B670130C56F6BF27B777C63 +
  0x75B227EBE28012079A059618C323C7041531D871F1E5A534CCF73F362693FDB7 * 2 ^ 256 +
  0xCF584C4A39BECB6A5BB1FC20ED00D153842FE329B3D63B52A05A6E1B1A2C8309 * 2 ^ 512 +
  0xD2F3FF1021DAB6BCF5389D928F40A351A89F3C507F02F94585334D43FBAAEFD0 * 2 ^ 768 +
  0xDB0B5EDE14B8EE4688902A22DC4F816073195D643D7EA7C41744975FEC130CCD * 2 ^ 1024 +
  0x08AE7A65EAF4566CA94ED58D6D37C8E779E4959162ACD3C25C2406490A3A32E0 * 2 ^ 1280 +
  0x9E1DC186B95735610EF6034866B53E708A8BBD4B1F74DDE8C6B4A61C2E2578BA * 2 ^ 1536 +
  0x16BB54B00F2D99416842E6BF0D89A18CDF2855CEE9871E9B948ED9691198F8E1 * 2 ^ 1792

/-- The inverse S-box of FIPS 197, in the same form. -/
def unsboxBits : Nat :=
  0xCBE9DEC444438E3487FF2F9B8239E37CFBD7F3819EA340BF38A53630D56A0952 +
  0x25D18B6D49A25B76B224D92866A12E084EC3FA420B954CEE3D23C2A632947B54 * 2 ^ 256 +
  0x849D8DA75746155EDAB9EDFD5048706C92B6655DCC5CA4D41698688664F6F872 * 2 ^ 512 +
  0x6B8A130103BDAFC1020F3FCA8F1E2CD00645B3B80558E4F70AD3BC8C00ABD890 * 2 ^ 768 +
  0x6EDF751CE837F9E28535ADE72274AC9673E6B4F0CECFF297EADC674F4111913A * 2 ^ 1024 +
  0xF45ACD78FEC0DB9A2079D2C64B3E56FC1BBE18AA0E62B76F89C5291D711AF147 * 2 ^ 1280 +
  0xEF9CC9939F7AE52D0D4AB519A97F51605FEC8027591012B131C7078833A8DD1F * 2 ^ 1536 +
  0x7D0C2155631469E126D677BA7E042B17619953833CBBEBC8B0F52AAE4D3BE0A0 * 2 ^ 1792

/-- The AES substitution. -/
def aesSub (a : Nat) : Nat := sboxBits >>> (8 * a) % 256

/-- The inverse substitution. -/
def aesUnsub (a : Nat) : Nat := unsboxBits >>> (8 * a) % 256

/-- The exclusive or of two byte strings. -/
def xorBytes (a b : List Nat) : List Nat := List.zipWith (fun x y => x ^^^ y) a b

/-- The round key after `k`. -/
def nextKey (rcon : Nat) (k : List Nat) : List Nat :=
  let g := fun i => k.getD i 0
  let w0 := xorBytes (k.take 4) [aesSub (g 13) ^^^ rcon, aesSub (g 14), aesSub (g 15), aesSub (g 12)]
  let w1 := xorBytes ((k.drop 4).take 4) w0
  let w2 := xorBytes ((k.drop 8).take 4) w1
  w0 ++ w1 ++ w2 ++ xorBytes (k.drop 12) w2

/-- The round keys from `k` on, `n` of them after it. -/
def roundKeys : Nat → Nat → List Nat → List (List Nat)
  | 0, _, k => [k]
  | n + 1, r, k => k :: roundKeys n (xtime r) (nextKey r k)

/-- The rows of the state shifted: output byte i comes from byte i + 4 (i mod 4). -/
def shiftRows (s : List Nat) : List Nat := (rangeFrom 0 16).map fun i => s.getD ((i + 4 * (i % 4)) % 16) 0

/-- The inverse of the row shift. -/
def unshiftRows (s : List Nat) : List Nat := (rangeFrom 0 16).map fun i => s.getD ((i + 16 - 4 * (i % 4)) % 16) 0

/-- Each column multiplied by a circulant matrix whose first row is `m`. -/
def mixWith (m : List Nat) (s : List Nat) : List Nat :=
  (rangeFrom 0 16).map fun i =>
    (rangeFrom 0 4).foldl (fun a j => a ^^^ gmul (s.getD (i / 4 * 4 + j) 0) (m.getD ((j + 4 - i % 4) % 4) 0)) 0

/-- The rounds of the cipher after the first key; the last one has no column mix. -/
def aesRounds (s : List Nat) : List (List Nat) → List Nat
  | [] => s
  | [k] => xorBytes (shiftRows (s.map aesSub)) k
  | k :: ks => aesRounds (xorBytes (mixWith [2, 3, 1, 1] (shiftRows (s.map aesSub))) k) ks

/-- AES-128 encryption of a 16-byte block. (PRESUMED, log 8.) -/
def aesEnc (key blk : List Nat) : List Nat :=
  match roundKeys 10 1 key with
  | [] => blk
  | k :: ks => aesRounds (xorBytes blk k) ks

/-- The inverse rounds, with the round keys in reverse order. -/
def aesUnrounds (s : List Nat) : List (List Nat) → List Nat
  | [] => s
  | [k] => xorBytes (unshiftRows s |>.map aesUnsub) k
  | k :: ks => aesUnrounds (mixWith [14, 11, 13, 9] (xorBytes ((unshiftRows s).map aesUnsub) k)) ks

/-- AES-128 decryption of a 16-byte block. -/
def aesDec (key blk : List Nat) : List Nat :=
  match (roundKeys 10 1 key).reverse with
  | [] => blk
  | k :: ks => aesUnrounds (xorBytes blk k) ks

/-! ### AES-128-CMAC -/

/-- Sixteen bytes doubled in GF(2^128), as the subkeys of CMAC need. -/
def dbl128 (b : List Nat) : List Nat :=
  let n := b.foldl (fun a x => a * 256 + x) 0
  let m := (2 * n) % 2 ^ 128 ^^^ (if 2 ^ 127 ≤ n then 0x87 else 0)
  ((leBytes 16 m).reverse).map fun x => x.toNat

/-- The chain of CMAC over full blocks before the last, `fuel` blocks at most. -/
def cmacChain (key : List Nat) : Nat → List Nat → List Nat → List Nat × List Nat
  | 0, x, m => (x, m)
  | f + 1, x, m => if m.length ≤ 16 then (x, m) else cmacChain key f (aesEnc key (xorBytes x (m.take 16))) (m.drop 16)

/-- The full 16-byte AES-128-CMAC of a message under a key. (PRESUMED, log 8.) -/
def cmac (key msg : List Byte) : List Byte :=
  let k := key.map fun x => x.toNat
  let zero := List.replicate 16 0
  let k1 := dbl128 (aesEnc k zero)
  let (x, m) := cmacChain k (msg.length / 16 + 1) zero (msg.map fun b => b.toNat)
  let last := if m.length = 16 then xorBytes m k1 else xorBytes (m ++ 0x80 :: List.replicate (15 - m.length) 0) (dbl128 k1)
  (aesEnc k (xorBytes x last)).map fun v => BitVec.ofNat 8 v

/-! ### AES key wrap (RFC 3394) -/

/-- The steps of the unwrap: `t` counts down from 6 n. -/
def unwrapSteps (key : List Nat) (n : Nat) : Nat → List Nat → List (List Nat) → List Nat × List (List Nat)
  | 0, a, r => (a, r)
  | t + 1, a, r =>
    let i := t % n
    let tb := ((leBytes 8 (t + 1)).reverse).map fun x => x.toNat
    let b := aesDec key (xorBytes a tb ++ r.getD i [])
    unwrapSteps key n t (b.take 8) (setAt r i (b.drop 8))

/-- The 16-byte key wrapped in 24 bytes; none where the integrity check fails. (PRESUMED, log 8.) -/
def keyUnwrap (kek wrapped : List Byte) : Option (List Byte) :=
  let c := wrapped.map fun x => x.toNat
  let (a, r) := unwrapSteps (kek.map fun x => x.toNat) 2 12 (c.take 8) [(c.drop 8).take 8, (c.drop 16).take 8]
  if c.length = 24 ∧ a = List.replicate 8 0xA6 then some (r.flatten.map fun v => BitVec.ofNat 8 v) else none

/-! ### SHA-256 -/

/-- The round constants of SHA-256. -/
def shaK : List Nat :=
  [0x428A2F98, 0x71374491, 0xB5C0FBCF, 0xE9B5DBA5, 0x3956C25B, 0x59F111F1, 0x923F82A4, 0xAB1C5ED5, 0xD807AA98, 0x12835B01, 0x243185BE, 0x550C7DC3, 0x72BE5D74, 0x80DEB1FE, 0x9BDC06A7, 0xC19BF174] ++
  [0xE49B69C1, 0xEFBE4786, 0x0FC19DC6, 0x240CA1CC, 0x2DE92C6F, 0x4A7484AA, 0x5CB0A9DC, 0x76F988DA,
   0x983E5152, 0xA831C66D, 0xB00327C8, 0xBF597FC7, 0xC6E00BF3, 0xD5A79147, 0x06CA6351, 0x14292967,
   0x27B70A85, 0x2E1B2138, 0x4D2C6DFC, 0x53380D13, 0x650A7354, 0x766A0ABB, 0x81C2C92E, 0x92722C85] ++
  [0xA2BFE8A1, 0xA81A664B, 0xC24B8B70, 0xC76C51A3, 0xD192E819, 0xD6990624, 0xF40E3585, 0x106AA070,
   0x19A4C116, 0x1E376C08, 0x2748774C, 0x34B0BCB5, 0x391C0CB3, 0x4ED8AA4A, 0x5B9CCA4F, 0x682E6FF3,
   0x748F82EE, 0x78A5636F, 0x84C87814, 0x8CC70208, 0x90BEFFFA, 0xA4506CEB, 0xBEF9A3F7, 0xC67178F2]

/-- The initial hash value of SHA-256. -/
def shaH : List Nat :=
  [0x6A09E667, 0xBB67AE85, 0x3C6EF372, 0xA54FF53A, 0x510E527F, 0x9B05688C, 0x1F83D9AB, 0x5BE0CD19]

/-- Rotation of a 32-bit word to the right. -/
def rotr32 (a n : Nat) : Nat := a / 2 ^ n + (a * 2 ^ (32 - n)) % 2 ^ 32

/-- The message schedule: `n` more words after the window of 16, which is kept newest first. -/
def shaSched : Nat → List Nat → List Nat → List Nat
  | 0, _, acc => acc.reverse
  | n + 1, w, acc =>
    let g := fun i => w.getD i 0
    let s0 := rotr32 (g 14) 7 ^^^ rotr32 (g 14) 18 ^^^ (g 14 / 2 ^ 3)
    let s1 := rotr32 (g 1) 17 ^^^ rotr32 (g 1) 19 ^^^ (g 1 / 2 ^ 10)
    let x := (g 15 + s0 + g 6 + s1) % 2 ^ 32
    shaSched n (x :: w.take 15) (x :: acc)

/-- One round of SHA-256 over the working variables. -/
def shaRound (v : List Nat) (kw : Nat) : List Nat :=
  let g := fun i => v.getD i 0
  let e := g 4
  let a := g 0
  let s1 := rotr32 e 6 ^^^ rotr32 e 11 ^^^ rotr32 e 25
  let ch := (e &&& g 5) ^^^ ((0xFFFFFFFF - e) &&& g 6)
  let t1 := g 7 + s1 + ch + kw
  let s0 := rotr32 a 2 ^^^ rotr32 a 13 ^^^ rotr32 a 22
  let mj := (a &&& g 1) ^^^ (a &&& g 2) ^^^ (g 1 &&& g 2)
  [(t1 + s0 + mj) % 2 ^ 32, a, g 1, g 2, (g 3 + t1) % 2 ^ 32, e, g 5, g 6]

/-- One block of SHA-256. -/
def shaBlock (h : List Nat) (blk : List Byte) : List Nat :=
  let w := (rangeFrom 0 16).map fun i => beNat ((blk.drop (4 * i)).take 4)
  let ws := w ++ shaSched 48 w.reverse []
  let v := (List.zipWith (fun k x => k + x) shaK ws).foldl shaRound h
  List.zipWith (fun x y => (x + y) % 2 ^ 32) h v

/-- The blocks of a padded message. -/
def shaBlocks : Nat → List Nat → List Byte → List Nat
  | 0, h, _ => h
  | n + 1, h, m => if m.isEmpty then h else shaBlocks n (shaBlock h (m.take 64)) (m.drop 64)

/-- SHA-256 of a byte string. (PRESUMED, log 8.) -/
def sha256 (m : List Byte) : List Byte :=
  let z := (119 - m.length % 64) % 64
  let p := m ++ [0x80#8] ++ List.replicate z 0#8 ++ beBytes 8 (8 * m.length)
  (shaBlocks (p.length / 64 + 1) shaH p).flatMap (beBytes 4)

/-! ### ECDSA over P-256 -/

/-- The field prime, the group order, the coefficient b and the base point of P-256. -/
def p256P : Nat := 0xFFFFFFFF00000001000000000000000000000000FFFFFFFFFFFFFFFFFFFFFFFF
def p256N : Nat := 0xFFFFFFFF00000000FFFFFFFFFFFFFFFFBCE6FAADA7179E84F3B9CAC2FC632551
def p256B : Nat := 0x5AC635D8AA3A93E7B3EBBD55769886BC651D06B0CC53B0F63BCE3C3E27D2604B
def p256G : Nat × Nat :=
  (0x6B17D1F2E12C4247F8BCE6E563A440F277037D812DEB33A0F4A13945D898C296,
   0x4FE342E2FE1A7F9B8EE7EB4A7C0F9E162BCE33576B315ECECBB6406837BF51F5)

/-- a^e mod m by repeated squaring over `n` bits of `e`. -/
def powMod (m : Nat) : Nat → Nat → Nat → Nat
  | 0, _, _ => 1 % m
  | n + 1, a, e => (if e % 2 = 1 then a else 1) * powMod m n (a * a % m) (e / 2) % m

/-- The inverse modulo a 256-bit prime. -/
def invMod (m a : Nat) : Nat := powMod m 256 (a % m) (m - 2)

/-- The sum of two points of P-256; none is the point at infinity. -/
def p256Add : Option (Nat × Nat) → Option (Nat × Nat) → Option (Nat × Nat)
  | none, q => q
  | a, none => a
  | some (x1, y1), some (x2, y2) =>
    let p := p256P
    if x1 = x2 ∧ (y1 + y2) % p = 0 then none
    else
      let l := if x1 = x2 then (3 * x1 * x1 + (p - 3)) * invMod p (2 * y1) % p else (y2 + (p - y1)) * invMod p (x2 + (p - x1)) % p
      let x3 := (l * l + (p - x1) + (p - x2)) % p
      some (x3, (l * (x1 + (p - x3)) + (p - y1)) % p)

/-- A multiple of a point over `n` bits of the factor. -/
def p256Mul : Nat → Nat → Option (Nat × Nat) → Option (Nat × Nat)
  | 0, _, _ => none
  | n + 1, k, q => p256Add (if k % 2 = 1 then q else none) (p256Mul n (k / 2) (p256Add q q))

/-- Whether a point lies on P-256. -/
def p256On (q : Nat × Nat) : Bool :=
  q.1 < p256P && q.2 < p256P && (q.2 * q.2) % p256P == (q.1 * q.1 * q.1 + (p256P - 3) * q.1 + p256B) % p256P

/-- ECDSA verification over P-256 with SHA-256 (R466): key (X, then Y), message, signature (r, then s), each big-endian.
(PRESUMED, log 8.) -/
def ecdsaOk (key msg sig : List Byte) : Bool :=
  let q := (beNat (key.take 32), beNat ((key.drop 32).take 32))
  let r := beNat (sig.take 32)
  let s := beNat ((sig.drop 32).take 32)
  if p256On q && 1 ≤ r && r < p256N && 1 ≤ s && s < p256N then
    let w := invMod p256N s
    let e := beNat (sha256 msg)
    match p256Add (p256Mul 256 (e * w % p256N) (some p256G)) (p256Mul 256 (r * w % p256N) (some q)) with
    | some (x, _) => x % p256N == r
    | none => false
  else false

end Sys2Proof.Machine
end

