-- ==== Sys2Proof/Machine/Hearth.lean ====
section
/-! DEFINITION. The commands of Hearth (chapter 03): the physical window, handle commands, reads, writes and scrubbing, injection,
fencing and evacuation, initialisation, and statistics. -/
namespace Sys2Proof.Machine

/-! ### The physical window (R60) -/

/-- Whether a window access is held at the controller (R84). -/
def State.hmHeld (s : State) : Bool := !s.hmReady || s.is Reg.HM_STATUS_SELF_REFRESH

/-- Holds what reaches the controller before READY. (DEDUCED, log 301.) -/
def State.holdAccess (s : State) (h : Held) : State := { s with hm := { s.hm with heldAcc := s.hm.heldAcc ++ [h] } }

/-- Whether a requester gets a response to a write: a core or DEBUG does, a posted RWR does not (R60). -/
def getsResponse (o : Origin) : Bool := o != .host

/-- The words that a write of `n` bytes at physical address `a` covers only in part (R75). -/
def partialAt (a n : Nat) : List Nat :=
  if n = 0 then []
  else ((if a % 32 = 0 then [] else [a / 32 * 32]) ++ (if (a + n) % 32 = 0 then [] else [(a + n - 1) / 32 * 32])).eraseDups

/-- Whether a window write to a cell is dropped (R60). -/
def State.windowDrops (s : State) (cell : Nat) : Bool := s.cellTaken cell || s.fenced (chanOf cell)

/-- A window write that reaches Hearth (R60, R75), judged cell by cell: what falls into a cell that takes no write is dropped. A store that
reaches an unreadable channel, or covers part of an uncorrectable word, gets one error response. -/
def State.windowWriteNow (s : State) (o : Origin) (a : Nat) (bs : List Byte) (e : ReadEvent) : State :=
  let parts := cellSplits a bs.length
  let (drop, go) := parts.partition fun r => s.windowDrops (r.1 / 65536)
  let refused := drop.any fun r => s.unreadable (chanOfAddr r.1)
  let s := s.when (!drop.isEmpty) fun s => s.put Reg.HM_STATUS_RAW_WR_DROP 1
  let (s, ws) := s.readWords .rmw (go.flatMap fun r => partialAt r.1 r.2) e
  let s := go.foldl (fun s r => s.writeBut ws r.1 ((bs.drop (r.1 - a)).take r.2)) s
  s.when ((refused || !ws.isEmpty) && getsResponse o) fun s => s.emit (.error o a)

/-- A window write (R60); in the safe state the HOST path's is discarded (R448). -/
def State.windowWrite (s : State) (o : Origin) (a : Nat) (bs : List Byte) (e : ReadEvent) : State :=
  if 0x10000000 < a + bs.length || bs.isEmpty || s.is Reg.FC_STATUS_SAFE && isHostPath o then s
  else if s.hmHeld then s.holdAccess (.access o a (some bs) bs.length none)
  else s.windowWriteNow o a bs e

/-- The data of a window read goes to its requester: to a core as a response, to an RRD of tag `tag` as a CPL (R293). -/
def State.windowData (s : State) (o : Origin) (a : Nat) (tag : Option Nat) (bs : List Byte) : State :=
  match tag with
  | none => s.emit (.data o a bs)
  | some t => s.akSend (.cpl 0 t 0 bs)

/-- An error response to a window read: to an RRD a CPL with the given status. -/
def State.windowError (s : State) (o : Origin) (a : Nat) (tag : Option Nat) (status : Nat) (bs : List Byte) : State :=
  match tag with
  | none => if bs.isEmpty then s.emit (.error o a) else (s.emit (.error o a)).emit (.data o a bs)
  | some t => s.akSend (.cpl status t 0 bs)

/-- A window read that reaches Hearth (R60, R73). An RRD of which any part lies in an unreadable channel ends with CA and read data 0, one
that meets an uncorrectable word with POISON (DEDUCED, log entry 53). -/
def State.windowReadNow (s : State) (o : Origin) (a n : Nat) (tag : Option Nat) (e : ReadEvent) : State :=
  if (cellSplits a n).any fun r => s.unreadable (chanOfAddr r.1) then s.windowError o a tag 2 (List.replicate n 0#8)
  else
    let (s, ws) := s.readWords .functional (wordsOf a n) e
    if ws.isEmpty then s.windowData o a tag (loadBytes s.hm.mem a n) else s.windowError o a tag 3 []

/-- A window read (R60). -/
def State.windowRead (s : State) (o : Origin) (a n : Nat) (tag : Option Nat) (e : ReadEvent) : State :=
  if 0x10000000 < a + n || n = 0 then s
  else if s.hmHeld then s.holdAccess (.access o a none n tag)
  else s.windowReadNow o a n tag e

/-- Whether access control admits a requester to the window (Table 19.1). -/
def State.windowOpen (s : State) (o : Origin) : Bool := s.emb.main && (o != .debug || s.debugOpen)

/-- HEARTH_WINDOW_WRITE (R60). -/
def execHearthWindowWrite (o : Origin) (a : Nat) (bs : List Byte) (e : ReadEvent) (s : State) : Host.Outcome State Fault Refusal :=
  let s := s.fresh
  done (if s.windowOpen o then s.windowWrite o a bs e else s)

/-- HEARTH_WINDOW_READ (R60). -/
def execHearthWindowRead (o : Origin) (a n : Nat) (e : ReadEvent) (s : State) : Host.Outcome State Fault Refusal :=
  let s := s.fresh
  done (if s.windowOpen o then s.windowRead o a n none e else s.emit (.refused o a))

/-! ### Handle commands (R62–R65, R71) -/

/-- The command of port `n` reaches the controller (R62). (DEDUCED, log 313.) -/
def State.runHp (s : State) (n : Nat) : State :=
  match s.hm.busy.find? fun e => e.1 == n with
  | some (_, c) =>
    if c.ran then s
    else
      let (s, code) := s.runHandle n c.cmd c.sel
      { s with hm := { s.hm with busy := s.hm.busy.map fun e => if e.1 == n then (n, { c with ran := true, code }) else e } }
  | none => s

/-- An accepted write of HP_CMD_n (R62): values that Table 03.2 does not list start nothing; with BUSY the command is discarded. -/
def State.writeHpCmd (s : State) (n cmd : Nat) : State :=
  if cmd = 0 ∨ 5 < cmd then s
  else if s.is (Reg.HP_RESULT_BUSY n) then s.put (Reg.HP_RESULT_OVERRUN n) 1
  else
    let s := (s.put (Reg.HP_RESULT_BUSY n) 1).put (Reg.HP_RESULT_VALID n) 0
    let s := { s with hm := { s.hm with busy := (s.hm.busy.filter fun (e : Nat × HpCmd) => e.1 != n) ++ [(n, (⟨cmd, s.get (Reg.HP_SEL_HANDLE n), 0, false⟩ : HpCmd))] } }
    if s.hmHeld then s.holdAccess (.command n) else s.runHp n

/-- A write of a handle command by a requester. -/
def State.handleCommand (s : State) (o : Origin) (n cmd : Nat) : State :=
  s.written o (Reg.a_HP_CMD n) (BitVec.ofNat 32 cmd) fun _ is w s => s.writeHpCmd (is.headD 0) (bits w 2 0)

/-- ALLOC (R62, R63). -/
def execAlloc (o : Origin) (n : Nat) (s : State) : Host.Outcome State Fault Refusal := done (s.fresh.when (n < 3) fun s => s.handleCommand o n 1)

/-- FREE (R62, R64). -/
def execFree (o : Origin) (n : Nat) (s : State) : Host.Outcome State Fault Refusal := done (s.fresh.when (n < 3) fun s => s.handleCommand o n 2)

/-- RESET (R62). -/
def execReset (o : Origin) (n : Nat) (s : State) : Host.Outcome State Fault Refusal := done (s.fresh.when (n < 3) fun s => s.handleCommand o n 3)

/-- TRIM (R71). -/
def execTrim (o : Origin) (n : Nat) (s : State) : Host.Outcome State Fault Refusal := done (s.fresh.when (n < 3) fun s => s.handleCommand o n 4)

/-- QUERY (R62). -/
def execQuery (o : Origin) (n : Nat) (s : State) : Host.Outcome State Fault Refusal := done (s.fresh.when (n < 3) fun s => s.handleCommand o n 5)

/-- The result of the command of port `n` is latched, with the interrupt of the port (R62, Table 14.1). (DEDUCED, log 313.) -/
def State.latchHp (s : State) (n : Nat) : State :=
  match s.hm.busy.find? fun e => e.1 == n with
  | some (_, c) =>
    if c.ran then
      let s := { s with hm := { s.hm with busy := s.hm.busy.filter fun e => e.1 != n } }
      let s := (s.put (Reg.HP_RESULT_CODE n) c.code).put (Reg.HP_RESULT_VALID n) 1
      (s.put (Reg.HP_RESULT_BUSY n) 0).occur (179 + n)
    else s
  | none => s

/-- HANDLE_RESULT_LATCH (R62). -/
def execHandleResultLatch (n : Nat) (s : State) : Host.Outcome State Fault Refusal := done (s.fresh.when (n < 3) fun s => s.latchHp n)

/-! ### Reads (R73) -/

/-- Delivers a word to its reader. -/
def State.deliverWord (s : State) (a : Nat) : State := s.emit (.hmWord a (loadBytes s.hm.mem a 32))

/-- The first read of the word at `a` (Table 03.4): an uncorrectable word waits for its re-read. (DEDUCED, log 53.) -/
def State.hearthRead (s : State) (r : Reader) (a : Nat) (e : EccResult) : State :=
  let a := a / 32 * 32
  if 0x10000000 ≤ a ∨ s.hmHeld then s
  else
    let inj := s.hm.badWords.contains a || bit s.hm.injRead (chanOfAddr a)
    let e := if s.forcedDouble a then .double else e
    let s := (s.countRd (chanOfAddr a) 1).useInjRead a
    match e with
    | .clean => s.deliverWord a
    | .single pos => (s.eccCorrected r a pos).deliverWord a
    | .double => { s with hm := { s.hm with rereads := s.hm.rereads ++ [(⟨r, a, s.syndDouble, inj⟩ : Reread)] } }.tick

/-- HEARTH_READ (R73). -/
def execHearthRead (r : Reader) (a : Nat) (e : EccResult) (s : State) : Host.Outcome State Fault Refusal :=
  done (s.fresh.hearthRead r a e)

/-- The re-read of a word (Table 03.4). -/
def State.eccReread (s : State) (r : Reader) (a : Nat) (e : EccResult) : State :=
  let a := a / 32 * 32
  match s.hm.rereads.find? fun x => x.r == r && x.a == a with
  | none => s
  | some x =>
    let s := { s with hm := { s.hm with rereads := s.hm.rereads.filter fun y => !(y.r == r && y.a == a) } }
    let s := s.countRd (chanOfAddr a) 1
    let bad := s.hm.badWords.contains a || s.unreadable (chanOfAddr a)
    if bad || e == .double then s.eccLasting r a x.synd x.inj
    else (s.eccTransient r a x.synd x.inj).deliverWord a

/-- ECC_REREAD (R73). -/
def execEccReread (r : Reader) (a : Nat) (e : EccResult) (s : State) : Host.Outcome State Fault Refusal :=
  done (s.fresh.eccReread r a e)

/-- The write-back of a corrected word (R73). -/
def State.eccWriteback (s : State) (a : Nat) : State :=
  if s.hm.pendingWb.contains a then
    let s := { s with hm := { s.hm with pendingWb := s.hm.pendingWb.filter fun x => x != a } }
    s.physWrite a (loadBytes s.hm.mem a 32)
  else s

/-- ECC_WRITEBACK (R73). -/
def execEccWriteback (a : Nat) (s : State) : Host.Outcome State Fault Refusal := done (s.fresh.eccWriteback a)

/-- The acknowledgement of the `i`-th write in flight (R75, R79). -/
def State.hearthAck (s : State) (i : Nat) (e : ReadEvent) : State :=
  match s.hm.writes[i]? with
  | none => s
  | some w => ({ s with hm := { s.hm with writes := s.hm.writes.eraseIdx i } }).ackWrite w e

/-- HEARTH_WRITE_ACK (R75). -/
def execHearthWriteAck (i : Nat) (e : ReadEvent) (s : State) : Host.Outcome State Fault Refusal := done (s.fresh.hearthAck i e)

/-! ### Patrol scrubbing (R76) -/

/-- The address of the next word to scrub from word `w` on, past cells of channels fenced as unreadable. -/
def State.scrubFrom (s : State) : Nat → Nat → Option Nat
  | 0, _ => none
  | n + 1, w =>
    let a := w % 2 ^ 23 * 32
    if s.unreadable (chanOfAddr a) then s.scrubFrom n ((w / 2048 + 1) * 2048) else some a

/-- The patrol scrubber reads the next word (R76). (DEDUCED, log 318.) -/
def State.scrub (s : State) (e : ReadEvent) : State :=
  if s.get Reg.HM_CTRL_SCRUB_PERIOD = 0 ∨ s.hmHeld then s
  else match s.scrubFrom 8 s.hm.scrubAt with
    | none => s
    | some a =>
      let s := { s with hm := { s.hm with scrubAt := (a / 32 + 1) % 2 ^ 23 } }
      let lasting := s.hm.badWords.contains a || (!bit s.hm.injRead (chanOfAddr a) && e.at_ a == (.double, .double))
      if !s.cellTaken (a / 65536) && lasting then
        let s := (s.countRd (chanOfAddr a) 2).useInjRead a
        ((s.eccTransient .scrub a s.syndDouble (s.hm.badWords.contains a)).physWrite a (List.replicate 32 0#8)).tick
      else (s.readWord .scrub a e).1

/-- SCRUB_READ (R76). -/
def execScrubRead (e : ReadEvent) (s : State) : Host.Outcome State Fault Refusal := done (s.fresh.scrub e)

/-! ### Injection (R77) -/

/-- An accepted write of ECC_INJ. (DESIGN CHOICE, log 317.) -/
def State.writeEccInj (s : State) (row : RegRow) (w : Nat) : State :=
  let s := s.storeRow Reg.a_ECC_INJ row w
  let m := bits w 7 0
  if s.is Reg.ECC_INJ_STORE then { s with hm := { s.hm with injStore := s.hm.injStore ||| m } }
  else { s with hm := { s.hm with injRead := s.hm.injRead ||| m } }

/-- ECC_INJ (R77). -/
def execEccInj (o : Origin) (v : Word) (s : State) : Host.Outcome State Fault Refusal :=
  done (s.fresh.written o Reg.a_ECC_INJ v fun row _ w s => s.writeEccInj row w)

/-- An accepted write of FENCE_CFG (`hi` false) or FENCE_INJ_HI. -/
def State.writeInjPar (s : State) (hi : Bool) (row : RegRow) (w : Nat) : State :=
  if hi then { s with hm := { s.hm with injPar := s.hm.injPar ||| (bits w 3 0 * 16) } }
  else
    let s := s.storeRow Reg.a_FENCE_CFG row w
    { s with hm := { s.hm with injPar := s.hm.injPar ||| bits w 19 16 } }

/-- INJ_PAR: a write of FENCE_CFG or FENCE_INJ_HI (R77). -/
def execInjPar (o : Origin) (hi : Bool) (v : Word) (s : State) : Host.Outcome State Fault Refusal :=
  done (s.fresh.written o (if hi then Reg.a_FENCE_INJ_HI else Reg.a_FENCE_CFG) v fun row _ w s => s.writeInjPar hi row w)

/-! ### Fencing and evacuation (R77–R81) -/

/-- The pipes whose shown slots read a buffer with a cell in channel `c`. -/
def State.pipesReading (s : State) (c : Nat) : List Nat :=
  allPipes.filter fun p => allSlots.any fun k =>
    let d := declOf (s.pipe p).shown p k
    d.enable && (s.handle d.handle).cells.flatten.any fun x => chanOf x == c

/-- The unfenced channels whose cells are all usable, counted: a channel whose fence was cleared counts once it is zeroed (R80). -/
def State.usableChannels (s : State) : Nat := (s.unfenced.filter fun c => !s.hm.zeroing.contains c).length

/-- A channel is fenced (R77, R78, R81): `par` when its parity check failed. -/
def State.fenceChannel (s : State) (c : Nat) (par inj : Bool) : State :=
  let was := s.fenced c
  let s := s.orBits Reg.HM_STATUS_FENCED (2 ^ c)
  let s := if par then s.orBits Reg.HM_STATUS_UNREADABLE (2 ^ c)
    else { s with hm := { s.hm with wordFenced := setBit s.hm.wordFenced c true } }
  let s := (s.channelReported c).fault (if par then .HM_CH_CTRL else .HM_CH_FENCE) inj
  if was then s
  else
    let s := (s.pipesReading c).foldl (fun s p => s.bankExit p) s
    let s := forAll allPipes (fun p s => s.discardRun p fun l => l.words.any fun a => chanOfAddr a == c) s
    let s := s.changeCapacity fun s => s.put Reg.CAPACITY_HEARTH_CH s.usableChannels
    let s := s.evacCheck [c]
    s.when (s.unfenced.length < 4) fun s => s.faultHeld .HM_DEGRADED

/-- CHANNEL_FENCE: the word threshold of channel `c` is reached, or its parity check fails (R77). (DEDUCED, log 310.) -/
def State.channelFence (s : State) (c : Nat) (par : Bool) : State :=
  if 8 ≤ c then s
  else if par then
    let inj := bit s.hm.injPar c
    let s := { s with hm := { s.hm with injPar := setBit s.hm.injPar c false } }
    if s.unreadable c then s else s.fenceChannel c true inj
  else
    let thr := s.get Reg.FENCE_CFG_THR
    if thr = 0 ∨ s.fenced c ∨ (s.pruneUncorr c).length < thr then s else s.fenceChannel c false false

/-- CHANNEL_FENCE (R78). -/
def execChannelFence (c : Nat) (par : Bool) (s : State) : Host.Outcome State Fault Refusal := done (s.fresh.when (c < 8) fun s => s.channelFence c par)

/-- Whether a handle belongs to a T1 layer of a shown or pending state. -/
def State.isT1Buf (s : State) (h : Nat) : Bool :=
  (occs (s.world [])).any fun o => o.d.handle == h && o.d.t1

/-- The rank of a buffer in evacuation (R78): buffers that a shown or pending commit names go first, T1 before T2. -/
def State.evacRank (s : State) (h : Nat) : Nat :=
  let named := (occs (s.world [])).any fun o => o.d.handle == h
  if named && s.isT1Buf h then 0 else if named then 1 else 2

/-- Where a cell stands in a handle: the plane and the entry. -/
def Handle.place (h : Handle) (cell : Nat) : Option (Nat × Nat) :=
  (h.cells.zipIdx).findSome? fun pl => ((pl.1.zipIdx).find? fun e => e.1 == cell).map fun e => (pl.2, e.2)

/-- The next cell of channel `c` to move: by rank, then by handle, plane and entry; its handle and its number. (DEDUCED, log 304.) -/
def State.nextEvac (s : State) (c : Nat) : Option (Nat × Nat) :=
  [0, 1, 2].findSome? fun r => s.hm.handles.findSome? fun e =>
    match e.2.cells.flatten.find? fun x => chanOf x == c with
    | none => none
    | some cell => if s.evacRank e.1 = r then some (e.1, cell) else none

/-- Copies the listed bytes of one cell to another; the target reads as the source. (DEDUCED, log 304.) -/
def State.copyCell (s : State) (src dst : Nat) (skip : Nat → Bool) : State :=
  let moved := (s.hm.mem.filter fun x => src * 65536 ≤ x.1 && x.1 < (src + 1) * 65536 && !skip (x.1 / 32 * 32)).map fun x =>
    (x.1 - src * 65536 + dst * 65536, x.2)
  let keep := s.hm.mem.filter fun x =>
    x.1 < dst * 65536 || (dst + 1) * 65536 ≤ x.1 || skip ((x.1 - dst * 65536 + src * 65536) / 32 * 32)
  { s with hm := { s.hm with mem := moved.foldl (fun m x => SMap.set memDefault m x.1 x.2) keep } }

/-- The check bits after whole words of a cell were written, but for those to `skip`: they become clean, and an armed store injection of the
channel strikes the first of them (R77). -/
def State.cellStored (s : State) (cell : Nat) (skip : Nat → Bool) : State :=
  let here := fun w => cell * 65536 ≤ w && w < (cell + 1) * 65536 && !skip w
  let bad := s.hm.badWords.filter fun w => !here w
  let c := chanOf cell
  match if bit s.hm.injStore c then (wordsOf (cell * 65536) 65536).find? here else none with
  | some w => { s with hm := { s.hm with injStore := setBit s.hm.injStore c false, badWords := w :: bad } }
  | none => { s with hm := { s.hm with badWords := bad } }

/-- Slots that show buffer `h` take the outcome of R74 from the next frame boundary. -/
def State.failSlots (s : State) (h : Nat) : State :=
  forAll allPipes (fun p s => forAll allSlots (fun k s =>
    if imgNames (s.pipe p).shown p k h then s.modPipe p fun x => x.setSlot k { x.slot k with failNext := true } else s) s) s

/-- One cell moves (R78, R79): content is copied unless the buffer is EMPTY, FILLING or RELEASED; the handle's entry switches, and a
write of a FILLING buffer still outstanding on the old cell will be acknowledged with an error. (DEDUCED, log 304.) -/
def State.moveCell (s : State) (h cell new : Nat) (e : ReadEvent) : State :=
  let x := s.handle h
  let copy := match x.st with
    | .empty | .filling | .released => false
    | _ => true
  let s :=
    if copy then
      let (s, bad) := s.readWords .functional (wordsOf (cell * 65536) 65536) e
      let skip := fun a => bad.contains a
      let s := s.countWr (chanOf new) (2048 - bad.length)
      let s := (s.copyCell cell new skip).cellStored new fun a => skip (a - new * 65536 + cell * 65536)
      s.when (!bad.isEmpty) fun s => s.failSlots h
    else s.wroteInVain fun u => u.cell == cell
  let y := s.handle h
  let s := s.setHandle h { y with cells := y.cells.map fun cs => cs.map fun k => if k = cell then new else k }
  match x.place cell with
  | none => s
  | some (pl, i) =>
    { s with hm := { s.hm with writes := s.hm.writes.map fun w =>
        if w.handle == h && w.plane == pl && w.off < (i + 1) * 65536 && i * 65536 < w.off + w.bytes.length
        then { w with stale := true } else w } }

/-- EVAC_CELL_MOVE: one cell of fenced channel `c` moves, when a free cell exists (R78). -/
def State.evacMove (s : State) (c : Nat) (e : ReadEvent) : State :=
  if !s.fenced c then s
  else match s.nextEvac c with
    | none => s
    | some (h, cell) =>
      let held := s.heldCells
      match s.startChannel held with
      | none => s
      | some ch =>
        match s.nextCell held (cycleFrom s.unfenced ch) with
        | none => s
        | some (_, new) => (s.moveCell h cell new e).evacCheck [c]

/-- EVAC_CELL_MOVE (R78, R79). -/
def execEvacCellMove (c : Nat) (e : ReadEvent) (s : State) : Host.Outcome State Fault Refusal := done (s.fresh.when (c < 8) fun s => s.evacMove c e)

/-- Whether the LATCHED bit of every fault that fenced channel `c` is 0 (R442). (DEDUCED, log 609.) -/
def State.fenceCleared (s : State) (c : Nat) : Bool :=
  (!bit s.hm.wordFenced c || s.cleared .HM_CH_FENCE) && (!s.unreadable c || s.cleared .HM_CH_CTRL)

/-- Whether the fence of channel `c` may be cleared (R80, R442). -/
def State.mayUnfence (s : State) (c : Nat) : Bool :=
  s.fenced c && (s.cellsIn c).isEmpty && !s.hm.zeroing.contains c && s.fenceCleared c &&
    SMap.get 0 s.hm.quietFrom c + 2 ^ s.get Reg.FENCE_CFG_WIN ≤ s.orbit.orbits

/-- An accepted write of HEARTH STATUS (R60, R80). -/
def State.writeHmStatus (s : State) (w : Nat) : State :=
  let s := s.when (bit w 4) fun s => s.put Reg.HM_STATUS_RAW_WR_DROP 0
  (allSlots.filter fun c => bit w (16 + c)).foldl (fun s c =>
    if s.mayUnfence c then
      let s := (s.clrBits Reg.HM_STATUS_FENCED (2 ^ c)).clrBits Reg.HM_STATUS_UNREADABLE (2 ^ c)
      let s := { s with hm := { s.hm with zeroing := c :: s.hm.zeroing, wordFenced := setBit s.hm.wordFenced c false } }
      s.put Reg.HM_STATUS_INIT_BUSY 1
    else s) s

/-- FENCE_CLEAR: a write of HEARTH STATUS (R80). -/
def execFenceClear (o : Origin) (v : Word) (s : State) : Host.Outcome State Fault Refusal :=
  done (s.fresh.written o Reg.a_HM_STATUS v fun _ _ w s => s.writeHmStatus w)

/-- The zero-initialisation of channel `c` completes (R80). -/
def State.zeroDone (s : State) (c : Nat) : State :=
  if !s.hm.zeroing.contains c then s
  else
    let z := s.hm.zeroing.filter fun x => x != c
    let s := { s with hm := { s.hm with zeroing := z, mem := s.hm.mem.filter fun x => chanOfAddr x.1 != c,
                                        badWords := s.hm.badWords.filter fun a => chanOfAddr a != c,
                                        uncorr := SMap.set [] s.hm.uncorr c [] } }
    let s := s.cellStored c fun _ => false
    let s := s.put Reg.HM_STATUS_INIT_BUSY (b2n (!z.isEmpty))
    let s := s.when (4 ≤ s.usableChannels) fun s => s.condEnds .HM_DEGRADED
    s.changeCapacity fun s => s.put Reg.CAPACITY_HEARTH_CH s.usableChannels

/-- CHANNEL_ZERO_INIT_DONE (R80). -/
def execChannelZeroInitDone (c : Nat) (s : State) : Host.Outcome State Fault Refusal := done (s.fresh.when (c < 8) fun s => s.zeroDone c)

/-! ### Cold initialisation (R84) -/

/-- The accesses and handle commands held before READY are performed in the order in which they reached the controller (R62, R84).
(DEDUCED, log 301.) -/
def State.runHeld (s : State) : State :=
  let hs := s.hm.heldAcc
  let s := { s with hm := { s.hm with heldAcc := [] } }
  hs.foldl (fun s h =>
    match h with
    | .access o a (some bs) _ _ => s.windowWriteNow o a bs .clean
    | .access o a none n tag => s.windowReadNow o a n tag .clean
    | .command n => s.runHp n) s

/-- Hearth becomes usable: READY, and what the controller held is performed. -/
def State.hearthReady (s : State) : State := ((s.put Reg.HM_STATUS_READY 1).put Reg.HM_STATUS_INIT_BUSY 0).runHeld

/-- Cold initialisation completes (R84): with the main domain out of reset and the Hearth PLL locked, on a Hearth that is not READY.
(DEDUCED, log 308.) -/
def State.coldInit (s : State) : State :=
  if s.hmReady || !s.emb.main || s.get (Reg.PLL_STATUS_STATE 13) < 6 then s
  else
    let s := { s with hm := { s.hm with mem := [], badWords := [], handles := [], pendingWb := [], rereads := [], unsealed := [] } }
    s.hearthReady

/-- HEARTH_COLD_INIT_DONE (R84). -/
def execHearthColdInitDone (s : State) : Host.Outcome State Fault Refusal := done s.fresh.coldInit

/-! ### Statistics (R85) -/

/-- Latches or clears the slot and channel counters of the window (SL_FETCH, SL_CULL, R112; CH_STAT, R228). -/
def State.statUnits (s : State) (latch : Bool) : State :=
  let s := forAll allPipes (fun p s => forAll allSlots (fun k s =>
    let x := (s.pipe p).slot k
    let s := (s.put (Reg.SL_FETCH_WORDS p k) (if latch then x.fetch else 0)).put (Reg.SL_CULL_WORDS p k) (if latch then x.cull else 0)
    s.modPipe p fun t => t.setSlot k { t.slot k with fetch := 0, cull := 0 }) s) s
  forAll (rangeFrom 0 112) (fun c s =>
    let x := s.chan c
    let s := (s.put (Reg.CH_STAT_BYTES_KIB c) (if latch then x.statBytes / 1024 else 0)).put (Reg.CH_STAT_SPEC_KIB c)
      (if latch then x.statSpec / 1024 else 0)
    s.setChan c { s.chan c with statBytes := 0, statSpec := 0 }) s

/-- A statistics window ends: the counters latch together and restart, unless frozen (R85). (DEDUCED, log 312.) -/
def State.statWindow (s : State) : State :=
  if s.hm.winOrbits < max 1 (s.get Reg.STAT_CTRL_WINDOW) ∨ s.is Reg.STAT_CTRL_FREEZE then s
  else
    let s := forAll allSlots (fun c s =>
      let s := (s.put (Reg.STAT_RD_WORDS c) (SMap.get 0 s.hm.rdRun c)).put (Reg.STAT_WR_WORDS c) (SMap.get 0 s.hm.wrRun c)
      (s.put (Reg.STAT_SPEC_RD_WORDS c) (SMap.get 0 s.hm.specRd c)).put (Reg.STAT_SPEC_WR_WORDS c) (SMap.get 0 s.hm.specWr c)) s
    { s with hm := { s.hm with rdRun := [], wrRun := [], specRd := [], specWr := [], winOrbits := 0 } }.statUnits true

/-- STAT_WINDOW_END (R85). -/
def execStatWindowEnd (s : State) : Host.Outcome State Fault Refusal := done s.fresh.statWindow

/-- An accepted write of STAT_CTRL: with CLEAR every counter is cleared (R85). -/
def State.writeStatCtrl (s : State) (row : RegRow) (w : Nat) : State :=
  let s := s.storeRow Reg.a_STAT_CTRL row w
  if !bit w 9 then s
  else
    let s := forAll allSlots (fun c s =>
      let s := (s.put (Reg.STAT_RD_WORDS c) 0).put (Reg.STAT_WR_WORDS c) 0
      let s := (s.put (Reg.STAT_SPEC_RD_WORDS c) 0).put (Reg.STAT_SPEC_WR_WORDS c) 0
      (s.put (Reg.STAT_ERR_CORR c) 0).put (Reg.STAT_ERR_UNCORR c) 0) s
    { s with hm := { s.hm with rdRun := [], wrRun := [], specRd := [], specWr := [] } }.statUnits false

/-- STAT_CLEAR: a write of STAT_CTRL (R85). -/
def execStatClear (o : Origin) (v : Word) (s : State) : Host.Outcome State Fault Refusal :=
  done (s.fresh.written o Reg.a_STAT_CTRL v fun row _ w s => s.writeStatCtrl row w)

end Sys2Proof.Machine
end

