-- ==== Sys2Proof/Machine/DecPics.lean ====
section
/-! DEFINITION. Decoded pictures: their samples and how a DPB entry or a ring buffer holds them (R238, R239), the concealment of a part (R246), the
decoded picture hash (R249), and the output order of Annex C.5.2 (R229). H.265 and RFC 1321 give the hashes and the bumping, which this
spec only names. -/
namespace Sys2Proof.Machine

/-! ### Samples (R238, R239, R245, R246) -/

/-- A sample of component `k` at bit depth `d` by its place in the coded picture. -/
def Pix.sample : Pix → Nat → Nat → Nat → Nat → Nat
  | .grey, d, _, _, _ => 2 ^ (d - 1)
  | .coded n, d, k, y, x => Config.decodedSample n k y x % 2 ^ d
  | .patch b u c w lost, d, k, y, x =>
    let sub := if k = 0 then 1 else 2
    if lost.contains (y * sub / c * cdiv w c + x * sub / c) then u.sample d k y x else b.sample d k y x

/-- The bit depth of component `k` (0 luma, 1 Cb, 2 Cr). -/
def DecPic.depth (q : DecPic) (k : Nat) : Nat := if k = 0 then q.dy else q.dc

/-- How many luma samples a sample of component `k` stands for in each direction. -/
def subOf (k : Nat) : Nat := if k = 0 then 1 else 2

/-- A sample by its place in the coded picture. -/
def DecPic.coded (q : DecPic) (k y x : Nat) : Nat := q.src.sample (q.depth k) k y x

/-- A sample by its place in the conformance window (R239). -/
def DecPic.sample (q : DecPic) (k y x : Nat) : Nat := q.coded k (y + q.cy / subOf k) (x + q.cx / subOf k)

/-- The bytes of a sample `v` of depth `d`: a byte of format 0x10; a 16-bit word of format 0x11 with the sample in [15:6], an 8-bit sample shifted
left by 2 and the low bits free (R239). `n` is the counter of the write. (DEDUCED, log 901.) -/
def decSampleBytes (deep : Bool) (d v n k y x : Nat) : List Byte :=
  if !deep then leBytes 1 (if d = 8 then v else Config.motionByte n (2 ^ 32 + v))
  else leBytes 2 ((if d = 8 then v * 4 else v) * 64 + Config.decodedPad n k y x % 64)

/-- Row `y` of component plane 0 (luma) or 1 (chroma pairs) of `w` luma columns, each sample given by `f`. -/
def decRowBytes (q : DecPic) (deep : Bool) (n w pl y : Nat) (f : Nat → Nat → Nat → Nat) : List Byte :=
  if pl = 0 then (rangeFrom 0 w).flatMap fun x => decSampleBytes deep q.dy (f 0 y x) n 0 y x
  else (rangeFrom 0 (w / 2)).flatMap fun x => decSampleBytes deep q.dc (f 1 y x) n 1 y x ++ decSampleBytes deep q.dc (f 2 y x) n 2 y x

/-- The rows of a picture in its ring buffer, as (plane, offset, bytes) (R239). -/
def DecPic.rows (q : DecPic) (n stride0 stride1 : Nat) : List (Nat × Nat × List Byte) :=
  let deep := q.dy != 8 || q.dc != 8
  ((rangeFrom 0 q.h).map fun y => (0, y * stride0, decRowBytes q deep n q.w 0 y q.sample)) ++
    (rangeFrom 0 (q.h / 2)).map fun y => (1, y * stride1, decRowBytes q deep n q.w 1 y q.sample)

/-! ### DPB entries in Hearth (R238) -/

/-- The cells of one entry of session `i`: luma, chroma and motion records (R238, R241). -/
def State.entryPlanes (s : State) (i : Nat) : List Nat :=
  let p := s.get (Reg.DS_GEOM_W i) * s.get (Reg.DS_GEOM_H i)
  let q := if s.is (Reg.DS_PARAM_DEPTH i) then 2 else 1
  [p * q, p * q / 2, cdiv p 16]

/-- The cells of plane `pl` of entry `e` of session `i`. -/
def State.entryCells (s : State) (i e pl : Nat) : List Nat :=
  let ns := (s.entryPlanes i).map fun z => cdiv z 65536
  ((SMap.get [] s.hm.codecCells i).drop (e * sumNat ns + sumNat (ns.take pl))).take (ns.getD pl 0)

/-- Writes bytes of a DPB entry. -/
def State.entryWrite (s : State) (i e pl off : Nat) (bs : List Byte) : State := s.cellsWrite (s.entryCells i e pl) off bs

/-- A picture is written into its DPB entry: luma and chroma in format 0x10 or 0x11 at stride W or 2W, and its motion records (R238).
(DEDUCED, log 902.) -/
def State.writeEntry (s : State) (i : Nat) (q : DecPic) : State :=
  match q.slot with
  | none => s
  | some e =>
    let deep := s.is (Reg.DS_PARAM_DEPTH i)
    let stride := s.get (Reg.DS_GEOM_W i) * (if deep then 2 else 1)
    let s := s.tick
    let n := s.freeCtr
    let s := (rangeFrom 0 q.ch).foldl (fun s y => s.entryWrite i e 0 (y * stride) (decRowBytes q deep n q.cw 0 y q.coded)) s
    let s := (rangeFrom 0 (q.ch / 2)).foldl (fun s y => s.entryWrite i e 1 (y * stride) (decRowBytes q deep n q.cw 1 y q.coded)) s
    s.entryWrite i e 2 0 ((rangeFrom 0 (16 * cdiv q.cw 16 * cdiv q.ch 16)).map fun b => BitVec.ofNat 8 (Config.motionByte n b))

/-- The words of an entry that a picture of it takes up, luma and chroma (R238). -/
def State.entryWords (s : State) (i : Nat) (q : DecPic) : List Nat :=
  match q.slot with
  | none => []
  | some e =>
    let stride := s.get (Reg.DS_GEOM_W i) * (if s.is (Reg.DS_PARAM_DEPTH i) then 2 else 1)
    cellsWords (s.entryCells i e 0) 0 (stride * q.ch) ++ cellsWords (s.entryCells i e 1) 0 (stride * (q.ch / 2))

/-- The DPB entry of session `i` that a cell belongs to. -/
def State.entryOf (s : State) (i cell : Nat) : Option Nat :=
  let n := sumNat ((s.entryPlanes i).map fun z => cdiv z 65536)
  let cs := SMap.get [] s.hm.codecCells i
  if cs.contains cell then some (cs.idxOf cell / max 1 n) else none

/-! ### Concealment (R245, R246, R250) -/

/-- The picture nearest to a POC in output order, the lower POC winning a tie (R245). -/
def nearestPic (dpb : List DecPic) (poc : Int) : Option DecPic :=
  dpb.foldl (fun (b : Option DecPic) q =>
    match b with
    | none => some q
    | some r =>
      let dq := (q.poc - poc).natAbs
      let dr := (r.poc - poc).natAbs
      if dq < dr || (dq == dr && q.poc < r.poc) then some q else some r) none

/-- The samples that conceal a picture of a POC: those of the nearest picture, or mid-grey (R245). -/
def concealSrc (dpb : List DecPic) (poc : Int) : Pix :=
  match nearestPic dpb poc with
  | some q => q.src
  | none => .grey

/-- A picture whose CTUs `lost` were filled from the picture chosen as in R245, and which is tainted for it (R246). -/
def DecPic.conceal (q : DecPic) (dpb : List DecPic) (lost : List Nat) : DecPic :=
  if lost.isEmpty then q
  else { q with src := .patch q.src (concealSrc dpb q.poc) (max 1 q.ctb) q.cw lost, taint := true }

/-- The pictures of a DPB whose entries `es` met an uncorrectable word are concealed and tainted (R250). -/
def concealEntries (dpb : List DecPic) (es : List Nat) : List DecPic :=
  dpb.map fun q =>
    if q.slot.any fun e => es.contains e then
      { q with src := concealSrc (dpb.filter fun r => r.slot != q.slot) q.poc, taint := true }
    else q

/-! ### Bumping (R229, Annex C.5.2; PRESUMED, log 912) -/

/-- Whether a picture precedes another in output order: by sequence, then by POC. -/
def DecPic.before (q r : DecPic) : Bool := q.seq < r.seq || (q.seq == r.seq && q.poc < r.poc)

/-- The first picture in output order. -/
def firstOut (qs : List DecPic) : Option DecPic :=
  qs.foldl (fun (b : Option DecPic) q =>
    match b with
    | none => some q
    | some r => if q.before r then some q else some r) none

/-- The pictures that await output and that bumping has not taken. -/
def unbumped (dpb : List DecPic) : List DecPic := dpb.filter fun q => q.waiting && !q.bumped

/-- Bumping takes the first of them. -/
def bumpOne (dpb : List DecPic) : List DecPic :=
  match firstOut (unbumped dpb) with
  | some r => dpb.map fun q => if q.seq == r.seq && q.poc == r.poc then { q with bumped := true } else q
  | none => dpb

/-- Every picture that awaits output is taken. -/
def bumpAll (dpb : List DecPic) : List DecPic := dpb.map fun q => if q.waiting then { q with bumped := true } else q

/-- Bumping repeats while the reorder or latency limit is passed, or the DPB is full; `n` bounds the steps. (PRESUMED, log 912.) -/
def bumpWhile (limits : Nat × Nat × Nat) (full : Bool) : Nat → List DecPic → List DecPic
  | 0, dpb => dpb
  | n + 1, dpb =>
    let us := unbumped dpb
    let held := dpb.filter fun q => q.isRef || (q.waiting && !q.bumped)
    if !us.isEmpty && (limits.1 < us.length || (limits.2.1 != 0 && us.any fun q => limits.2.1 ≤ q.late) ||
        (full && limits.2.2 ≤ held.length)) then bumpWhile limits full n (bumpOne dpb)
    else dpb

/-- A picture enters the DPB (C.5.2.3): those that follow it in output order have waited longer, and bumping goes on.
(PRESUMED, log 912.) -/
def enterDpb (limits : Nat × Nat × Nat) (dpb : List DecPic) (q : DecPic) : List DecPic :=
  let dpb := if q.waiting then dpb.map fun r => if r.waiting && q.before r then { r with late := r.late + 1 } else r else dpb
  let dpb := dpb ++ [q]
  bumpWhile limits false dpb.length dpb

/-! ### The decoded picture hash (R249; PRESUMED, log 913) -/

/-- The shift amounts of MD5. -/
def md5S : List Nat :=
  let r := fun xs : List Nat => xs ++ xs ++ xs ++ xs
  r [7, 12, 17, 22] ++ r [5, 9, 14, 20] ++ r [4, 11, 16, 23] ++ r [6, 10, 15, 21]

/-- The constants of MD5, in four rounds. -/
def md5K : List Nat :=
  [0xd76aa478, 0xe8c7b756, 0x242070db, 0xc1bdceee, 0xf57c0faf, 0x4787c62a, 0xa8304613, 0xfd469501, 0x698098d8, 0x8b44f7af, 0xffff5bb1,
    0x895cd7be, 0x6b901122, 0xfd987193, 0xa679438e, 0x49b40821] ++
  [0xf61e2562, 0xc040b340, 0x265e5a51, 0xe9b6c7aa, 0xd62f105d, 0x02441453, 0xd8a1e681, 0xe7d3fbc8, 0x21e1cde6, 0xc33707d6, 0xf4d50d87,
    0x455a14ed, 0xa9e3e905, 0xfcefa3f8, 0x676f02d9, 0x8d2a4c8a] ++
  [0xfffa3942, 0x8771f681, 0x6d9d6122, 0xfde5380c, 0xa4beea44, 0x4bdecfa9, 0xf6bb4b60, 0xbebfbc70, 0x289b7ec6, 0xeaa127fa, 0xd4ef3085,
    0x04881d05, 0xd9d4d039, 0xe6db99e5, 0x1fa27cf8, 0xc4ac5665] ++
  [0xf4292244, 0x432aff97, 0xab9423a7, 0xfc93a039, 0x655b59c3, 0x8f0ccc92, 0xffeff47d, 0x85845dd1, 0x6fa87e4f, 0xfe2ce6e0, 0xa3014314,
    0x4e0811a1, 0xf7537e82, 0xbd3af235, 0x2ad7d2bb, 0xeb86d391]

/-- One step of MD5 on the words `m` of a block. -/
def md5Step (m : List Nat) (v : Nat × Nat × Nat × Nat) (i : Nat) : Nat × Nat × Nat × Nat :=
  let (a, b, c, d) := v
  let no := fun x : Nat => 0xFFFFFFFF - x
  let (f, g) := match i / 16 with
    | 0 => ((b &&& c) ||| (no b &&& d), i)
    | 1 => ((d &&& b) ||| (no d &&& c), (5 * i + 1) % 16)
    | 2 => (b ^^^ c ^^^ d, (3 * i + 5) % 16)
    | _ => (c ^^^ (b ||| no d), 7 * i % 16)
  let t := (a + f + md5K.getD i 0 + m.getD g 0) % 2 ^ 32
  let n := md5S.getD i 0
  (d, (b + (t * 2 ^ n % 2 ^ 32 + t / 2 ^ (32 - n))) % 2 ^ 32, b, c)

/-- MD5 over blocks of 64 bytes. -/
def md5Blocks : Nat → Nat × Nat × Nat × Nat → List Byte → Nat × Nat × Nat × Nat
  | 0, v, _ => v
  | n + 1, v, bs =>
    if bs.isEmpty then v
    else
      let m := (rangeFrom 0 16).map fun i => leNat ((bs.drop (4 * i)).take 4)
      let w := (rangeFrom 0 64).foldl (md5Step m) v
      let s := fun x y : Nat => (x + y) % 2 ^ 32
      md5Blocks n (s v.1 w.1, s v.2.1 w.2.1, s v.2.2.1 w.2.2.1, s v.2.2.2 w.2.2.2) (bs.drop 64)

/-- The MD5 digest of bytes, as the number its bytes spell, the first one highest. (PRESUMED, log 913.) -/
def md5 (bs : List Byte) : Nat :=
  let p := bs ++ [0x80#8] ++ List.replicate ((119 - bs.length % 64) % 64) 0#8 ++ leBytes 8 (8 * bs.length)
  let (a, b, c, d) := md5Blocks (p.length / 64 + 1) (0x67452301, 0xefcdab89, 0x98badcfe, 0x10325476) p
  ((leBytes 4 a ++ leBytes 4 b ++ leBytes 4 c ++ leBytes 4 d).foldl (fun n x => n * 256 + x.toNat) 0)

/-- The samples of component `k` in raster order, with their line and column. -/
def DecPic.raster (q : DecPic) (k : Nat) : List (Nat × Nat × Nat) :=
  (rangeFrom 0 (q.ch / subOf k)).flatMap fun y => (rangeFrom 0 (q.cw / subOf k)).map fun x => (y, x, q.coded k y x)

/-- The bytes that a hash of component `k` covers: one a sample, two above 8 bits. -/
def DecPic.hashBytes (q : DecPic) (k : Nat) : List Byte :=
  (q.raster k).flatMap fun v => leBytes (if 8 < q.depth k then 2 else 1) v.2.2

/-- The picture CRC: polynomial 0x1021, 16 zero bits after the data. (PRESUMED, log 913.) -/
def pictureCrc (bs : List Byte) : Nat :=
  ((bs ++ [0#8, 0#8]).flatMap fun b => (rangeFrom 0 8).map fun i => bits b.toNat (7 - i) (7 - i)).foldl (fun c v =>
    (((c * 2 + v) % 65536) ^^^ (bits c 15 15 * 0x1021))) 0xFFFF

/-- The picture checksum of component `k`. (PRESUMED, log 913.) -/
def DecPic.checksum (q : DecPic) (k : Nat) : Nat :=
  (q.raster k).foldl (fun c v =>
    let (y, x, p) := v
    let m := (x % 256) ^^^ (y % 256) ^^^ (x / 256 % 256) ^^^ (y / 256 % 256)
    let c := (c + ((p % 256) ^^^ m)) % 2 ^ 32
    if 8 < q.depth k then (c + ((p / 256) ^^^ m)) % 2 ^ 32 else c) 0

/-- The hash of component `k` of a picture, computed over the full decoded picture before cropping (R249). (PRESUMED, log 913.) -/
def DecPic.hashOf (q : DecPic) (kind k : Nat) : Nat :=
  match kind with
  | 0 => md5 (q.hashBytes k)
  | 1 => pictureCrc (q.hashBytes k)
  | _ => q.checksum k

/-- Whether a picture matches a hash SEI. -/
def DecPic.matchesHash (q : DecPic) (h : PicHash) : Bool := q.hashOf h.kind 0 == h.y && q.hashOf h.kind 1 == h.cb && q.hashOf h.kind 2 == h.cr

end Sys2Proof.Machine
end

