-- ==== Sys2Proof/Machine/Decoder.lean ====
section
/-! DEFINITION. The commands of the decoder (chapter 09): sessions, the start and the end of a picture, concealment and taint, output to
the ring, the watchdog and injection. The parse of the bitstream comes with the command; decoded samples are free values. -/
namespace Sys2Proof.Machine

/-- Records the last decoder fault (DEC_ERR_INFO) and reports it. -/
def State.decFault (s : State) (f : FaultId) (n i : Nat) (inj : Bool) : State :=
  ((s.put Reg.DEC_ERR_INFO_SESSION i).put Reg.DEC_ERR_INFO_FAULT n).fault f inj

/-! ### Sessions (R232–R234) -/

/-- The largest DPB of Table 09.2 for a picture of `p` luma samples. -/
def maxDpb (p : Nat) : Nat :=
  if 3 * 8912896 < 4 * p then 6 else if 8912896 < 2 * p then 8 else if 8912896 < 4 * p then 12 else 16

/-- The number of ring entries of session `i` (R239). -/
def State.ringCount (s : State) (i : Nat) : Nat := max 1 (s.get (Reg.DS_CFG_COUNT i))

/-- The handle of ring entry `j` of session `i`. -/
def State.ringHandle (s : State) (i j : Nat) : Nat :=
  match j with
  | 0 => s.get (Reg.DS_OUT_HANDLE_H0 i)
  | 1 => s.get (Reg.DS_OUT_HANDLE_H1 i)
  | _ => s.get (Reg.DS_OUT_HANDLE_H2 i)

/-- Whether ring handle `h` of session `i` fits (R239, reason 0x06). (DEDUCED, log 906.) -/
def State.ringOk (s : State) (i h : Nat) : Bool :=
  let x := s.handle h
  let q := if s.is (Reg.DS_PARAM_DEPTH i) then 2 else 1
  let a := s.get (Reg.DS_OUT_STRIDE_STRIDE0 i)
  let b := s.get (Reg.DS_OUT_STRIDE_STRIDE1 i)
  let w := s.get (Reg.DS_GEOM_W i)
  let rows := s.get (Reg.DS_GEOM_H i)
  x.alloc && x.owner == s.owner unitDecoder && x.st != .faulted && a % 32 == 0 && b % 32 == 0 && w * q ≤ a && w * q ≤ b &&
    a * rows ≤ x.sizes.getD 0 0 && b * (rows / 2) ≤ x.sizes.getD 1 0

/-- The parameter reasons of Table 09.2, first one first. -/
def State.decReason (s : State) (i : Nat) : Option Nat :=
  let w := s.get (Reg.DS_GEOM_W i)
  let h := s.get (Reg.DS_GEOM_H i)
  let n := s.get (Reg.DS_PARAM_DPB i)
  let r := s.get (Reg.DS_RATE_MHZ i)
  let b := s.get (Reg.DS_KBPS_KBPS i)
  let l := s.get (Reg.DS_LAYER_LAYER_ID i)
  if s.get (Reg.DS_STATUS_STATE i) ≠ 0 ∨ s.is Reg.DEC_STATUS_FENCED = true then some 1
  else if w = 0 ∨ h = 0 ∨ w % 2 = 1 ∨ h % 2 = 1 ∨ 8192 < w ∨ 4352 < h ∨ 8912896 < w * h then some 2
  else if n = 0 ∨ maxDpb (w * h) < n then some 3
  else if r < 1000 ∨ 300000 < r ∨ 534773760 * 1000 < w * h * r ∨ b = 0 ∨ 160000 < b then some 4
  else if 2000000000 * 1000 < w * h * r + sumNat (s.openDec.map fun j => s.decP j * s.get (Reg.DS_RATE_MHZ j)) then some 5
  else if (rangeFrom 0 (s.ringCount i)).any fun j => !s.ringOk i (s.ringHandle i j) then some 6
  else if s.is (Reg.DS_LAYER_BIND i) && s.openDec.any fun j => s.is (Reg.DS_LAYER_BIND j) && s.get (Reg.DS_LAYER_LAYER_ID j) == l then some 7
  else none

/-- The planes of the n + 1 DPB entries of session `i` (R238, R241). -/
def State.decPlanes (s : State) (i : Nat) : List Nat := (List.replicate (s.get (Reg.DS_PARAM_DPB i) + 1) (s.entryPlanes i)).flatten

/-- OPEN (R232): the result code, the detail, and on ACCEPT the reservation and WAIT_IRAP. (DESIGN CHOICE, log 903.) (DEDUCED, log 914.) -/
def State.decOpen (s : State) (i : Nat) : State × Nat × Nat :=
  match s.decReason i with
  | some r => (s, 1, r)
  | none =>
    let t := (s.put (Reg.DS_STATUS_STATE i) 1).refreshDec
    match (t.figures t.orbit.sheds (t.world [])).check 0, s.placePlanes s.heldCells (s.decPlanes i) with
    | some r, _ => (s, r.code, r.detail % 2 ^ 32)
    | none, none => (s, 3, s.cellsShort (s.decPlanes i))
    | none, some cells =>
      let t := { t with hm := { t.hm with codecCells := SMap.set [] t.hm.codecCells i cells.flatten } }
      ((t.setDses i { busy := (s.dses i).busy }).refreshDec.refreshAdm, 0, 0)

/-- Whether nothing of session `i` is being decoded, written or awaits output. -/
def DecSes.quiet (x : DecSes) : Bool := x.cur.isNone && x.writing.isNone && !(x.dpb.any fun q => q.waiting)

/-- A DRAINING session becomes CLOSED, and a FLUSH completes, once nothing awaits output (Table 09.3, R234). (DEDUCED, log 908.) -/
def State.decSettle (s : State) (i : Nat) : State :=
  let x := s.dses i
  if !x.quiet then s
  else if s.get (Reg.DS_STATUS_STATE i) = 3 then ((s.closeDec i).refreshDec).refreshAdm
  else if x.flushing then (s.setDses i { x with flushing := false, dpb := [] }).put (Reg.DS_STATUS_STATE i) 1
  else s

/-- The picture being decoded is given up. -/
def State.dropPicture (s : State) (i : Nat) : State :=
  let x := s.dses i
  if x.cur.isNone then s else (s.setDses i { x with cur := none }).put Reg.DEC_STATUS_BUSY 0

/-- Decoder channels that wait on port `i` feed it (R236). -/
def State.feedPort (s : State) (i : Nat) : State :=
  forAll (rangeFrom 96 16) (fun c s =>
    match (s.chan c).cur with
    | some u => if u.d.codec && !u.d.toHost && u.d.port == i then (s.feedCodec c (u.arrived.length + 1)).refreshChan c else s
    | none => s) s

/-- CLOSE, FLUSH and RESET (R234). (DEDUCED, log 908.) -/
def State.decCommand (s : State) (i cmd : Nat) : State × Nat × Nat :=
  let x := s.dses i
  if cmd = 1 then s.decOpen i
  else if s.get (Reg.DS_STATUS_STATE i) = 0 then (s, 1, 1)
  else if cmd = 2 then
    let s := (s.count (Reg.DS_IN_DISCARDED i) x.fifo.length).setDses i { x with fifo := [], whole := 0, flushing := false, dpb := bumpAll x.dpb }
    (((s.put (Reg.DS_STATUS_STATE i) 3).feedPort i).decSettle i, 0, 0)
  else if cmd = 3 then ((s.setDses i { x with flushing := true, dpb := bumpAll x.dpb }).decSettle i, 0, 0)
  else
    let s := (s.dropPicture i).quitWriter (128 + i)
    let s := s.setDses i { s.dses i with dpb := [], fifo := [], whole := 0, writing := none, flushing := false, spsBad := false }
    let s := if s.get (Reg.DS_STATUS_STATE i) = 2 then s.put (Reg.DS_STATUS_STATE i) 1 else s
    ((s.feedPort i).decSettle i, 0, 0)

/-- An accepted write of DS_CMD (R232): discarded with OVERRUN while BUSY; the result waits to be latched. A code that R234 does not list
starts nothing. (DEDUCED, log 911.) -/
def State.writeDsCmd (s : State) (i cmd : Nat) : State :=
  if cmd = 0 ∨ 4 < cmd then s
  else if s.is (Reg.DS_RESULT_BUSY i) then s.put (Reg.DS_RESULT_OVERRUN i) 1
  else
    let s := (s.put (Reg.DS_RESULT_BUSY i) 1).put (Reg.DS_RESULT_VALID i) 0
    let (s, code, detail) := s.decCommand i cmd
    s.setDses i { s.dses i with busy := some (code, detail), openBy := if cmd = 1 ∧ code = 0 then s.owner unitDecoder else 0 }

/-- A write of a decoder command by a requester. -/
def State.decCmdWrite (s : State) (o : Origin) (i cmd : Nat) : State :=
  s.written o (Reg.a_DS_CMD i) (BitVec.ofNat 32 cmd) fun _ is w s => s.writeDsCmd (is.headD 0) (bits w 2 0)

/-- DEC_OPEN (R232). -/
def execDecOpen (o : Origin) (i : Nat) (s : State) : Host.Outcome State Fault Refusal := done (s.fresh.when (i < 16) fun s => s.decCmdWrite o i 1)

/-- DEC_CLOSE (R234). -/
def execDecClose (o : Origin) (i : Nat) (s : State) : Host.Outcome State Fault Refusal := done (s.fresh.when (i < 16) fun s => s.decCmdWrite o i 2)

/-- DEC_FLUSH (R234). -/
def execDecFlush (o : Origin) (i : Nat) (s : State) : Host.Outcome State Fault Refusal := done (s.fresh.when (i < 16) fun s => s.decCmdWrite o i 3)

/-- DEC_RESET (R234). -/
def execDecReset (o : Origin) (i : Nat) (s : State) : Host.Outcome State Fault Refusal := done (s.fresh.when (i < 16) fun s => s.decCmdWrite o i 4)

/-- Whether an accepted OPEN of session `i` comes from a path that no longer owns the decoder (R232, check 3). (DEDUCED, log 910.) -/
def State.dsLost (s : State) (i : Nat) : Bool := (s.dses i).openBy != 0 && (s.dses i).openBy != s.owner unitDecoder

/-- The result of a decoder command is latched (R232), with interrupt source 182; an OPEN whose path has lost the decoder is REJ_OWNER. -/
def State.latchDs (s : State) (i : Nat) : State :=
  match (s.dses i).busy with
  | none => s
  | some r =>
    let lost := s.dsLost i
    let (code, detail) := if lost then (8, s.owner unitDecoder) else r
    let s := if lost then ((s.closeDec i).refreshDec).refreshAdm else s
    let s := s.setDses i { s.dses i with busy := none, openBy := 0 }
    let s := ((s.put (Reg.DS_RESULT_CODE i) code).put (Reg.DS_DETAIL_DETAIL i) detail).put (Reg.DS_RESULT_VALID i) 1
    ((s.put (Reg.DS_RESULT_BUSY i) 0).incr (Reg.DS_RESULT_SEQ i)).occur 182

/-- DS_RESULT_LATCH (R232). -/
def execDsResultLatch (i : Nat) (s : State) : Host.Outcome State Fault Refusal := done (s.fresh.when (i < 16) fun s => s.latchDs i)

/-! ### The decoder fence (R251) -/

/-- The decoder is fenced: every session becomes CLOSED, nothing output (Table 09.3). -/
def State.decFence (s : State) : State :=
  let s := s.openDec.foldl (fun s i => s.closeDec i) s
  (((s.put Reg.DEC_STATUS_FENCED 1).put Reg.DEC_STATUS_BUSY 0).refreshDec).refreshAdm

/-- An accepted write of DEC_CTRL: UNFENCE is taken once the fault status is clear (R251). -/
def State.writeDecCtrl (s : State) (w : Nat) : State :=
  if bit w 0 && s.cleared .DEC_TIMEOUT && s.cleared .DEC_STATE_PAR then s.put Reg.DEC_STATUS_FENCED 0 else s

/-- DEC_UNFENCE: a write of DEC_CTRL (R251). -/
def execDecUnfence (o : Origin) (v : Word) (s : State) : Host.Outcome State Fault Refusal :=
  done (s.fresh.written o Reg.a_DEC_CTRL v fun _ _ w s => s.writeDecCtrl w)

/-- DEC_INJ (R250): the bits stay armed until they are used. -/
def execDecInj (o : Origin) (v : Word) (s : State) : Host.Outcome State Fault Refusal :=
  done (s.fresh.written o Reg.a_DEC_INJ v fun row _ w s => s.storeArm Reg.a_DEC_INJ row w)

/-! ### A picture starts (R230, R233, R243, R245) -/

/-- Whether an SPS keeps Table 09.1 and the session's declared size (R230). -/
def State.spsOk (s : State) (i : Nat) (f : PicFacts) : Bool :=
  1 ≤ f.profile && f.profile ≤ 3 && f.level ≤ 153 && f.chroma == 1 && (f.depthY == 8 || f.depthY == 10) &&
    (f.depthC == 8 || f.depthC == 10) && !f.ext && f.codedW ≤ s.get (Reg.DS_GEOM_W i) && f.codedH ≤ s.get (Reg.DS_GEOM_H i)

/-- DS_INFO of the active SPS (R231, R253); a Main Still Picture stream is decoded as Main. -/
def State.putInfo (s : State) (i : Nat) (f : PicFacts) : State :=
  let s := (s.put (Reg.DS_INFO_PRIMARIES i) f.primaries).put (Reg.DS_INFO_MATRIX i) f.matrix
  let s := (s.put (Reg.DS_INFO_FULL i) (b2n f.full)).put (Reg.DS_INFO_VUI i) (b2n f.vui)
  let s := (s.put (Reg.DS_INFO_DEPTH_C i) (b2n (f.depthC == 10))).put (Reg.DS_INFO_DEPTH_Y i) (b2n (f.depthY == 10))
  (s.put (Reg.DS_INFO_PROFILE i) (if f.profile = 3 then 1 else f.profile)).put (Reg.DS_INFO_LEVEL i) f.level

/-- The substitute of a missing reference (R245): a copy of the nearest picture, or mid-grey; tainted and never output. -/
def substitute (dpb : List DecPic) (f : PicFacts) (poc : Int) : DecPic :=
  { poc, cw := f.codedW, ch := f.codedH, cx := f.cropX, cy := f.cropY, w := f.cropW, h := f.cropH, dy := f.depthY, dc := f.depthC, ctb := f.ctb,
    taint := true, waiting := false, isRef := true, src := concealSrc dpb poc }

/-- An access unit leaves the input FIFO. -/
def State.takeUnit (s : State) (i n : Nat) : State :=
  let x := s.dses i
  s.setDses i { x with fifo := x.fifo.drop n, whole := x.whole - n }

/-- The coded video sequence of a picture: an IRAP picture may begin a new one. -/
def DecSes.seqOf (x : DecSes) (f : PicFacts) : Nat := if f.irap && f.newSeq then x.seq + 1 else x.seq

/-- What a picture that starts leaves in the DPB (C.5.2.2): the pictures that stay references, none of an earlier sequence, and those that await
output unless a new sequence drops them; the outputs that make room for it are due. (PRESUMED, log 912.) -/
def DecSes.prior (x : DecSes) (f : PicFacts) : List DecPic :=
  let fresh := f.irap && f.newSeq
  let dpb := if fresh && f.dropPrior then [] else if fresh then bumpAll x.dpb else x.dpb
  let dpb := (dpb.map fun q => { q with isRef := q.seq == x.seqOf f && f.keep.contains q.poc }).filter fun q => q.isRef || q.waiting
  if fresh then dpb else bumpWhile (f.reorder, f.latency, f.buffering) true dpb.length dpb

/-- The picture of the DPB that a reference of a picture names. -/
def DecSes.refOf (x : DecSes) (f : PicFacts) (poc : Int) : Option DecPic :=
  (x.prior f).find? fun q => q.seq == x.seqOf f && q.poc == poc

/-- Whether a picture that starts is tainted by a reference: a missing one (R245) or a tainted one (R244). -/
def DecSes.inherits (x : DecSes) (f : PicFacts) : Bool :=
  f.refs.any fun r => match x.refOf f r with
    | none => true
    | some q => q.taint

/-- Gives pictures without a DPB entry the free ones of `n` + 1, in order (R238). -/
def giveEntries (n : Nat) (dpb : List DecPic) : List DecPic :=
  dpb.foldl (fun (ys : List DecPic) q =>
    match q.slot with
    | some _ => ys ++ [q]
    | none => ys ++ [{ q with slot := (rangeFrom 0 (n + 1)).find? fun e => !(dpb ++ ys).any fun r => r.slot == some e }]) []

/-- The picture of an access unit starts in a session that decodes: missing references are concealed, their copies entering the DPB (R245), and
taint is inherited (R244). -/
def State.beginPicture (s : State) (i : Nat) (f : PicFacts) (admitted : Bool) : State :=
  let x := s.dses i
  let dpb := x.prior f
  let missing := f.refs.filter fun r => (x.refOf f r).isNone
  let subs := missing.map fun r => { substitute dpb f r with seq := x.seqOf f }
  let pic : DecPic := { poc := f.poc, cw := f.codedW, ch := f.codedH, cx := f.cropX, cy := f.cropY, w := f.cropW, h := f.cropH, dy := f.depthY,
                        dc := f.depthC, ctb := f.ctb, taint := x.inherits f, waiting := f.output, isRef := true, hash := f.hash,
                        src := .coded (s.freeCtr + 1), seq := x.seqOf f }
  let all := giveEntries (s.get (Reg.DS_PARAM_DPB i)) (dpb ++ subs ++ [pic])
  let n := if admitted then x.creditN - x.creditD else x.creditN
  let s := (s.setDses i { x with dpb := all.dropLast, cur := all.getLast?, creditN := n, seq := x.seqOf f,
                                 noRasl := if f.irap then f.newSeq else x.noRasl, limits := (f.reorder, f.latency, f.buffering) }).tick
  let s := if missing.isEmpty then s
    else (all.dropLast.drop dpb.length).foldl (fun s q => s.writeEntry i q) (s.put (Reg.DS_STATUS_CONCEALED i) 1)
  s.put Reg.DEC_STATUS_BUSY 1

/-- Whether a session passes over an access unit without a trace: one of a layer above 0 (R230), and a RASL picture whose IRAP picture had
NoRaslOutputFlag 1 (R245). -/
def DecSes.ignores (x : DecSes) (f : PicFacts) : Bool := f.layer != 0 || (f.rasl && !f.irap && x.noRasl)

/-- The next access unit of session `i` is taken up (R230, R233, R243, R245, R250): it is passed over or discarded before the first IRAP
picture or under a refused SPS; its picture starts as admitted work while the credit is at least 1, else on leftover tokens (R409).
(DEDUCED, log 907.) -/
def State.decStart (s : State) (i : Nat) (f : PicFacts) : State :=
  let st := s.get (Reg.DS_STATUS_STATE i)
  let x := s.dses i
  let admitted : Bool := x.creditD ≤ x.creditN
  if 16 ≤ i || s.is Reg.DEC_STATUS_BUSY || s.is Reg.DEC_STATUS_FENCED || (st != 1 && st != 2) || x.flushing then s
  else
    let (s, par) := s.takeInj Reg.DEC_INJ_PAR
    if par then (s.decFault .DEC_STATE_PAR 6 i true).decFence
    else if x.ignores f then (s.takeUnit i f.size).feedPort i
    else if f.irap && !s.spsOk i f then
      let s := (s.takeUnit i f.size).count (Reg.DS_IN_DISCARDED i) f.size
      let s := s.setDses i { s.dses i with spsBad := true }
      ((s.put (Reg.DS_STATUS_SPS_REFUSED i) 1).put (Reg.DS_STATUS_STATE i) 1).feedPort i
    else if !f.irap && (st == 1 || x.spsBad) then
      let s := if x.spsBad then s.count (Reg.DS_IN_DISCARDED i) f.size else s
      (s.takeUnit i f.size).feedPort i
    else if !admitted && s.get Reg.PWR_GRANT_DEC = 0 then s
    else
      let s := if f.irap then
          ((s.setDses i { s.dses i with spsBad := false }).put (Reg.DS_STATUS_STATE i) 2).putInfo i f
        else s
      ((s.takeUnit i f.size).beginPicture i f admitted).feedPort i

/-- DEC_PICTURE_START (R243). -/
def execDecPictureStart (i : Nat) (f : PicFacts) (s : State) : Host.Outcome State Fault Refusal := done (s.fresh.when (i < 16) fun s => s.decStart i f)

/-! ### A picture ends (R246, R249, R251) -/

/-- The session whose picture is being decoded. -/
def State.decoding (s : State) : Option (Nat × DecPic) :=
  decSessions.findSome? fun i => (s.dses i).cur.map fun q => (i, q)

/-- The picture being decoded, as it was concealed in the CTUs `lost`, is written to its entry and enters the DPB (R238, R246); a session that
drains or flushes outputs it at once (R234). -/
def State.storePicture (s : State) (i : Nat) (q : DecPic) : State :=
  let x := s.dses i
  let dpb := enterDpb x.limits x.dpb q
  let dpb := if x.flushing || s.get (Reg.DS_STATUS_STATE i) == 3 then bumpAll dpb else dpb
  (((s.setDses i { x with cur := none, dpb }).put Reg.DEC_STATUS_BUSY 0).writeEntry i q).decSettle i

/-- CTUs that were not decoded are concealed (R246). -/
def State.fillLost (s : State) (i : Nat) (q : DecPic) (lost : List Nat) : State × DecPic :=
  (s.when (!lost.isEmpty) fun s => s.put (Reg.DS_STATUS_CONCEALED i) 1, q.conceal (s.dses i).dpb lost)

/-- The watchdog expires on the picture being decoded (R251): it is abandoned and its CTUs `lost` are concealed; on two consecutive pictures
of one session the decoder is fenced. (DEDUCED, log 904; DEDUCED, log 909.) -/
def State.decExpire (s : State) (lost : List Nat) (inj : Bool) : State :=
  match s.decoding with
  | none => s
  | some (i, q) =>
    let again := (s.dses i).expired
    let s := (s.put (Reg.DS_STATUS_TIMEOUT i) 1).put (Reg.DS_STATUS_CONCEALED i) 1
    let s := s.setDses i { s.dses i with expired := true, expInj := inj }
    if again then (s.decFault .DEC_TIMEOUT 5 i inj).decFence
    else
      let (s, q) := s.fillLost i q lost
      s.storePicture i { q with taint := true }

/-- The hash check of a completed picture (R249). -/
def State.hashCheck (s : State) (i : Nat) (q : DecPic) : State × DecPic :=
  match q.hash with
  | none => (s, q)
  | some h =>
    if !s.is (Reg.DS_POLICY_HASH_EN i) then (s, q)
    else
      let (s, inj) := s.takeInj Reg.DEC_INJ_HASH
      if q.matchesHash h && !inj then (s.incr (Reg.DS_CNT_DEC_HASH_OK i), q)
      else ((s.put (Reg.DS_STATUS_HASH_FAIL i) 1).decFault .DEC_HASH 3 i inj, { q with taint := true })

/-- What the cache met while a picture was decoded (R250): an armed injection is met as the event says, a whole inversion unless it was
corrected. (DEDUCED, log 909.) -/
def State.cacheMet (s : State) (i : Nat) (c : CacheEvent) : State :=
  let (s, inj) := s.takeInj Reg.DEC_INJ_CACHE
  match c with
  | .corr => s.decFault .DEC_CACHE_CORR 2 i inj
  | .reread => s.decFault .DEC_CACHE_REREAD 1 i inj
  | .clean => s.when inj fun s => s.decFault .DEC_CACHE_REREAD 1 i true

/-- Reference words of session `i` are read from Hearth (R238): an uncorrectable one conceals and taints the DPB picture that holds it (R250).
Answers whether one was met. (DEDUCED, log 902.) -/
def State.readRefs (s : State) (i : Nat) (ws : List Nat) (e : ReadEvent) : State × Bool :=
  let ws := ws.filter fun a => a % 32 == 0 && (SMap.get [] s.hm.codecCells i).contains (a / 65536)
  let (s, bad) := s.readWords .functional ws e
  if bad.isEmpty then (s, false)
  else
    let x := s.dses i
    let dpb := concealEntries x.dpb (bad.filterMap fun a => s.entryOf i (a / 65536))
    ((s.setDses i { x with dpb }).put (Reg.DS_STATUS_CONCEALED i) 1, true)

/-- The picture being decoded completes (R238, R246, R249, R250). (DEDUCED, log 909.) -/
def State.decDone (s : State) (lost : List Nat) (cache : CacheEvent) (rd : List Nat) (e : ReadEvent) : State :=
  match s.decoding with
  | none => s
  | some (i, q) =>
    let (s, wdt) := s.takeInj Reg.DEC_INJ_WDT
    if wdt then s.decExpire lost true
    else
      let (s, bad) := (s.cacheMet i cache).readRefs i rd e
      let (s, q) := s.fillLost i { q with taint := q.taint || bad } lost
      let (s, q) := s.hashCheck i q
      let s := s.when (s.dses i).expired fun s => s.decFault .DEC_TIMEOUT_RETRY 4 i (s.dses i).expInj
      let s := (s.setDses i { s.dses i with expired := false }).incr (Reg.DS_CNT_DEC_DECODED i)
      s.storePicture i q

/-- DEC_PICTURE_DONE (R249). -/
def execDecPictureDone (lost : List Nat) (cache : CacheEvent) (rd : List Nat) (e : ReadEvent) (s : State) : Host.Outcome State Fault Refusal :=
  done (s.fresh.decDone lost cache rd e)

/-- DEC_WATCHDOG (R251). -/
def execDecWatchdog (lost : List Nat) (s : State) : Host.Outcome State Fault Refusal :=
  let (s, inj) := s.fresh.takeInj Reg.DEC_INJ_WDT
  done (s.decExpire lost inj)

/-! ### Output (R239, R240, R247) -/

/-- The picture due for output: the first in output order of those that bumping has taken (R229). (PRESUMED, log 912.) -/
def DecSes.due (x : DecSes) : Option DecPic := firstOut (x.dpb.filter fun q => q.waiting && q.bumped)

/-- A picture no longer awaits output; it leaves the DPB when it is no reference. -/
def DecSes.outDone (x : DecSes) (r : DecPic) : DecSes :=
  { x with dpb := (x.dpb.map fun q => if q.seq == r.seq && q.poc == r.poc then { q with waiting := false } else q).filter fun q =>
      q.waiting || q.isRef }

/-- The ring entry that takes the next picture (R240): in ring order from NEXT, the first that is neither pinned nor held by a fill. An entry
that is no longer allocated or is FAULTED takes nothing (R44). (DEDUCED, log 905.) -/
def State.ringEntry (s : State) (i : Nat) : Option Nat :=
  let n := s.ringCount i
  let first := s.get (Reg.DS_STATUS_NEXT i)
  ((rangeFrom 0 n).map fun k => (first + k) % n).find? fun j =>
    let h := s.ringHandle i j
    (s.handle h).alloc && (s.handle h).st != .faulted && !s.pinned h && !s.fillHolds h

/-- A picture's output is dropped (R240, R247). -/
def State.dropOutput (s : State) (i : Nat) (q : DecPic) : State :=
  (((s.setDses i ((s.dses i).outDone q))).incr (Reg.DS_CNT_OUT_DROPPED i)).decSettle i

/-- Output writes the picture `q` to ring entry `j`, or drops it where no entry qualifies (R240). -/
def State.writeOutput (s : State) (i : Nat) (q : DecPic) : State :=
  match s.ringEntry i with
  | none => (s.put (Reg.DS_STATUS_PINNED_WRITE i) 1).dropOutput i q
  | some j =>
    let h := s.ringHandle i j
    let s := s.put (Reg.DS_STATUS_NEXT i) ((j + 1) % s.ringCount i)
    let s := ((s.setBuf h .filling).beginWriter (128 + i) h).tick
    let s := s.setDses i { s.dses i with writing := some ⟨j, h, q⟩ }
    (q.rows s.freeCtr (s.get (Reg.DS_OUT_STRIDE_STRIDE0 i)) (s.get (Reg.DS_OUT_STRIDE_STRIDE1 i))).foldl (fun s r =>
      s.queueWrite ⟨128 + i, h, r.1, r.2.1, r.2.2, false⟩) s

/-- Whether the taint policy keeps a picture from the ring (R247). -/
def State.heldClean (s : State) (i : Nat) (q : DecPic) : Bool := q.taint && !s.is (Reg.DS_POLICY_TAINT_POLICY i)

/-- The output of a tainted picture is skipped (R247). -/
def State.skipOutput (s : State) (i : Nat) (q : DecPic) : State := (s.record (148 + i) 0x31 i (toTwos q.poc 16 * 2 ^ 16)).dropOutput i q

/-- The picture due for output is read from the DPB and written to the ring, or dropped (R238, R240, R247). -/
def State.decOutput (s : State) (i : Nat) (e : ReadEvent) : State :=
  let x := s.dses i
  match x.due with
  | none => s
  | some q =>
    if 16 ≤ i || x.writing.isSome then s
    else if s.heldClean i q then s.skipOutput i q
    else
      let (s, _) := s.readRefs i (s.entryWords i q) e
      let q := ((s.dses i).due).getD q
      if s.heldClean i q then s.skipOutput i q else s.writeOutput i q

/-- DEC_OUTPUT (R240). -/
def execDecOutput (i : Nat) (e : ReadEvent) (s : State) : Host.Outcome State Fault Refusal := done (s.fresh.when (i < 16) fun s => s.decOutput i e)

/-- The last output write is acknowledged (R240): the ring entry seals with DEC_OUT; an error ends the output with its buffer FILLING. -/
def State.decOut (s : State) (i : Nat) : State :=
  let x := s.dses i
  let w := 128 + i
  match x.writing with
  | none => s
  | some o =>
    if s.inFlight w then s
    else
      let bad := s.wroteBad w || s.wroteMoved w || (s.handle o.handle).st != .filling
      let s := (s.quitWriter w).setDses i { x.outDone o.pic with writing := none }
      if bad then (s.put (Reg.DS_STATUS_WR_ERR i) 1).decSettle i
      else
        let q := o.pic
        let s := s.setBuf o.handle .sealed
        let s := (s.put (Reg.DS_OUT_LAST_HANDLE i) o.handle).put (Reg.DS_OUT_LAST_ENTRY i) o.entry
        let s := (s.put (Reg.DS_OUT_LAST_POC i) (toTwos q.poc 16)).put (Reg.DS_OUT_LAST_TAINT i) (b2n q.taint)
        let s := (s.put (Reg.DS_OUT_SIZE_W i) q.w).put (Reg.DS_OUT_SIZE_H i) q.h
        let s := s.put (Reg.DS_STATUS_OUT_TAINT i) (setBit (s.get (Reg.DS_STATUS_OUT_TAINT i)) o.entry q.taint)
        let s := s.incr (Reg.DS_CNT_OUT_OUTPUT i)
        (s.record (148 + i) 0x30 i (o.handle + b2n q.taint * 2 ^ 15 + toTwos q.poc 16 * 2 ^ 16)).decSettle i

/-- DEC_OUT (R240). -/
def execDecOut (i : Nat) (s : State) : Host.Outcome State Fault Refusal := done (s.fresh.when (i < 16) fun s => s.decOut i)

end Sys2Proof.Machine
end

