-- ==== Sys2Proof/Machine/Intc.lean ====
section
/-! DEFINITION. The commands of the interrupt controller (chapter 14): inputs, configuration rights, offers, claims, ends of interrupt,
host messages, moderation, record reads and injection. -/
namespace Sys2Proof.Machine

/-! ### Rights (R344, R346) -/

/-- The configuring path of source `n` (Table 14.1), in the owner encoding; 0 where none may configure it. -/
def State.cfgPath (s : State) (n : Nat) : Nat :=
  if n < 96 then s.owner (n / 8)
  else if n < 112 then s.svcPort n
  else if n < 124 then s.owner (n - 112)
  else if n < 136 then s.owner (n - 124)
  else if n < 148 then s.owner (n - 136)
  else if n < 164 ∨ n = 182 then s.owner unitDecoder
  else if n < 176 ∨ n = 183 then s.owner unitEncoder
  else if n < 179 then n - 175
  else if n < 182 then n - 178
  else if 224 ≤ n ∧ n ≤ 239 then 1
  else 3

/-- Whether a requester may configure source `n`, set and clear its pending state and read its records (R346): the safety pair, and
the configuring path unless that is FIRMWARE. -/
def State.mayConfigure (s : State) (o : Origin) (n : Nat) : Bool :=
  o == .sp || (s.cfgPath n != 3 && s.cfgPath n == originPath o)

/-! ### Offers (R347, R350, R351, R356, R358–R361) -/

/-- The running priority of a target (R350). -/
def Tgt.running (x : Tgt) : Nat :=
  match x.stack with
  | (_, p) :: _ => p
  | [] => 0

/-- The queue depth of host target `t` in force (R358): 1 to 256. (DEDUCED, log 1405.) -/
def State.hqDepth (s : State) (t : Nat) : Nat := min 256 (max 1 (s.get (Reg.HQ_CFG_DEPTH t)))

/-- Whether moderation is bypassed for target `t` (R361): an idle core, an empty host queue. -/
def State.modBypass (s : State) (t : Nat) : Bool :=
  if t < 4 then (s.tgt t).idle else s.get (Reg.HQ_STATUS_OUTSTANDING t) == 0

/-- Whether moderation holds group `g` off for target `t` (R360, R361). -/
def State.groupHeld (s : State) (t g : Nat) : Bool :=
  g != 0 && s.get ⟨Reg.a_MOD g, 15, 0⟩ != 0 && (s.tgt t).timers.contains g && !s.modBypass t

/-- Whether target `t` can take any claim: its core is not held in reset (R356); its queue has room and the link is up (R351, R359). -/
def State.tgtOpen (s : State) (t : Nat) : Bool :=
  if t < 4 then !(s.tgt t).held else s.get (Reg.HQ_STATUS_OUTSTANDING t) < s.hqDepth t && s.akUp

/-- Whether source `n` qualifies for target `t` (R351). -/
def State.qualifies (s : State) (t n : Nat) : Bool :=
  let x := s.src n
  let p := s.get (Reg.SRC_CFG_PRIO n)
  x.pend && !x.active && !x.parBad && s.is (Reg.SRC_CFG_EN n) && (s.tgt t).running < p &&
    bit (s.get (Reg.SRC_CFG_TARGETS n)) t && !s.groupHeld t (s.get (Reg.SRC_CFG_GROUP n))

/-- The source on offer to target `t`: the highest priority, the lowest number on a tie (R351). -/
def State.offer (s : State) (t : Nat) : Option Nat :=
  if !s.tgtOpen t then none
  else (s.intc.srcs.map Prod.fst).foldl (fun (b : Option Nat) (n : Nat) =>
    if s.qualifies t n then
      match b with
      | some m => if s.get (Reg.SRC_CFG_PRIO m) < s.get (Reg.SRC_CFG_PRIO n) then some n else b
      | none => some n
    else b) none

/-! ### Claims and ends (R353, R355) -/

/-- Target `t` claims source `n` (R350, R353): it becomes ACTIVE, its vector and priority are pushed, and the hold-off timer of its group
restarts (R361). -/
def State.claim (s : State) (t n : Nat) : State :=
  let x := s.src n
  let g := s.get (Reg.SRC_CFG_GROUP n)
  let s := s.setSrc n { x with active := true, pend := false, tgt := t, low := !x.input }
  let y := s.tgt t
  let timers := if g = 0 ∨ s.get ⟨Reg.a_MOD g, 15, 0⟩ = 0 ∨ y.timers.contains g then y.timers else g :: y.timers
  s.setTgt t { y with stack := (n, s.get (Reg.SRC_CFG_PRIO n)) :: y.stack, timers := timers }

/-- End of interrupt `v` at target `t` (R355). -/
def State.eoi (s : State) (t v : Nat) : State :=
  let y := s.tgt t
  if y.stack.any fun e => e.1 == v then
    (s.setTgt t { y with stack := y.stack.filter fun e => e.1 != v }).setSrc v ((s.src v).endOf (srcMode v))
  else s.put (Reg.TGT_STATE_EOI_BAD t) 1

/-- The answer to an acknowledge of core target `t`: vector `v`, and the address TGT_VBASE + 4 × v that the core jumps to (R354). -/
def State.giveVector (s : State) (t v : Nat) : State := s.emit (.vector t v (s.get (Reg.TGT_VBASE_BASE t) * 4096 + 4 * v))

/-- A core target acknowledges the offer of source `n` (R353, R354): a source still on offer is claimed, otherwise the target receives the
spurious vector 1023 and nothing changes. (DEDUCED, log 1405.) -/
def State.acknowledge (s : State) (t n : Nat) : State :=
  if s.offer t = some n then (s.claim t n).giveVector t n else s.giveVector t 1023

/-- A read of TGT_CLAIM (R354): an acknowledge of the current offer when the target's own core reads, 1023 otherwise. -/
def State.claimRead (s : State) (o : Origin) (t : Nat) : State × Nat :=
  if isOwnCore o t then
    match s.offer t with
    | some n => (s.claim t n, n)
    | none => (s, 1023)
  else (s, 1023)

/-! ### Records (R345, R346, R364, R480) -/

/-- The 12 bytes of a record (R345). -/
def EvRec.bytes (r : EvRec) : List Byte := leBytes 1 r.code ++ leBytes 1 r.unit ++ leBytes 6 r.stamp ++ leBytes 4 r.arg

/-- The oldest record of source `n` leaves its FIFO; an armed REC injection is corrected on the way (Table 14.6). -/
def State.popRecord (s : State) (n : Nat) : State :=
  let x := s.src n
  match x.fifo with
  | [] => s
  | _ :: rest =>
    let (s, inj) := (s.setSrc n { x with fifo := rest }).takeInj Reg.INTC_INJ_REC
    s.when inj fun s => s.fault .INTC_REC_CORR true

/-- The oldest record of source `n` is uncorrectable: it is dropped and counted in LOST (Table 14.6). -/
def State.dropRecord (s : State) (n : Nat) : State :=
  let x := s.src n
  match x.fifo with
  | [] => s
  | _ :: rest => s.setSrc n { x with fifo := rest, lost := satInc x.lost 65535, lostMsg := true }

/-- Word `k` of the oldest record of the source that REC_SEL selects, as requester `o` reads it (R346). (DEDUCED, log 1403.) -/
def State.recWord (s : State) (o : Origin) (k : Nat) : Nat :=
  let n := s.get Reg.REC_SEL_SOURCE
  if s.mayConfigure o n || o == .debug then
    match (s.src n).fifo with
    | r :: _ => leNat ((r.bytes.drop (4 * k)).take 4)
    | [] => 0
  else 0

/-- REC_STAT as requester `o` reads it. -/
def State.recStat (s : State) (o : Origin) : Nat :=
  let x := s.src (s.get Reg.REC_SEL_SOURCE)
  if s.mayConfigure o (s.get Reg.REC_SEL_SOURCE) || o == .debug then x.fifo.length * 65536 + x.lost else 0

/-- The effect of reading REC_D2: the record is popped; a read by DEBUG has none (R480). (DEDUCED, log 1403.) -/
def State.recPop (s : State) (o : Origin) : State :=
  let n := s.get Reg.REC_SEL_SOURCE
  if o != .debug && s.mayConfigure o n then s.popRecord n else s

/-- The effect of reading REC_STAT: LOST is cleared; a read by DEBUG has none (R480). -/
def State.recClear (s : State) (o : Origin) : State :=
  let n := s.get Reg.REC_SEL_SOURCE
  if o != .debug && s.mayConfigure o n then s.setSrc n { s.src n with lost := 0 } else s

/-! ### Host messages (R357–R359) -/

/-- The bytes of a message (Table 14.4). -/
def msgBytes (seq n prio : Nat) (rcd : Option EvRec) (more lost : Bool) : List Byte :=
  leBytes 2 seq ++ leBytes 1 n ++
    leBytes 1 (prio % 16 + 16 * b2n rcd.isSome + 32 * b2n more + 64 * b2n lost) ++
    (match rcd with
     | some r => r.bytes
     | none => leBytes 12 0)

/-- The commit of a message of host queue `q` for source `n` (R358). -/
def State.hostCommit (s : State) (q n : Nat) : State :=
  let t := 4 + q
  let rcd := (s.src n).fifo.head?
  let lost := (s.src n).lostMsg
  let s := s.claim t n
  let s := s.popRecord n
  let x := s.src n
  let more := !x.fifo.isEmpty
  let s := s.setSrc n { x with pend := x.pend || (rcd.isSome && more), lostMsg := false }
  let seq := s.get (Reg.HQ_STATUS_NEXT_SEQ t)
  let s := (s.put (Reg.HQ_STATUS_NEXT_SEQ t) (seq + 1)).put (Reg.HQ_STATUS_OUTSTANDING t) (s.get (Reg.HQ_STATUS_OUTSTANDING t) + 1)
  let s := s.setTgt t { s.tgt t with idle := false }
  s.akSend (.msg q (msgBytes seq n (s.get (Reg.SRC_CFG_PRIO n)) rcd more lost))

/-- The host acknowledges every message up to SEQ `v` of target `t`; a value ahead of the messages sent is ignored (R358, R359). -/
def State.hqAck (s : State) (t v : Nat) : State :=
  let d := (s.get (Reg.HQ_STATUS_NEXT_SEQ t) + 65535 - v % 65536) % 65536
  if d ≤ s.get (Reg.HQ_STATUS_OUTSTANDING t) then
    ((s.put (Reg.HQ_STATUS_OUTSTANDING t) d).put (Reg.HQ_ACK_SEQ t) v).setTgt t { s.tgt t with idle := d == 0 }
  else s

/-! ### Register writes -/

/-- The sources of word `w` of a SRC_PEND or SRC_UNPEND write. -/
def pendSources (w v : Nat) : List Nat := ((maskBits 32 v).map fun b => 32 * w + b).filter srcExists

/-- A write of SRC_PEND or SRC_UNPEND word `w`: every source named is judged, and a write that names one that the requester may not
configure is discarded (R346). (DEDUCED, log 1402.) -/
def State.pendWrite (s : State) (o : Origin) (a w : Nat) (v : Word) (f : Nat → State → State) : State :=
  s.written o a v fun _ _ x s =>
    let ns := pendSources w x
    if ns.all fun n => s.mayConfigure o n then forAll ns f s else s.fault .ACC_REFUSED

/-- SRC_UNPEND of a PENDING source (Table 14.3): it becomes INACTIVE where it is EDGE, or its input is de-asserted. (DEDUCED, log 1401.) -/
def State.unpend (s : State) (n : Nat) : State :=
  let x := s.src n
  let quiet := match srcMode n with
    | 1 => true
    | 0 => !x.input
    | _ => x.fifo.isEmpty
  if x.pend && !x.active && quiet then s.setSrc n { x with pend := false } else s

/-- A write of SRC_CFG of source `n` (R346, R349, R360). A HOST-path write that sets the bit of MC0 or MC1 is discarded.
(DEDUCED, log 1402.) -/
def State.cfgWrite (s : State) (o : Origin) (n : Nat) (v : Word) : State :=
  s.written o (Reg.a_SRC_CFG n) v fun row _ w s =>
    let sets := bits w 9 8 - (bits w 9 8 &&& bits (s.get (Reg.SRC_CFG_TARGETS n)) 1 0)
    if !s.mayConfigure o n || (o != .sp && sets != 0) then s.fault .ACC_REFUSED
    else if !srcExists n then s
    else
      let w := if 192 ≤ n ∧ n ≤ 194 then setBits w 27 24 0 else w
      (s.storeRow (Reg.a_SRC_CFG n) row w).setSrc n { s.src n with parBad := false }

/-- Parity of the stack of target `t` fails (Table 14.6). (DEDUCED, log 1404.) -/
def State.stackPar (s : State) (t : Nat) (inj : Bool) : State :=
  if t < 2 then s.fault .INTC_STACK_PAR_SP inj else (s.fault .INTC_STACK_PAR inj).emptyStack t

/-- Parity of the configuration of source `n` fails (Table 14.6). (DEDUCED, log 1404.) -/
def State.cfgPar (s : State) (n : Nat) (inj : Bool) : State :=
  (s.setSrc n { s.src n with parBad := true }).fault .INTC_CFG_PAR inj

/-- A write of INTC_INJ (R364). The write reaches the controller, which evaluates its offers and checks its stacks: CFG and STACK are used
at once. Which SRC_CFG entry that check meets is a free value. (DEDUCED, log 1404.) -/
def State.intcInj (s : State) (row : RegRow) (w : Nat) : State :=
  let s := s.storeArm Reg.a_INTC_INJ row w
  let (s, cfg) := s.takeInj Reg.INTC_INJ_CFG
  let s := if cfg then (s.cfgPar (Config.checkedEntry s.freeCtr % 256) true).tick else s
  let (s, stk) := s.takeInj Reg.INTC_INJ_STACK
  s.when stk fun s => s.stackPar (s.get Reg.INTC_INJ_TGT) true

/-- A write of MBOX_RING (Table 14.1): bits 0–3 from the HOST path, bits 4–7 from the management cores. -/
def State.mboxRing (s : State) (o : Origin) (v : Word) : State :=
  s.written o Reg.a_MBOX_RING v fun _ _ w s =>
    if (bits w 3 0 != 0 && !isHostPath o) || (bits w 7 4 != 0 && !isCore o) then s.fault .ACC_REFUSED
    else forAll (maskBits 8 w) (fun m s => s.occur (208 + m)) s

/-- A core reports idle or busy, is held in reset, or leaves reset (R356). Holding applies to MC2 and MC3; release is accepted outside the
safe state with the status of the faults that fenced the core cleared (Table 18.3), and starts the watchdog count (R445).
(DEDUCED, log 1406.) -/
def State.coreReport (s : State) (t : Nat) (idle held : Bool) : State :=
  if 4 ≤ t then s
  else if held then (if t = 2 ∨ t = 3 then s.holdCore t else s)
  else if (s.tgt t).held then
    if s.is Reg.FC_STATUS_SAFE || !s.cleared .SVC_SRAM_UNCORR || !s.cleared .SC_WDT then s
    else
      let s := s.setTgt t { s.tgt t with held := false, idle := idle }
      if t = 2 then { s with fc := { s.fc with heldMc2 := false, kickedMc2 := false } }
      else { s with fc := { s.fc with heldMc3 := false, kickedMc3 := false } }
  else s.setTgt t { s.tgt t with idle := idle }

/-! ### Commands -/

/-- SOURCE_INPUT_CHANGE (R348). -/
def execSourceInputChange (n : Nat) (b : Bool) (code unit arg : Nat) (s : State) : Host.Outcome State Fault Refusal :=
  let s := s.fresh
  done (if !srcExists n then s
    else match srcMode n with
      | 0 => s.level n b
      | 1 => s.when b fun s => s.occur n
      | _ => s.when b fun s => s.record n code unit arg)

/-- SRC_PEND_WRITE (R349). -/
def execSrcPendWrite (o : Origin) (n : Nat) (v : Word) (s : State) : Host.Outcome State Fault Refusal :=
  done (s.fresh.when (n < 8) fun s => s.pendWrite o (Reg.a_SRC_PEND n) n v fun k s => s.occur k)

/-- SRC_UNPEND_WRITE (R348). -/
def execSrcUnpendWrite (o : Origin) (n : Nat) (v : Word) (s : State) : Host.Outcome State Fault Refusal :=
  done (s.fresh.when (n < 8) fun s => s.pendWrite o (Reg.a_SRC_UNPEND n) n v fun k s => s.unpend k)

/-- SRC_CFG_WRITE (R346). -/
def execSrcCfgWrite (o : Origin) (n : Nat) (v : Word) (s : State) : Host.Outcome State Fault Refusal :=
  done (s.fresh.when (n < 256) fun s => s.cfgWrite o n v)

/-- INTC_ACKNOWLEDGE (R353). -/
def execIntcAcknowledge (t n : Nat) (s : State) : Host.Outcome State Fault Refusal :=
  done (if t < 4 then s.fresh.acknowledge t n else s.fresh)

/-- TGT_CLAIM_READ (R354). -/
def execTgtClaimRead (o : Origin) (t : Nat) (s : State) : Host.Outcome State Fault Refusal :=
  let s := s.fresh
  done (if t < 8 && s.reaches o .TGT_CLAIM then (s.claimRead o t).1.emit (.data o (Reg.a_TGT_CLAIM t) (leBytes 4 (s.claimRead o t).2))
    else s.emit (.refused o (Reg.a_TGT_CLAIM t)))

/-- TGT_EOI (R355). -/
def execTgtEoi (o : Origin) (t : Nat) (v : Word) (s : State) : Host.Outcome State Fault Refusal :=
  done (s.fresh.when (t < 8) fun s => s.written o (Reg.a_TGT_EOI t) v fun _ _ w s => s.eoi t (bits w 7 0))

/-- HOST_MSG_COMMIT (R358). -/
def execHostMsgCommit (q : Nat) (s : State) : Host.Outcome State Fault Refusal :=
  let s := s.fresh
  done (if 4 ≤ q then s
    else match s.offer (4 + q) with
      | some n => s.hostCommit q n
      | none => s)

/-- HQ_ACK (R358). -/
def execHqAck (o : Origin) (t : Nat) (v : Word) (s : State) : Host.Outcome State Fault Refusal :=
  done (s.fresh.when (t < 8) fun s => s.written o (Reg.a_HQ_ACK t) v fun _ _ w s => if 4 ≤ t then s.hqAck t (bits w 15 0) else s)

/-- MODERATION_EXPIRY (R361). -/
def execModerationExpiry (t g : Nat) (s : State) : Host.Outcome State Fault Refusal :=
  let s := s.fresh
  done (s.when (t < 8) fun s => s.setTgt t { s.tgt t with timers := (s.tgt t).timers.filter fun k => k != g })

/-- CORE_IDLE_CHANGE (R356). (DEDUCED, log 1406.) -/
def execCoreIdleChange (t : Nat) (idle held : Bool) (s : State) : Host.Outcome State Fault Refusal :=
  done (s.fresh.when (t < 4) fun s => s.coreReport t idle held)

/-- REC_D2_READ (R480). -/
def execRecD2Read (o : Origin) (s : State) : Host.Outcome State Fault Refusal :=
  let s := s.fresh
  done (if s.reaches o .REC_D2 then (s.recPop o).emit (.data o Reg.a_REC_D2 (leBytes 4 (s.recWord o 2)))
    else s.emit (.refused o Reg.a_REC_D2))

/-- REC_STAT_READ (R480). -/
def execRecStatRead (o : Origin) (s : State) : Host.Outcome State Fault Refusal :=
  let s := s.fresh
  done (if s.reaches o .REC_STAT then (s.recClear o).emit (.data o Reg.a_REC_STAT (leBytes 4 (s.recStat o)))
    else s.emit (.refused o Reg.a_REC_STAT))

/-- MBOX_RING (R344). -/
def execMboxRing (o : Origin) (v : Word) (s : State) : Host.Outcome State Fault Refusal := done (s.fresh.mboxRing o v)

/-- INTC_INJ (R364). -/
def execIntcInj (o : Origin) (v : Word) (s : State) : Host.Outcome State Fault Refusal :=
  done (s.fresh.written o Reg.a_INTC_INJ v fun row _ w s => s.intcInj row w)

end Sys2Proof.Machine
end

