-- ==== Sys2Proof/Machine/ResetOps.lean ====
section
/-! DEFINITION. The reset of the main domain (R362, R363, R419, R433, R434, R481): what it keeps, its release, what happens to Hearth through it
(R82–R84), and the pins of the Ember domain (R398, R446). -/
namespace Sys2Proof.Machine

/-! ### Ember (R398–R403, R446) -/

/-- EMB_TIMER (R417): ticks of 32.768 kHz since VDD_EMB came up. -/
def State.emberTimer (s : State) : Nat := (s.now - s.emb.timerAt) * 32768 / 1000000000 % 2 ^ 32

/-! ### Keys at a reset (R457, R458, R464) -/

/-- The field of SEC_KEY_STATE that holds the state of slot `i`; 8 and 9 are CPK0 and CPK1 (R470). -/
def keyStateField (i : Nat) : FRef := ⟨Reg.a_SEC_KEY_STATE, 2 * i + 1, 2 * i⟩

/-- Slot states (R463). -/
def keyEmpty : Nat := 0
def keyValid : Nat := 1
def keyDirty : Nat := 2
def keyRevoked : Nat := 3

/-- A programming that a reset cuts short leaves its slot DIRTY (R464). (DEDUCED, log 1903.) -/
def State.cutKeyJob (s : State) : State :=
  let s := match s.sec.job with
    | some (.key i _) => s.put (keyStateField i) keyDirty
    | some (.cpk e _) => s.put (keyStateField (8 + e)) keyDirty
    | some (.revoke i) => s.put (keyStateField i) keyDirty
    | some (.revokeCpk e) => s.put (keyStateField (8 + e)) keyDirty
    | _ => s
  { s with sec := { s.sec with job := none } }

/-- 16 bytes of ones. -/
def onesKey : List Byte := List.replicate 16 255#8

/-- A pending lifecycle transition takes effect (R457); entering RETIRED destroys the keys (R458). -/
def State.takeLifecycle (s : State) : State :=
  if !s.is Reg.SEC_STATUS_LC_PEND then s
  else
    let lc := s.get Reg.SEC_STATUS_LC_NEXT
    let s := s.put Reg.SEC_STATUS_LC lc
    if lc != 3 then s
    else
      let s := forAll allSlots (fun i s => s.put (keyStateField i) keyRevoked) s
      { s with sec := { s.sec with keys := allSlots.map fun i => (i, onesKey), pwd := some onesKey } }

/-! ### The reset itself (R481) -/

/-- Whether a reset of the main domain keeps the register at an address: the EMBER block, OD_FLOOR_k, SERIAL, SEC_KEY_STATE; and, unless the
reset is RESET_N or the removal of power, FC_FIRST with its stamp, FC_LOG_CNT and FC_STAT_g (R443, R481). -/
def keptReg (hard : Bool) (a : Nat) : Bool :=
  (0x20B00000 ≤ a && a < 0x20B10000) || (0x20C00018 ≤ a && a < 0x20C00024) || a == 0x20000008 || a == 0x2000000C ||
    a == Reg.a_SEC_KEY_STATE ||
    (!hard && ((0x20900018 ≤ a && a < 0x20900024) || a == 0x20900034 || (0x20900104 ≤ a && a < 0x2090013C)))

/-- SEC_STATUS after a reset: LC and ROLLBACK come from OTP; the failures of R461 are kept unless the reset is RESET_N or the removal of
power. -/
def keptSecStatus (hard : Bool) (w : Nat) : Nat :=
  setBits (setBits 0 22 16 (bits w 22 16)) 2 0 (bits w 2 0) + (if hard then 0 else bits w 12 12 * 4096 + bits w 11 10 * 1024)

/-- The registers after a reset of the main domain. (DEDUCED, log 1802.) -/
def State.keptRegs (s : State) (hard : Bool) : List (Nat × Word) :=
  let kept := s.regs.filter fun e => keptReg hard e.1
  let kept := kept.filterMap fun e =>
    if 0x20900104 ≤ e.1 ∧ e.1 < 0x2090013C then (if e.2.toNat % 65536 = 0 then none else some (e.1, BitVec.ofNat 32 (e.2.toNat % 65536)))
    else some e
  SMap.set (regReset Reg.a_SEC_STATUS) kept Reg.a_SEC_STATUS (BitVec.ofNat 32 (keptSecStatus hard (s.reg Reg.a_SEC_STATUS).toNat))

/-- What happens to memories through a reset: Hearth kept in self-refresh, and the service SRAM kept powered. -/
structure Kept where
  hearth : Bool
  sram : Bool
  deriving DecidableEq, Repr

/-- Hearth through a reset: its contents and metadata copies where it is kept. (DEDUCED, log 1802.) -/
def HearthSt.throughReset (h : HearthSt) (keep : Bool) : HearthSt :=
  if keep then { mem := h.mem, badWords := h.badWords, metaCopies := h.metaCopies, wordFenced := h.wordFenced } else {}

/-- The main domain goes into reset (R481): every register and unit at its reset value but for what R481 keeps; `hard` for RESET_N and
the removal of power (R443). (DEDUCED, log 1602.) -/
def State.holdMain (s : State) (hard : Bool) (k : Kept) : State :=
  let s := s.cutKeyJob.takeLifecycle
  { pending := s.pending
    outbox := s.outbox
    now := s.now
    freeCtr := s.freeCtr
    regs := s.keptRegs hard
    sram := if k.sram then s.sram else []
    intc := { tgts := resetTgts }
    fc := { log := if hard then [] else s.fc.log, firstStamp := if hard then 0 else s.fc.firstStamp, heldMc2 := true, heldMc3 := true }
    hm := s.hm.throughReset k.hearth
    emb := { s.emb with main := false, retained := k.hearth }
    kin := { pgoodLoss := s.kin.pgoodLoss }
    sec := { s.sec with session := false, chal := none }
    flash := s.flash }

/-- Kindling starts (R418): its cause and its start instant. -/
def State.startKindling (s : State) (cause : Nat) : State :=
  { s with kin := { cause := cause, startTick := s.emberTimer, pgoodLoss := s.kin.pgoodLoss } }

/-! ### The handle table through self-refresh (R82, R83) -/

/-- The handle table as numbers: of each handle its number, owner, state, plane sizes and cell lists (R82). -/
def metaWords (hs : List (Nat × Handle)) : List Nat :=
  hs.flatMap fun e => [e.1, b2n e.2.alloc, e.2.owner, e.2.st.code, e.2.alloc1, e.2.sizes.length] ++ e.2.sizes ++
    e.2.cells.flatMap fun cs => cs.length :: cs

/-- One copy of the handle table fills a metadata cell: its words become clean, and what they hold is free, as the spec gives the copy's
contents but no layout (R82). (DEDUCED, log 316.) -/
def State.writeCopy (s : State) (cell : Nat) (ok : Bool) : State :=
  let bs := (Config.metaImage (b2n ok) (metaWords s.hm.handles)).take 65536
  let s := { s with hm := { s.hm with mem := storeBytes (zeroBytes s.hm.mem (cell * 65536) 65536) (cell * 65536) bs } }
  (s.countWr (chanOf cell) 2048).cellStored cell fun _ => false

/-- The metadata cells of the two lowest-numbered unfenced channels (R65, R82). -/
def State.metaCells (s : State) : List Nat := (s.unfenced.take 2).map fun c => 4088 + c

/-- The Hearth controller drains its write queues, writes the two copies of the handle table and records the fence state (R82); an armed META
injection spoils the CRC of a copy. -/
def State.writeMeta (s : State) : State :=
  let s := s.hm.writes.foldl (fun s w => s.ackWrite w .clean) s
  let n := s.fc.metaInj
  let s := ((s.metaCells.zip [n == 0, n < 2])).foldl (fun s c => s.writeCopy c.1 c.2) s
  let s := { s with hm := { s.hm with metaCopies := [(n == 0, s.hm.handles), (n < 2, s.hm.handles)] },
                    fc := { s.fc with metaInj := n - 2 },
                    emb := { s.emb with fences := s.get Reg.HM_STATUS_FENCED, unreadable := s.get Reg.HM_STATUS_UNREADABLE } }
  (s.put Reg.FC_INJ_META (b2n (2 < n))).put Reg.HM_STATUS_SELF_REFRESH 1

/-- A handle after the restore of R83. -/
def Handle.restored (h : Handle) : Handle :=
  match h.st with
  | .shown => { h with st := .sealed }
  | .filling => { h with st := .empty }
  | _ => h

/-- Hearth leaves self-refresh (R83): the handle table comes from the first copy whose CRC matches; `bad` marks copies that read with
a mismatch. With both bad Hearth waits for cold initialisation. (DEDUCED, log 307.) -/
def State.restoreHearth (s : State) (bad : Nat) : State :=
  let ok : Nat → Bool := fun i =>
    match s.hm.metaCopies[i]? with
    | some c => c.1 && !bit bad i
    | none => false
  let inj := s.hm.metaCopies.any fun c => !c.1
  let use := if ok 0 then s.hm.metaCopies[0]? else if ok 1 then s.hm.metaCopies[1]? else none
  match use with
  | some c =>
    let s := { s with hm := { s.hm with handles := c.2.map fun (e : Nat × Handle) => (e.1, e.2.restored), metaCopies := [] } }
    let s := (s.put Reg.HM_STATUS_FENCED s.emb.fences).put Reg.HM_STATUS_UNREADABLE s.emb.unreadable
    let s := (s.put Reg.CAPACITY_HEARTH_CH s.unfenced.length).put Reg.HM_STATUS_EVAC_BUSY (b2n (!s.evacuating.isEmpty))
    let s := s.hearthReady
    if ok 0 && ok 1 then s else s.fault .HM_META_CRC_ONE inj
  | none => ({ s with hm := { mem := s.hm.mem } }).fault .HM_META_CRC_BOTH inj

/-! ### Release (R362, R419) -/

/-- The main domain leaves reset: REFCLK is good, and the CORE, HEARTH and CAGAN PLLs begin to lock; Hearth is restored where it was kept; the
wake inputs set their sources pending (R362), and source 190 reports that the link is down; after a warm Kindling the safe state persists and the
ports send SAFE (R433). (DEDUCED, log 307; DEDUCED, log 1602; DEDUCED, log 1708.) -/
def State.releaseMain (s : State) (bad : Nat) : State :=
  let cause := s.kin.cause
  let s := { s with emb := { s.emb with main := true, waking := false, target := 0, parked := false, seen := 0 },
                    kin := { s.kin with resetAt := s.now } }
  let s := ((forAll [12, 13, 14] (fun i s => s.startLock i false) s).put Reg.CLK_STATUS_REF_OK 1).setAkState 0
  let s := if s.emb.retained then s.restoreHearth bad else s
  let s := { s with emb := { s.emb with retained := false } }
  let s := if cause = 1 ∨ cause = 2 then
      forAll (maskBits 6 (s.get Reg.EMB_WAKE_SEEN_SEEN)) (fun b s => s.occur (216 + b)) s
    else s
  let s := if cause = 3 then forAll allPipes (fun p s => s.portSafe p 1) ((s.put Reg.FC_STATUS_SAFE 1).put Reg.AK_STATUS_FATAL_TX 1) else s
  s.faultLines

end Sys2Proof.Machine
end

