-- ==== Sys2Proof/Machine/Fault.lean ====
section
/-! DEFINITION. The commands of the fault collector (chapter 18) but for the report itself: quiet, clearing, Glow, watchdogs, the clear of an
FT and injection. -/
namespace Sys2Proof.Machine

/-! ### Quiet and clearing (R440, R441, R443) -/

/-- QUIET in force (R455). -/
def State.quiet (s : State) : Nat := max 1 (s.get Reg.FC_CFG_QUIET)

/-- The ACTIVE bit of fault `f` clears once QUIET orbits have passed with no further report, and its condition has ended (R440). -/
def State.quietExpiry (s : State) (f : FaultId) : State :=
  if s.fc.conds.contains f.code || s.orbit.orbits < SMap.get 0 s.fc.lastReport f.code + s.quiet then s
  else s.clrBits (Reg.FC_STAT_ACTIVE (faultGroup f.code)) (2 ^ (faultRow f.code - 1))

/-- FAULT_QUIET_EXPIRY (R440). -/
def execFaultQuietExpiry (f : FaultId) (s : State) : Host.Outcome State Fault Refusal := done (s.fresh.quietExpiry f)

/-- What follows from cleared LATCHED bits: sprites skipped after CLU_ATLAS are drawn again (R168), and the AVS loop resumes (R413). -/
def State.afterClear (s : State) : State :=
  let s := if s.cleared .CLU_ATLAS && !s.bc.badSprites.isEmpty then
      ({ s with bc := { s.bc with badSprites := [] } }).put Reg.CLU_STATUS_ATLAS_BAD 0
    else s
  let s := if s.cleared .AVS_BUS then { s with pwr := { s.pwr with avsStopped := false } } else s
  s.faultLines

/-- A clear of LATCHED bits of group `g` (R441): a bit whose ACTIVE is 1 and a bit of a fault treated as FT stay latched. -/
def State.clearLatched (s : State) (g m : Nat) : State :=
  let keep := s.get (Reg.FC_STAT_ACTIVE g) ||| s.ftMask g
  (s.clrBits (Reg.FC_STAT_LATCHED g) (m - (m &&& keep))).afterClear

/-- FC_STAT_CLEAR (R441). -/
def execFcStatClear (o : Origin) (g : Nat) (v : Word) (s : State) : Host.Outcome State Fault Refusal :=
  done (s.fresh.when (1 ≤ g && g ≤ 14) fun s => s.written o (Reg.a_FC_STAT g) v fun _ is w s => s.clearLatched (is.headD 0) (bits w 15 0))

/-- FC_FIRST_CLEAR: a write of FC_FIRST (R443). -/
def execFcFirstClear (o : Origin) (v : Word) (s : State) : Host.Outcome State Fault Refusal :=
  done (s.fresh.written o Reg.a_FC_FIRST v fun _ _ w s => s.when (bit w 31) fun s => s.put Reg.FC_FIRST_VALID 0)

/-! ### The clear of an FT (R450, R451, R433) -/

/-- Whether the clear of an FT is accepted (R450). -/
def State.ftClearable (s : State) : Bool :=
  s.is Reg.FC_STATUS_SAFE && !s.is Reg.FC_STATUS_HARD &&
    faultGroups.all fun g => (s.get (Reg.FC_STAT_ACTIVE g) &&& s.ftMask g) == 0

/-- Whether Hearth is initialised from cold at a warm Kindling (R433): HM_DEGRADED or CLK_HM_LOSS is latched. -/
def State.hearthLost (s : State) : Bool := !s.cleared .HM_DEGRADED || !s.cleared .CLK_HM_LOSS

/-- A warm Kindling starts (R433): Hearth goes into self-refresh where it is kept, and the main domain into reset for 100 µs. -/
def State.warmKindling (s : State) (cold : Bool) : State :=
  let keep := !cold && s.hmReady
  let s := if keep then s.writeMeta else s
  (s.holdMain false ⟨keep, true⟩).startKindling 3

/-- A request to clear an FT (R450), and whether it was accepted. -/
def State.clearFt (s : State) : State × Bool :=
  if s.ftClearable then
    let cold := s.hearthLost
    let s := faultGroups.foldl (fun s g => s.clrBits (Reg.FC_STAT_LATCHED g) (s.ftMask g)) s
    (s.warmKindling cold, true)
  else (s.put Reg.FC_STATUS_CLEAR_REFUSED 1, false)

/-- FC_CLEAR (R450): any value but 0x5AFE is ignored. -/
def execFcClear (o : Origin) (v : Word) (s : State) : Host.Outcome State Fault Refusal :=
  done (s.fresh.written o Reg.a_FC_CLEAR v fun _ _ w s => if bits w 15 0 = 0x5AFE then s.clearFt.1 else s)

/-! ### Glow (R444) -/

/-- Whether the safety pair executes: not held in reset and not halted (R448, R462). -/
def State.pairRuns (s : State) : Bool := !s.is Reg.FC_STATUS_PAIR_HELD && !s.fc.halted.contains 0

/-- A kick (R444). Before the first accepted kick the check is disarmed: a wrong key is then no kick. (DEDUCED, log 1804.) -/
def State.kick (s : State) (key : Nat) : State :=
  if s.is Reg.FC_STATUS_SAFE || !s.pairRuns then s
  else
    let (s, inj) := s.takeInj Reg.FC_INJ_KICK
    let wrong := inj || key != (if s.fc.expectSecond then 0xA55A else 0x5AA5)
    if !s.fc.armed then
      if wrong then s else { s with fc := { s.fc with armed := true, kicked := true, expectSecond := !s.fc.expectSecond } }
    else if wrong || s.fc.kicked then s.fault .SP_WDT inj
    else { s with fc := { s.fc with kicked := true, expectSecond := !s.fc.expectSecond } }

/-- FC_KICK (R444). -/
def execFcKick (o : Origin) (v : Word) (s : State) : Host.Outcome State Fault Refusal :=
  done (s.fresh.written o Reg.a_FC_KICK v fun _ _ w s => s.kick (bits w 15 0))

/-- A Glow half period ends (R444). -/
def State.glowHalf (s : State) : State :=
  if s.is Reg.FC_STATUS_SAFE || !s.fc.armed then s
  else if s.fc.kicked then { s with fc := { s.fc with glow := !s.fc.glow, kicked := false } }
  else s.fault .SP_WDT

/-- GLOW_HALF_PERIOD (R444). -/
def execGlowHalfPeriod (s : State) : Host.Outcome State Fault Refusal := done s.fresh.glowHalf

/-! ### The service core watchdog (R445) -/

/-- Whether service core `c` is held in reset. -/
def State.scHeld (s : State) (c : Nat) : Bool := if c = 2 then s.fc.heldMc2 else s.fc.heldMc3

/-- Service core `c` kicks its watchdog, or its kick is used up. -/
def State.scSetKick (s : State) (c : Nat) (b : Bool) : State :=
  if c = 2 then { s with fc := { s.fc with kickedMc2 := b } } else { s with fc := { s.fc with kickedMc3 := b } }

/-- An accepted write of FC_SCKICK (R445): bit 0 by MC2 only, bit 1 by MC3 only. -/
def State.scKick (s : State) (o : Origin) (w : Nat) : State :=
  if (bit w 0 && o != .mc2) || (bit w 1 && o != .mc3) then s.fault .ACC_REFUSED
  else
    let s := s.when (bit w 0) fun s => s.scSetKick 2 true
    s.when (bit w 1) fun s => s.scSetKick 3 true

/-- FC_SCKICK (R445). -/
def execFcSckick (o : Origin) (v : Word) (s : State) : Host.Outcome State Fault Refusal :=
  done (s.fresh.written o Reg.a_FC_SCKICK v fun _ _ w s => s.scKick o w)

/-- The watchdog of service core `c` expires: the core is held in reset (R445, Table 18.2). -/
def State.scExpire (s : State) (c : Nat) (inj : Bool) : State := (s.fault .SC_WDT inj).holdCore c

/-- A watchdog period of service core `c` ends (R445). -/
def State.scPeriod (s : State) (c : Nat) : State :=
  if (c ≠ 2 ∧ c ≠ 3) || s.get Reg.FC_WDT_SC_MS == 0 || s.scHeld c then s
  else
    let hit := s.get Reg.FC_INJ_CORE == c - 2
    let (s, inj) := if hit then s.takeInj Reg.FC_INJ_SCWDT else (s, false)
    if inj then s.scExpire c true
    else if (if c = 2 then s.fc.kickedMc2 else s.fc.kickedMc3) then s.scSetKick c false
    else s.scExpire c false

/-- SC_WDT (R445). -/
def execScWdt (c : Nat) (s : State) : Host.Outcome State Fault Refusal := done (s.fresh.when (c == 2 || c == 3) fun s => s.scPeriod c)

/-- CORE_HALT (R462): DEBUG halts a core, or lets it run again, while debug access is open. -/
def execCoreHalt (c : Nat) (b : Bool) (s : State) : Host.Outcome State Fault Refusal :=
  let s := s.fresh
  let rest := s.fc.halted.filter fun x => x != c
  done (if s.debugOpen && s.emb.main && (c == 0 || c == 2 || c == 3) then
      { s with fc := { s.fc with halted := if b then c :: rest else rest } }
    else s)

/-! ### Injection (R452) -/

/-- A write of FC_INJ. REG and LOCKSTEP meet comparisons of every cycle and are used at once; SCWDT expires a running watchdog at once; the
other bits stay armed until they are used. (DEDUCED, log 1112; DEDUCED, log 1604.) -/
def State.fcInj (s : State) (row : RegRow) (w : Nat) : State :=
  let s := s.storeArm Reg.a_FC_INJ row w
  let s := if bit w 10 then { s with fc := { s.fc with metaInj := s.fc.metaInj + 1 } } else s
  let c := 2 + s.get Reg.FC_INJ_CORE
  let s := if bit w 4 && s.get Reg.FC_WDT_SC_MS != 0 && !s.scHeld c then (s.put Reg.FC_INJ_SCWDT 0).scExpire c true else s
  let (s, lock) := s.takeInj Reg.FC_INJ_LOCKSTEP
  let s := s.when lock fun s => s.fault .SP_LOCKSTEP true
  let (s, reg) := s.takeInj Reg.FC_INJ_REG
  s.when reg fun s => s.fault .FC_REG_MISMATCH true

/-- FC_INJ (R452). -/
def execFcInj (o : Origin) (v : Word) (s : State) : Host.Outcome State Fault Refusal :=
  done (s.fresh.written o Reg.a_FC_INJ v fun row _ w s => s.fcInj row w)

end Sys2Proof.Machine
end

