-- ==== Sys2Proof/Machine/Power.lean ====
section
/-! DEFINITION. The commands of power (chapter 16), of the Ember domain and of the reset pins (R398–R403, R417–R419, R434, R489–R497): power
states, wake, PGOOD, RESET_N, the budget, the thermal sensors and the AVS loop. -/
namespace Sys2Proof.Machine

/-! ### Requests for SMOULDER and EMBER (R399, R400) -/

/-- The judgement of a request for a power state by a path (R399), in the encoding of PWR_STATE.RESULT. -/
def State.judgePower (s : State) (path : Nat) : Nat :=
  if allPipes.any fun p => s.mode p != .stopped then 1
  else if s.owner unitPower ≠ path then 2
  else if s.is Reg.PWR_STATE_BUSY then 3
  else 0

/-- Steps 1 to 3 of R400: channels and sessions end, the Aknum link sends IDLE_ENTER where it can and goes to DOWN, CAN falls silent, the floors
are saved and the edge of FSYNC_IN is copied. (DEDUCED, log 1601.) -/
def State.beginEntry (s : State) (t : Nat) : State :=
  let s := (s.put Reg.PWR_STATE_BUSY 1).put Reg.PWR_STATE_STATE 2
  let s := ((forAll (rangeFrom 0 112) (fun c s => s.beginAbort c) s).closeCodec).akPark
  let s := { s with flash := { s.flash with floors := [0, 1, 2].map fun k => (k, s.get (Reg.OD_FLOOR_FLOOR k)) },
                    emb := { s.emb with target := t, parked := false, seen := 0 } }
  s.put Reg.EMB_FILTER_FSYNC_EDGE (s.get Reg.ORB_CTRL_FSYNC_EDGE)

/-- A request for SMOULDER (1) or EMBER (2) by a path is judged (R399); other values are ignored. (DEDUCED, log 1601.) -/
def State.powerRequest (s : State) (path t : Nat) : State × Nat :=
  if t ≠ 1 ∧ t ≠ 2 then (s, 0)
  else
    let r := s.judgePower path
    let s := s.put Reg.PWR_STATE_RESULT r
    (if r = 0 then s.beginEntry t else s, r)

/-- An accepted write of PWR_STATE. -/
def State.writePwrState (s : State) (o : Origin) (w : Nat) : State := (s.powerRequest (originPath o) (bits w 9 8)).1

/-- SMOULDER_REQUEST: a write of PWR_STATE with REQ 1 (R399). -/
def execSmoulderRequest (o : Origin) (s : State) : Host.Outcome State Fault Refusal :=
  done (s.fresh.written o Reg.a_PWR_STATE 0x100#32 fun _ _ w s => s.writePwrState o w)

/-- EMBER_REQUEST: a write of PWR_STATE with REQ 2 (R399). -/
def execEmberRequest (o : Origin) (s : State) : Host.Outcome State Fault Refusal :=
  done (s.fresh.written o Reg.a_PWR_STATE 0x200#32 fun _ _ w s => s.writePwrState o w)

/-- The items of a package header (Table 17.2): type, offset, length and destination of item `i`. -/
def headerItem (h : List Byte) (i : Nat) : Nat × Nat × Nat × Nat :=
  let f := fun k => leNat ((h.drop (16 + 48 * i + k)).take 4)
  (f 0, f 4, f 8, f 12)

/-- The number of items of a package header. -/
def headerCount (h : List Byte) : Nat := leNat ((h.drop 8).take 4)

/-- The item of a type, if the header lists one: its offset, length, destination and its number. -/
def headerFind (h : List Byte) (t : Nat) : Option (Nat × Nat × Nat × Nat) :=
  ((rangeFrom 0 (min 8 (headerCount h))).find? fun i => (headerItem h i).1 == t).map fun i =>
    ((headerItem h i).2.1, (headerItem h i).2.2.1, (headerItem h i).2.2.2, i)

/-- The bytes of a Kindling image (R422): the header, then items 1 to 4 as they stand in service SRAM. (DEDUCED, log 1701.) -/
def State.imageBytes (s : State) : List Byte :=
  s.kin.header ++ [1, 2, 3, 4].flatMap fun t =>
    match headerFind s.kin.header t with
    | some (_, n, d, _) => s.sramLoad d n
    | none => []

/-- The safety pair keeps a Kindling image in Hearth (R422), in the lowest unallocated handle, and records the handle in EMB_SCRATCH_0; 0
where there is no package in use or no space. -/
def State.keepImage (s : State) : State :=
  let h := ((rangeFrom 0 1024).find? fun h => !(s.handle h).alloc).getD 1024
  if s.kin.header.isEmpty || h == 1024 || !s.hmReady then s.put (Reg.EMB_SCRATCH_DATA 0) 0
  else
    let bs := s.imageBytes
    let (t, code) := s.allocHandle 2 h [bs.length]
    if code ≠ 0 then s.put (Reg.EMB_SCRATCH_DATA 0) 0
    else ((t.planeWrite h 0 0 bs).setBuf h .sealed).put (Reg.EMB_SCRATCH_DATA 0) (2 ^ 31 + h)

/-- The rest of the entry (R400, steps 4 and 5): for SMOULDER the Kindling image and the handle table are kept and Hearth enters
self-refresh; the main domain goes into reset and the enables fall. (DEDUCED, log 1601.) -/
def State.finishEntry (s : State) : State :=
  if s.emb.target = 0 || !s.emb.main then s
  else
    let t := s.emb.target
    let keep := t == 1 && s.hmReady
    let s := if t = 1 then s.keepImage else s
    let s := if keep then s.writeMeta else s
    let s := s.holdMain false ⟨keep, false⟩
    { s with emb := { s.emb with pmicEn := false, retEn := t == 1 } }

/-- Ember starts a wake (R401): the inputs are latched, both enables are driven high, and Kindling starts. -/
def State.startWake (s : State) (m : Nat) : State :=
  let t := s.emb.target
  let s := s.put Reg.EMB_WAKE_SEEN_SEEN m
  let s := (s.put Reg.EMB_STATUS_WOKE_FROM t).put Reg.EMB_STATUS_RETAINED (b2n s.emb.retained)
  ({ s with emb := { s.emb with pmicEn := true, retEn := true, waking := true, seen := 0 } }).startKindling t

/-- POWER_STATE_REACHED (R400 step 6, R402): PGOOD has been low for 1 ms; inputs seen during entry start the wake now. -/
def State.stateReached (s : State) : State :=
  if s.emb.target = 0 || s.emb.waking || (s.emb.parked && !s.emb.pgood) then s
  else
    let s := s.finishEntry
    let s := { s with emb := { s.emb with pgood := false, parked := true } }
    if s.emb.seen = 0 then s else s.startWake s.emb.seen

/-- POWER_STATE_REACHED (R400). -/
def execPowerStateReached (s : State) : Host.Outcome State Fault Refusal := done s.fresh.stateReached

/-- PGOOD does not fall within 50 ms of step 5 (R400): recorded, and Ember stays in the target state. -/
def State.pgoodStuck (s : State) : State :=
  if s.emb.target = 0 || s.emb.parked then s
  else
    let s := s.finishEntry.put Reg.EMB_STATUS_PGOOD_STUCK 1
    { s with emb := { s.emb with parked := true } }

/-- PGOOD_STUCK (R400). -/
def execPgoodStuck (s : State) : Host.Outcome State Fault Refusal := done s.fresh.pgoodStuck

/-! ### Wake and reset (R401–R403, R419, R434) -/

/-- Ember sees wake inputs (R401, R402): selected ones start the wake, or wait for the end of the entry. While RESET_N is low the wake logic
is in reset (R434). -/
def State.wake (s : State) (m : Nat) : State :=
  let m := m % 64 &&& s.get Reg.EMB_WAKE_MASK_MASK
  if m = 0 || s.emb.target == 0 || !s.emb.resetN || !s.emb.supply then s
  else if s.emb.waking then s.orBits Reg.EMB_WAKE_SEEN_SEEN m
  else if !s.emb.parked then { s with emb := { s.emb with seen := s.emb.seen ||| m } }
  else s.startWake m

/-- WAKE (R401). -/
def execWake (m : Nat) (s : State) : Host.Outcome State Fault Refusal := done (s.fresh.wake m)

/-- PGOOD rises (R419); for CAUSE 0 this is the start instant (R418). -/
def State.pgoodRise (s : State) : State :=
  if s.emb.pgood || !s.emb.pmicEn then s
  else
    let s := { s with emb := { s.emb with pgood := true } }
    if s.kin.cause = 0 && s.emb.resetN then { s with kin := { s.kin with startTick := s.emberTimer } } else s

/-- PGOOD_RISE (R419). -/
def execPgoodRise (s : State) : Host.Outcome State Fault Refusal := done s.fresh.pgoodRise

/-- The main domain leaves reset (R419): PGOOD has been high for 100 µs, PMIC_EN is high and RESET_N is not low. -/
def State.mainRelease (s : State) (bad : Nat) : State :=
  if s.emb.main || !s.emb.pgood || !s.emb.pmicEn || !s.emb.resetN || !s.emb.supply then s else s.releaseMain bad

/-- MAIN_RESET_RELEASE (R419). -/
def execMainResetRelease (bad : Nat) (s : State) : Host.Outcome State Fault Refusal := done (s.fresh.mainRelease bad)

/-- PGOOD falls without a request (R403): the main domain goes into reset, FAULT_N stays low until the next Kindling has completed, the
enables fall, and the TD96 is in EMBER. -/
def State.pgoodLost (s : State) : State :=
  if !s.emb.pgood then s
  else if !s.emb.main || s.emb.target != 0 then { s with emb := { s.emb with pgood := false } }
  else
    let s := (s.holdMain false ⟨false, false⟩).put Reg.EMB_STATUS_PGOOD_LOST 1
    { s with emb := { s.emb with pgood := false, pmicEn := false, retEn := false, target := 2, parked := true, seen := 0, waking := false },
             kin := { s.kin with pgoodLoss := true } }

/-- PGOOD_LOST (R403). -/
def execPgoodLost (s : State) : Host.Outcome State Fault Refusal := done s.fresh.pgoodLost

/-- RESET_N falls (R434): the main domain and the wake logic are held in reset. -/
def State.resetAssert (s : State) : State :=
  if !s.emb.resetN || !s.emb.supply then s
  else
    let s := s.holdMain true ⟨false, true⟩
    { s with emb := { s.emb with resetN := false, seen := 0, waking := false, fences := 0, unreadable := 0 } }

/-- RESET_N_ASSERT (R434). -/
def execResetNAssert (s : State) : Host.Outcome State Fault Refusal := done s.fresh.resetAssert

/-- RESET_N rises (R434): Kindling runs with CAUSE 0; a parked TD96 drives its enables high. -/
def State.resetRelease (s : State) : State :=
  if s.emb.resetN || !s.emb.supply then s
  else
    ({ s with emb := { s.emb with resetN := true, pmicEn := true, retEn := true, target := 0, parked := false } }).startKindling 0

/-- RESET_N_RELEASE (R434). -/
def execResetNRelease (s : State) : Host.Outcome State Fault Refusal := done s.fresh.resetRelease

/-! ### The Ember supplies (R489, R490, R497) -/

/-- Whether an address lies in the EMBER block. -/
def isEmberReg (a : Nat) : Bool := 0x20B00000 ≤ a && a < 0x20B10000

/-- The Ember supplies fall (R489): as at power removal. The floors are lost; OTP and flash stay. -/
def State.supplyLoss (s : State) : State :=
  if !s.emb.supply then s
  else
    let s := s.holdMain true ⟨false, false⟩
    { s with regs := s.regs.filter fun e => !isEmberReg e.1 && !(0x20C00018 ≤ e.1 && e.1 < 0x20C00024)
             emb := { supply := false, pmicEn := false, retEn := false, pgood := false, resetN := s.emb.resetN, main := false }
             kin := {} }

/-- EMBER_SUPPLY_LOSS (R489). -/
def execEmberSupplyLoss (s : State) : Host.Outcome State Fault Refusal := done s.fresh.supplyLoss

/-- The Ember power-on reset ends (R490): both enables are driven high; the floors restart at their saved values plus 4,096 (R381). -/
def State.emberOn (s : State) : State :=
  if s.emb.supply then s
  else
    let s := { s with emb := { s.emb with supply := true, pmicEn := true, retEn := true, timerAt := s.now } }
    let s := forAll [0, 1, 2] (fun k s => s.put (Reg.OD_FLOOR_FLOOR k) ((SMap.get 0 s.flash.floors k + 4096) % 2 ^ 32)) s
    s.startKindling 0

/-- EMBER_POWER_ON (R490). -/
def execEmberPowerOn (s : State) : Host.Outcome State Fault Refusal := done s.fresh.emberOn

/-- CRYSTAL_STABLE (R497). -/
def execCrystalStable (s : State) : Host.Outcome State Fault Refusal :=
  let s := s.fresh
  done (if s.emb.supply then { s with emb := { s.emb with crystal := true } } else s)

/-! ### Budget, sensors and supply (R404–R414) -/

/-- An accepted write of PWR_BUDGET: values outside 64 to 288 are clamped; it is taken at the next grant (R405, R416). -/
def State.writeBudget (s : State) (w : Nat) : State :=
  (s.put Reg.PWR_BUDGET_TOKENS (min 288 (max 64 (bits w 8 0)))).refreshThrottle

/-- PWR_BUDGET_WRITE (R405). -/
def execPwrBudgetWrite (o : Origin) (v : Word) (s : State) : Host.Outcome State Fault Refusal :=
  done (s.fresh.written o Reg.a_PWR_BUDGET v fun _ _ w s => s.writeBudget w)

/-- A write of PWR_INJ: the bits stay armed until they are used; AVS may be set twice (Table 16.5). (DEDUCED, log 1604.) -/
def State.pwrInj (s : State) (row : RegRow) (w : Nat) : State :=
  let s := s.storeArm Reg.a_PWR_INJ row w
  if bit w 2 then { s with pwr := { s.pwr with avsInj := s.pwr.avsInj + 1 } } else s

/-- PWR_INJ (R414). -/
def execPwrInj (o : Origin) (v : Word) (s : State) : Host.Outcome State Fault Refusal :=
  done (s.fresh.written o Reg.a_PWR_INJ v fun row _ w s => s.pwrInj row w)

/-- Inserts into a rising list. -/
def insertInt (x : Int) : List Int → List Int
  | [] => [x]
  | y :: ys => if x ≤ y then x :: y :: ys else y :: insertInt x ys

/-- Twice the median of readings; that of an even number is the mean of the two in the middle. (DEDUCED, log 1603.) -/
def median2 (xs : List Int) : Int :=
  let q := xs.foldl (fun a x => insertInt x a) []
  q.getD ((q.length - 1) / 2) 0 + q.getD (q.length / 2) 0

/-- The sensors that are valid at a reading (R410): within −55 to +150 °C and within 3 °C of the median; `out` is a sensor that an
injection makes implausible. -/
def validAt (ts : List Int) (out : Option Nat) : List Nat :=
  let ok := (rangeFrom 0 16).filter fun i => (-220 ≤ ts.getD i 0 && ts.getD i 0 ≤ 600) && out != some i
  let m := median2 (ok.map fun i => ts.getD i 0)
  ok.filter fun i => -24 ≤ 2 * ts.getD i 0 - m && 2 * ts.getD i 0 - m ≤ 24

/-- The highest valid reading and the lowest sensor that gives it. (DEDUCED, log 1603.) -/
def hottest (ts : List Int) (vs : List Nat) : Option (Int × Nat) :=
  vs.foldl (fun b i =>
    match b with
    | none => some (ts.getD i 0, i)
    | some (t, _) => if t < ts.getD i 0 then some (ts.getD i 0, i) else b) none

/-- The thermal sensors are read (R410, R411, R414). -/
def State.readSensors (s : State) (ts : List Int) : State :=
  let (s, sen) := s.takeInj Reg.PWR_INJ_SENSOR
  let (s, crit) := s.takeInj Reg.PWR_INJ_CRIT
  let out := if sen then some (s.get Reg.PWR_INJ_SEL) else none
  let vs := validAt ts out
  let was := maskBits 16 (s.get Reg.TH_VALID_VALID)
  let newly := was.filter fun i => !vs.contains i
  let s := forAll (rangeFrom 0 16) (fun i s => s.put (Reg.TH_SENSOR_TEMP i) (toTwos (ts.getD i 0) 16)) s
  let s := s.put Reg.TH_VALID_VALID (vs.foldl (fun m i => m + 2 ^ i) 0)
  let s :=
    if !newly.isEmpty then
      let s := s.condBegins .TH_SENSOR
      s.pwrFault .TH_SENSOR 1 (newly.all fun i => out == some i)
    else if vs.length = 16 then s.condition .TH_SENSOR false
    else s
  let s := match hottest ts vs with
    | some (t, i) => (s.put Reg.TH_STATUS_TJ (toTwos t 16)).put Reg.TH_STATUS_HOT i
    | none => s
  let s := if crit then s.put Reg.TH_STATUS_TJ 488 else s
  let tj := sext (s.get Reg.TH_STATUS_TJ) 16
  let hyst := 4 * s.get Reg.TH_CFG_HYST
  let s := if ((4 * s.get Reg.TH_CFG_THR - hyst : Nat) : Int) ≤ tj then { s with pwr := { s.pwr with hot := true } } else s
  let held := s.fc.conds.contains FaultId.TH_CRIT.code
  let now : Bool := if held then ((488 - hyst : Nat) : Int) ≤ tj else 488 ≤ tj
  let s := if now && !held then s.put Reg.PWR_ERR_INFO_FAULT 2 else s
  s.condition .TH_CRIT now crit

/-- TH_SENSOR_READ (R410). -/
def execThSensorRead (ts : List Int) (s : State) : Host.Outcome State Fault Refusal := done (s.fresh.readSensors ts)

/-- The next AVS target (R412): 10 mV up below MLO, 5 mV down after 8 periods above MHI, between 650 and 850 mV; and the count of
periods above MHI. -/
def State.avsTarget (s : State) (m : Nat) : Nat × Nat :=
  let t := s.get Reg.AVS_STATUS_TARGET_MV
  let lo := s.get Reg.AVS_CFG_MLO
  let hi := if s.get Reg.AVS_CFG_MHI ≤ lo then lo + 1 else s.get Reg.AVS_CFG_MHI
  if m < lo then (min 850 (t + 10), 0)
  else if hi < m then (if s.pwr.easy + 1 = 8 then (max 650 (t - 5), 0) else (t, s.pwr.easy + 1))
  else (t, 0)

/-- Whether an AVSBus exchange is good (R413): acknowledged, its CRC right, and the readback within 15 mV of the target. -/
def avsGood (r : Option Nat) (t : Nat) : Bool :=
  match r with
  | some v => v ≤ t + 15 && t ≤ v + 15
  | none => false

/-- The AVSBus frames of one exchange (R413), with the rail of AVS_CFG: the write-and-commit of a new target and the read of Status that follows
it, then the read of Voltage. -/
def State.avsExchange (s : State) (old t : Nat) : State :=
  let rail := s.get Reg.AVS_CFG_RAIL
  let s := if t = old then s else (s.emit (.avsFrame rail .write t)).emit (.avsFrame rail .status 0)
  s.emit (.avsFrame rail .read 0)

/-- An AVS period (R412, R413): the margin is judged, the target set over AVSBus, and a failed exchange sent once more. -/
def State.avsPeriod (s : State) (m : Nat) (r1 r2 : Option Nat) : State :=
  if s.pwr.avsStopped || !s.pllLocked 12 then s
  else
    let (s, inj) := s.takeInj Reg.PWR_INJ_MARGIN
    let m := if inj then 0 else m
    let s := s.put Reg.AVS_STATUS_MARGIN (min 255 m)
    let s := if m < 10 && s.get Reg.AVS_STATUS_TARGET_MV == 850 then s.pwrFault .AVS_MARGIN 5 inj else s
    let (t, easy) := s.avsTarget m
    let old := s.get Reg.AVS_STATUS_TARGET_MV
    let s := (({ s with pwr := { s.pwr with easy := easy } }).put Reg.AVS_STATUS_TARGET_MV t).avsExchange old t
    let n := s.pwr.avsInj
    let used := if n = 0 then 0 else if n = 1 then 1 else 2
    let s := { s with pwr := { s.pwr with avsInj := n - used } }
    let s := s.put Reg.PWR_INJ_AVS (b2n (used < n))
    let s := match (if 1 ≤ n then none else r1), (if 2 ≤ n then none else r2) with
      | some v, _ => s.put Reg.AVS_STATUS_READ_MV v
      | none, some v => s.put Reg.AVS_STATUS_READ_MV v
      | none, none => s
    if n = 0 && avsGood r1 t then s
    else
    let s := s.avsExchange old t
    if n ≤ 1 && avsGood r2 t then s.pwrFault .AVS_BUS_RETRY 3 (1 ≤ n)
    else ({ s with pwr := { s.pwr with avsStopped := true } }).pwrFault .AVS_BUS 4 (2 ≤ n)

/-- AVS_PERIOD (R412). -/
def execAvsPeriod (m : Nat) (r1 r2 : Option Nat) (s : State) : Host.Outcome State Fault Refusal := done (s.fresh.avsPeriod m r1 r2)

end Sys2Proof.Machine
end

