-- ==== Sys2Proof/Machine/Security.lean ====
section
/-! DEFINITION. Access control and keys (chapter 19): the lifecycle, debug sessions, the key store, the check of a Kindling package (R420,
R421, R466, R467) and recovery. -/
namespace Sys2Proof.Machine

/-! ### Lifecycle (R457) -/

/-- Lifecycle states (SEC_STATUS.LC). -/
def lcBlank : Nat := 0
def lcDevelop : Nat := 1
def lcField : Nat := 2
def lcRetired : Nat := 3

/-- The lifecycle state. -/
def State.lifecycle (s : State) : Nat := s.get Reg.SEC_STATUS_LC

/-- Whether Table 19.2 has a row for a request of `t` by a requester, and its condition holds. -/
def State.lcAllowed (s : State) (o : Origin) (t : Nat) : Bool :=
  let lc := s.lifecycle
  if lc = lcBlank ∧ t = lcDevelop then s.sec.pwd.isSome
  else if lc = lcDevelop ∧ t = lcField then s.get (keyStateField 8) == keyValid || s.get (keyStateField 9) == keyValid
  else if lc = lcDevelop ∧ t = lcRetired then true
  else if lc = lcField ∧ t = lcRetired then o == .debug && s.sec.session
  else false

/-- A request for a lifecycle transition (R457): another KEY ignores the write. -/
def State.requestLifecycle (s : State) (o : Origin) (w : Nat) : State :=
  if bits w 31 16 ≠ 0xA5C3 then s
  else
    let t := bits w 1 0
    if s.is Reg.SEC_STATUS_LC_PEND || !s.lcAllowed o t then s.put Reg.SEC_STATUS_LC_RESULT 2
    else ((s.put Reg.SEC_STATUS_LC_RESULT 1).put Reg.SEC_STATUS_LC_NEXT t).put Reg.SEC_STATUS_LC_PEND 1

/-- LIFECYCLE_REQUEST: a write of SEC_LC (R457). -/
def execLifecycleRequest (o : Origin) (v : Word) (s : State) : Host.Outcome State Fault Refusal :=
  done (s.fresh.written o Reg.a_SEC_LC v fun _ _ w s => s.requestLifecycle o w)

/-! ### Debug access (R459–R462) -/

/-- The bytes of consecutive data registers: word 0 first, each word little-endian. (DEDUCED, log 9; DEDUCED, log 1904.) -/
def State.dataBytes (s : State) (a n : Nat) : List Byte := (rangeFrom 0 n).flatMap fun k => leBytes 4 (s.reg (a + 4 * k)).toNat

/-- The key of slot `i`; slot 7 holds the device-unique key (R463). -/
def State.slotKey (s : State) (i : Nat) : List Byte := SMap.get (if i = 7 then Config.deviceKey else []) s.sec.keys i

/-- Whether key slot `i` is usable: VALID (R463). -/
def State.slotValid (s : State) (i : Nat) : Bool := s.get (keyStateField i) == keyValid

/-- Draws `n` words from the random number generator, little-endian. -/
def State.draw (s : State) (n : Nat) : State × List Byte :=
  ({ s with freeCtr := s.freeCtr + n }, (rangeFrom s.freeCtr n).flatMap fun i => leBytes 4 (Config.random i))

/-- CHAL_REQ (R461): a new challenge; any earlier one is invalidated. -/
def State.challenge (s : State) : State :=
  if s.is Reg.SEC_STATUS_DBG_LOCKED then s
  else
    let (s, bs) := s.draw 4
    let s := { s with sec := { s.sec with chal := some bs } }
    forAll [0, 1, 2, 3] (fun k s => s.setReg (Reg.a_SEC_DBG_CHAL k) (BitVec.ofNat 32 (leNat ((bs.drop (4 * k)).take 4)))) s

/-- A wrong password or response (R461): at 3 failures debug access is locked. -/
def State.dbgFailed (s : State) : State :=
  let s := s.count Reg.SEC_STATUS_DBG_FAIL 1
  if s.get Reg.SEC_STATUS_DBG_FAIL = 3 then s.put Reg.SEC_STATUS_DBG_LOCKED 1 else s

/-- The message of R461 for a challenge. -/
def State.challengeMessage (s : State) (c : List Byte) : List Byte := c ++ s.dataBytes Reg.a_GLB_ID 1 ++ s.dataBytes Reg.a_SERIAL_LO 2

/-- SUBMIT (R460, R461): the password in DEVELOP, the response to a valid challenge in FIELD. (DEDUCED, log 1904.) -/
def State.submit (s : State) : State :=
  let resp := s.dataBytes (Reg.a_SEC_DBG_RESP 0) 4
  if s.is Reg.SEC_STATUS_DBG_LOCKED then s
  else if s.lifecycle = lcDevelop then
    if s.sec.pwd = some resp then { s with sec := { s.sec with session := true } } else s.dbgFailed
  else if s.lifecycle = lcField then
    match s.sec.chal with
    | none => s
    | some c =>
      let good := s.slotValid 7 && cmac (s.slotKey 7) (s.challengeMessage c) == resp
      let s := { s with sec := { s.sec with chal := none } }
      if good then { s with sec := { s.sec with session := true } } else s.dbgFailed
  else s

/-- The end of a session (R462). -/
def State.closeSession (s : State) : State := { s with sec := { s.sec with session := false } }

/-- An accepted write of SEC_DBG_CTRL. -/
def State.writeDbgCtrl (s : State) (w : Nat) : State :=
  let s := s.when (bit w 0) State.challenge
  let s := s.when (bit w 1) State.submit
  s.when (bit w 2) State.closeSession

/-- CHAL_REQ (R461). -/
def execChalReq (o : Origin) (s : State) : Host.Outcome State Fault Refusal :=
  done (s.fresh.written o Reg.a_SEC_DBG_CTRL 1#32 fun _ _ w s => s.writeDbgCtrl w)

/-- SUBMIT (R460). -/
def execSubmit (o : Origin) (s : State) : Host.Outcome State Fault Refusal :=
  done (s.fresh.written o Reg.a_SEC_DBG_CTRL 2#32 fun _ _ w s => s.writeDbgCtrl w)

/-- CLOSE (R462). -/
def execClose (o : Origin) (s : State) : Host.Outcome State Fault Refusal :=
  done (s.fresh.written o Reg.a_SEC_DBG_CTRL 4#32 fun _ _ w s => s.writeDbgCtrl w)

/-! ### The key store (R463–R465) -/

/-- The results of SEC_KEY_CMD (R470). -/
def keyOk : Nat := 0
def keyNotEmpty : Nat := 1
def keyLifecycle : Nat := 2
def keyOtpFail : Nat := 3
def keyBadSlot : Nat := 4

/-- The hash in SEC_CPK_DATA: word k holds bytes 4k to 4k + 3, big-endian. -/
def State.cpkData (s : State) : List Byte := (rangeFrom 0 8).flatMap fun k => beBytes 4 (s.reg (Reg.a_SEC_CPK_DATA k)).toNat

/-- The judgement of a key command `cmd` for slot `n` (R464, R465): the result, and what is programmed where it is accepted. `field` marks a
command that carries out a write of object 0x1201. (DEDUCED, log 1902.) -/
def State.judgeKey (s : State) (cmd n : Nat) (field : Bool) (key : List Byte) : Nat × Option KeyJob :=
  let lc := s.lifecycle
  let early := lc == lcBlank || lc == lcDevelop
  let open_ := early || (lc == lcField && field)
  match cmd with
  | 1 =>
    if !open_ then (keyLifecycle, none)
    else if 7 ≤ n then (keyBadSlot, none)
    else if s.get (keyStateField n) ≠ keyEmpty then (keyNotEmpty, none)
    else (keyOk, some (.key n key))
  | 2 =>
    if !open_ then (keyLifecycle, none)
    else if 7 ≤ n then (keyBadSlot, none)
    else (keyOk, some (.revoke n))
  | 3 =>
    if !early then (keyLifecycle, none)
    else if 2 ≤ n then (keyBadSlot, none)
    else if s.get (keyStateField (8 + n)) ≠ keyEmpty then (keyNotEmpty, none)
    else (keyOk, some (.cpk n s.cpkData))
  | _ =>
    if lc ≠ lcBlank then (keyLifecycle, none)
    else if s.sec.pwd.isSome then (keyNotEmpty, none)
    else (keyOk, some (.pwd key))

/-- A job starts in the OTP (R464). -/
def State.startKeyJob (s : State) (j : KeyJob) : State :=
  ({ s with sec := { s.sec with job := some j } }).put Reg.SEC_KEY_CMD_BUSY 1

/-- A result is latched. (DEDUCED, log 1903.) -/
def State.keyResult (s : State) (r : Nat) : State :=
  ((s.put Reg.SEC_KEY_CMD_RESULT r).put Reg.SEC_KEY_CMD_VALID 1).put Reg.SEC_KEY_CMD_BUSY 0

/-- An accepted write of SEC_KEY_CMD: OVERRUN is cleared by 1; a command starts, or is discarded while BUSY is 1 (R464). A CMD value with no
command starts none. (DEDUCED, log 1902.) -/
def State.writeKeyCmd (s : State) (w : Nat) : State :=
  let s := s.when (bit w 18) fun s => s.put Reg.SEC_KEY_CMD_OVERRUN 0
  let cmd := bits w 10 8
  let n := bits w 2 0
  if s.is Reg.SEC_KEY_CMD_BUSY then s.when (cmd != 0) fun s => s.put Reg.SEC_KEY_CMD_OVERRUN 1
  else
    let s := (s.put Reg.SEC_KEY_CMD_CMD cmd).put Reg.SEC_KEY_CMD_SLOT n
    if cmd = 0 ∨ 4 < cmd then s
    else
      let s := s.put Reg.SEC_KEY_CMD_VALID 0
      match s.judgeKey cmd n false (s.dataBytes (Reg.a_SEC_KEY_DATA 0) 4) with
      | (_, some j) => s.startKeyJob j
      | (r, none) => s.keyResult r

/-- A write of SEC_KEY_CMD that carries command `cmd`. -/
def State.keyCommand (s : State) (o : Origin) (cmd n : Nat) : State :=
  s.fresh.written o Reg.a_SEC_KEY_CMD (BitVec.ofNat 32 (256 * cmd + n % 8)) fun _ _ w s => s.writeKeyCmd w

/-- PROGRAM (R464). -/
def execProgram (o : Origin) (n : Nat) (s : State) : Host.Outcome State Fault Refusal := done (s.keyCommand o 1 n)

/-- REVOKE (R465). -/
def execRevoke (o : Origin) (n : Nat) (s : State) : Host.Outcome State Fault Refusal := done (s.keyCommand o 2 n)

/-- PROGRAM_CPK (R464). -/
def execProgramCpk (o : Origin) (n : Nat) (s : State) : Host.Outcome State Fault Refusal := done (s.keyCommand o 3 n)

/-- PROGRAM_PWD (R464). -/
def execProgramPwd (o : Origin) (s : State) : Host.Outcome State Fault Refusal := done (s.keyCommand o 4 0)

/-- The field of SEC_KEY_STATE that a job changes, if it changes one. -/
def KeyJob.field : KeyJob → Option FRef
  | .key i _ => some (keyStateField i)
  | .cpk e _ => some (keyStateField (8 + e))
  | .pwd _ => none
  | .revoke i => some (keyStateField i)
  | .revokeCpk e => some (keyStateField (8 + e))

/-- Programming ends (R464): the contents and the state of the slot, or DIRTY where the verify failed. -/
def State.keyJobDone (s : State) (ok : Bool) : State :=
  match s.sec.job with
  | none => s
  | some j =>
    let s := { s with sec := { s.sec with job := none } }
    if !ok then
      let s := match j.field with
        | some f => s.put f keyDirty
        | none => s
      s.keyResult keyOtpFail
    else
      let s := match j with
        | .key i k => ({ s with sec := { s.sec with keys := SMap.set [] s.sec.keys i k } }).put (keyStateField i) keyValid
        | .cpk e h => ({ s with sec := { s.sec with cpks := SMap.set [] s.sec.cpks e h } }).put (keyStateField (8 + e)) keyValid
        | .pwd k => { s with sec := { s.sec with pwd := some k } }
        | .revoke i => s.put (keyStateField i) keyRevoked
        | .revokeCpk e => s.put (keyStateField (8 + e)) keyRevoked
      s.keyResult keyOk

/-- OTP_PROGRAM_DONE (R464). -/
def execOtpProgramDone (ok : Bool) (s : State) : Host.Outcome State Fault Refusal := done (s.fresh.keyJobDone ok)

/-! ### Kindling packages (R420, R421, R466, R467) -/

/-- The destination and the largest length of an item type (Table 17.3). -/
def itemPlace (t : Nat) : Option (Nat × Nat) :=
  match t with
  | 1 => some (0x10000000, 0x200000)
  | 2 => some (0x10C00000, 0x10000)
  | 3 => some (0x10400000, 0x200000)
  | 4 => some (0x10600000, 0x600000)
  | 5 => some (0x10200000, 0x200000)
  | _ => none

/-- The length of a header with `n` items, its signature included (Table 17.2). -/
def headerLength (n : Nat) : Nat := 80 + 48 * n

/-- The header of a package, read through `rd` (offset, length); items beyond the largest permitted number are not read. -/
def readHeader (rd : Nat → Nat → List Byte) : List Byte := rd 0 (headerLength (min 8 (leNat (rd 8 4))))

/-- Whether item `i` of a header meets Tables 17.2 and 17.3 in a package of at most `limit` bytes. -/
def itemOk (h : List Byte) (limit i : Nat) : Bool :=
  let (t, off, len, dest) := headerItem h i
  match itemPlace t with
  | some (d, most) => dest == d && decide (len ≤ most) && off % 256 == 0 && decide (off + len ≤ limit)
  | none => false

/-- Whether the layout of a header is right: MAGIC "GKPK", 4 to 8 items, each in its place, items 1 to 4 among them. -/
def headerLayout (h : List Byte) (limit : Nat) : Bool :=
  let n := headerCount h
  leNat (h.take 4) == 0x4B504B47 && decide (4 ≤ n) && decide (n ≤ 8) && decide (headerLength n ≤ limit) && leNat ((h.drop 12).take 4) == 0 &&
    (rangeFrom 0 n).all (itemOk h limit) && [1, 2, 3, 4].all fun t => (headerFind h t).isSome

/-- The SHA-256 that a header gives for its item `i`. -/
def itemHash (h : List Byte) (i : Nat) : List Byte := (h.drop (32 + 48 * i)).take 32

/-- Whether item type `t` of a package matches the hash of its header. -/
def itemMatches (rd : Nat → Nat → List Byte) (h : List Byte) (t : Nat) : Bool :=
  match headerFind h t with
  | some (off, len, _, i) => sha256 (rd off len) == itemHash h i
  | none => false

/-- Whether the signature of a header verifies under the package key (R466). -/
def headerSigned (h : List Byte) : Bool :=
  let n := headerCount h
  ecdsaOk Config.packageKey (h.take (16 + 48 * n)) ((h.drop (16 + 48 * n)).take 64)

/-- VERSION of a header. -/
def headerVersion (h : List Byte) : Nat := leNat ((h.drop 4).take 4)

/-- The check of a package under R420 and R467, in the encoding of SEC_RECOVER.RESULT: 1 for a pass. (DEDUCED, log 1905.) -/
def packageCheck (rd : Nat → Nat → List Byte) (limit rollback : Nat) : Nat :=
  let h := readHeader rd
  if !headerLayout h limit then 4
  else if !headerSigned h || !itemMatches rd h 1 then 2
  else if headerVersion h < rollback then 3
  else 1

/-- Whether item 5 passes under a customer key (R466): its key's hash equals a VALID CPK entry and the signature verifies.
(DEDUCED, log 1707.) -/
def State.item5Ok (s : State) (bs : List Byte) : Bool :=
  let key := bs.take 64
  let h := sha256 key
  ([0, 1].any fun e => s.get (keyStateField (8 + e)) == keyValid && SMap.get [] s.sec.cpks e == h) &&
    ecdsaOk key (bs.drop 128) ((bs.drop 64).take 64)

/-! ### Recovery (R468) -/

/-- An accepted write of SEC_RECOVER_LEN or SEC_RECOVER: refused while ACTIVE is 0; a GO while BUSY is 1 is ignored. (DEDUCED, log 1905.) -/
def State.recoverWrite (s : State) (f : State → State) : State := if s.is Reg.SEC_RECOVER_ACTIVE then f s else s.fault .ACC_REFUSED

/-- GO (R468): the check begins. -/
def State.recoverGo (s : State) : State := if s.is Reg.SEC_RECOVER_BUSY then s else s.put Reg.SEC_RECOVER_BUSY 1

/-- RECOVER_GO: a write of SEC_RECOVER (R468). -/
def execRecoverGo (o : Origin) (s : State) : Host.Outcome State Fault Refusal :=
  done (s.fresh.written o Reg.a_SEC_RECOVER 1#32 fun _ _ w s => s.recoverWrite fun s => s.when (bit w 0) State.recoverGo)

/-- The bytes of the package in Hearth, from address 0. -/
def State.hearthPackage (s : State) (off n : Nat) : List Byte := loadBytes s.hm.mem off n

/-- The check of a recovery package ends (R468). `ok` says whether slot A reads back as written. -/
def State.recoverDone (s : State) (ok : Bool) : State :=
  if !s.is Reg.SEC_RECOVER_BUSY then s
  else
    let len := s.get Reg.SEC_RECOVER_LEN_BYTES
    let r := packageCheck s.hearthPackage len (s.get Reg.SEC_STATUS_ROLLBACK)
    if r ≠ 1 then (s.put Reg.SEC_RECOVER_RESULT r).put Reg.SEC_RECOVER_BUSY 0
    else
      let s := { s with flash := { s.flash with cells := storeBytes s.flash.cells 0 (s.hearthPackage 0 len) } }
      if !ok then (s.put Reg.SEC_RECOVER_RESULT 5).put Reg.SEC_RECOVER_BUSY 0
      else ((s.holdMain false ⟨false, true⟩).startKindling 0)

/-- RECOVER_DONE (R468). -/
def execRecoverDone (ok : Bool) (s : State) : Host.Outcome State Fault Refusal := done (s.fresh.recoverDone ok)

end Sys2Proof.Machine
end

