-- ==== Sys2Proof/Machine/AkTrain.lean ====
section
/-! DEFINITION. Training of the Aknum link (R280–R283, R294, R295, R299, R300, Table 11.3): states, lanes and widths, fast retrains and full
trainings, lane errors and fences, and the AKNUM registers that a write acts on. -/
namespace Sys2Proof.Machine

/-! ### Lanes and width (R278, R294) -/

/-- The largest permitted inbound width for a number of lanes, 0 where there is none. -/
def inWidth (n : Nat) : Nat := if 16 ≤ n then 16 else if 12 ≤ n then 12 else if 8 ≤ n then 8 else 0

/-- The largest permitted outbound width for a number of lanes, 0 where there is none. -/
def outWidth (n : Nat) : Nat := if 4 ≤ n then 4 else if 2 ≤ n then 2 else 0

/-- Whether a lane is fenced. -/
def State.laneFenced (s : State) (l : Nat) : Bool := s.is (Reg.LN_STATUS_FENCED l)

/-- Sets STATE and LOGICAL of a lane; LOGICAL 0x1F for a lane without a logical number. -/
def State.setLane (s : State) (l st logical : Nat) : State := (s.put (Reg.LN_STATUS_STATE l) st).put (Reg.LN_STATUS_LOGICAL l) logical

/-- A lane is fenced (R294). -/
def State.fenceLane (s : State) (l : Nat) (inj : Bool) : State :=
  ((s.put (Reg.LN_STATUS_FENCED l) 1).setLane l 3 31).fault .AK_LANE_FENCE inj

/-- The lanes of one direction that trained take their logical numbers: the lowest-numbered ones up to the width, the others are spares. -/
def State.mapLanes (s : State) (ls : List Nat) (width : Nat) : State :=
  ((rangeFrom 0 ls.length).zip ls).foldl (fun s e => if e.1 < width then s.setLane e.2 1 e.1 else s.setLane e.2 2 31) s

/-- The physical lanes of the inbound direction by logical number. -/
def State.inMap (s : State) : List Nat := s.activeLanes inLanes

/-! ### TS blocks (R280) -/

/-- What every outbound lane that is not fenced carries: runs of blocks, each by its lane. -/
def State.akLanesOut (s : State) (on : Bool) (f : Nat → List (Option Nat × Nat)) : State :=
  (outLanes.filter fun l => !s.laneFenced l).foldl (fun s l => s.emit (.lanes none [l] (f l) on)) s

/-- A TS block of lane `l` (R280): type 0x2D. -/
def akTs (l st param wid : Nat) : Nat := tsBlock 0x2D l st param wid

/-- STATE of a TS block for EQ_DONE and for START. (DEDUCED, log 1114.) -/
def tsEqDone : Nat := Config.tsState 0 % 256
def tsStart : Nat := Config.tsState 1 % 256

/-- ACCEPT: the mask of the inbound lanes that are trained and not fenced (R280). -/
def State.accept (s : State) : Nat := sumNat ((inLanes.filter fun l => !s.laneFenced l).map fun l => 2 ^ l)

/-- What the lanes carry from here on in a state of Table 11.3: electrical idle, PRBS31, TS blocks; in ACTIVE the flits. (DEDUCED, log 1114.) -/
def State.akFill (s : State) : State :=
  match s.get Reg.AK_STATUS_STATE with
  | 2 => s.akLanesOut true fun _ => [(none, 1)]
  | 3 => s.akLanesOut true fun l => [(some (akTs l 3 0 0), 1), (none, 63)]
  | 4 => s.akLanesOut true fun l => [(some (akTs l 4 0 0), 1)]
  | 5 => s.akLanesOut true fun l => [(some (akTs l 5 s.accept 0), 1)]
  | 6 => s
  | _ => s.akLanesOut true fun _ => []

/-- `n` TS blocks with STATE START on every lane (R280, R297). -/
def State.akStart (s : State) (n : Nat) : State := s.akLanesOut false fun l => [(some (akTs l tsStart 0 0), n)]

/-- The link takes a state of Table 11.3, and its lanes carry what it sends there. -/
def State.akEnter (s : State) (st : Nat) : State := (s.setAkState st).akFill

/-! ### Link down and full training (R282, R299) -/

/-- Every lane that is not fenced becomes untrained. -/
def State.untrain (s : State) : State := forAll akLanes (fun l s => if s.laneFenced l then s else s.setLane l 0 31) s

/-- The link goes down (R299). -/
def State.linkDown (s : State) : State :=
  ({ s.untrain with ak := { s.ak with rxInit := false, idleLeft := 0 } }.akEnter 0).faultHeld .AK_LINK_DOWN

/-- DOWN is left: training begins at DETECT, once the CORE PLL is locked and unless the part is entering SMOULDER or EMBER.
(DEDUCED, log 1103.) -/
def State.startTrain (s : State) : State :=
  if s.pllLocked 12 && s.get Reg.PWR_STATE_STATE != 2 then
    ({ s with ak := { s.ak with begun := true } }.count Reg.AK_CNT_TRAIN_FULL 1).akEnter 1
  else s

/-- A full training starts again at DOWN (R282): sequence numbers are reset, and the fences whose clearing was requested are lifted (R295). -/
def State.akFull (s : State) : State :=
  let s := forAll s.ak.clearLanes (fun l s => s.put (Reg.LN_STATUS_FENCED l) 0) s
  let s := s.untrain
  let s := { s with ak := { s.ak with begun := false, fast := false, clearLanes := [], replayAt := none, flits := 0, failed := none, nak := false,
                                      part := [], rest := [], ackDue := false, rxInit := false, failStage := 0, idleSent := false,
                                      idleLeft := 0, eqReqs := [] } }
  (((s.put Reg.AK_SEQ_RX_EXPECT 0).put Reg.AK_SEQ_TX_NEXT 0).akEnter 0).startTrain

/-- A fast retrain goes from ACTIVE to ALIGN (R282): it keeps sequence numbers and replay buffers. -/
def State.akFast (s : State) : State :=
  let s := { s with ak := { s.ak with fast := true, rxInit := false, idleSent := false, idleLeft := 0 } }
  (s.count Reg.AK_CNT_TRAIN_FAST 1).akEnter 4

/-- Whether the link is in ACTIVE or IDLE, from which a fast retrain starts. -/
def State.akLinked (s : State) : Bool := s.get Reg.AK_STATUS_STATE == 6 || s.get Reg.AK_STATUS_STATE == 7

/-! ### Entry to ACTIVE (R283, R289, R294, R300) -/

/-- The INIT flit of the TD96: 2,048 units on VC0, 256 on VC1, infinite on VC2, 512 on VC3 (R289). -/
def initPayload : List Byte := [1#8, 0#8] ++ leBytes 2 2048 ++ leBytes 2 256 ++ leBytes 2 0xFFFF ++ leBytes 2 512

/-- Whether a packet of an unacknowledged flit is sent again after a full training: MWR and MSG (R300). (DEDUCED, log 1104.) -/
def Pkt.resent (x : Pkt) : Bool :=
  match x with
  | .mwr _ _ _ | .msg _ _ => true
  | _ => false

/-- Whether a packet is an MRD. -/
def Pkt.isMrd (x : Pkt) : Bool :=
  match x with
  | .mrd _ _ _ => true
  | _ => false

/-- What survives a full training (R300): every outstanding MRD is reissued in full, and the MWR and MSG packets of unacknowledged flits are
sent again ahead of what was queued. (DEDUCED, log 1104.) -/
def State.akReissue (s : State) : State :=
  let old := (s.ak.unacked.flatMap fun f => f.pkts) ++ s.ak.restPkt.toList
  let reqs := s.dma.reqs.map fun r => { r with data := [] }
  let mrds := reqs.map fun r => Pkt.mrd r.tag r.host r.len
  let queue := mrds ++ old.filter Pkt.resent ++ s.ak.queue.filter fun x => !x.isMrd
  { s with dma := { s.dma with reqs }, ak := { s.ak with queue, unacked := [], rest := [], restPkt := none } }

/-- Whether a LINK payload that waits is still sent after a training: FATAL, and after a fast retrain also EQ_REQ and EQ_ACK, whose request and
tap it keeps (R281, R282). (DEDUCED, log 1104.) -/
def keptLink (fast : Bool) (bs : List Byte) : Bool :=
  match (bs.headD 0#8).toNat with
  | 5 => true
  | 2 | 3 => fast
  | _ => false

/-- A packet that came in before an INIT: no credit return covers it (R282, R289). -/
def InPkt.uncounted (x : InPkt) : InPkt := { x with units := 0 }

/-- The link enters ACTIVE with its new lane map: `acc` is the adapter's ACCEPT, the mask of the outbound lanes that it receives. INIT is the
first flit; CAPACITY.AKNUM_LANES takes the inbound width and R52 runs. Too few lanes take the link down.
(DEDUCED, log 1103; DEDUCED, log 1104.) -/
def State.enterActive (s : State) (acc : Nat) : State :=
  let ins := inLanes.filter fun l => !s.laneFenced l
  let outs := outLanes.filter fun l => !s.laneFenced l && bit acc (l - 16)
  let n := inWidth ins.length
  let m := outWidth outs.length
  if n = 0 ∨ m = 0 then s.linkDown
  else
    let s := forAll outLanes (fun l s => if s.laneFenced l || outs.contains l then s else s.setLane l 0 31) s
    let s := (s.mapLanes ins n).mapLanes outs m
    let s := if s.ak.fast then s else s.akReissue
    let s := { s with ak := { s.ak with links := initPayload :: s.ak.links.filter (keptLink s.ak.fast), flits := 0, sent := [0, 0, 0, 0],
                                        freed := [0, 0, 0, 0], got := [0, 0, 0, 0], told := [0, 0, 0, 0], crNext := 0, rxInit := false,
                                        inq := s.ak.inq.map InPkt.uncounted } }
    (((s.akStart 64).setAkState 6).condEnds .AK_LINK_DOWN).changeCapacity fun s => s.put Reg.CAPACITY_AKNUM_LANES n

/-! ### Training commands (Table 11.3) -/

/-- A step of a tap of lane `l` within its limits, and whether it was at the limit already (R281). -/
def State.akTap (s : State) (l tap : Nat) (up : Bool) : State × Bool :=
  let f := if tap = 1 then Reg.LN_EQ_PRE l else Reg.LN_EQ_POST l
  let v := s.get f
  if up then (if (if tap = 1 then 15 else 23) ≤ v then (s, true) else (s.put f (v + 1), false))
  else if v = 0 then (s, true) else (s.put f (v - 1), false)

/-- A step requested in EQ (R280, R281): the TD96 asks for one of an inbound lane, and acknowledges one of an outbound lane, by TS blocks.
(DEDUCED, log 1101.) -/
def State.eqStep (s : State) (q : EqStep) : State :=
  if 20 ≤ q.lane ∨ (q.tap ≠ 1 ∧ q.tap ≠ 2) then s
  else
    let (s, limit) := s.akTap q.lane q.tap q.up
    let ask := q.lane + q.tap * 2 ^ 8 + (if q.up then 1 else 2) * 2 ^ 10 + q.num % 16 * 2 ^ 12
    let ack := q.num % 16 + b2n limit * 2 ^ 4
    s.akLanesOut false fun l => [(some (if q.lane < 16 then akTs l 3 ask 0 else akTs l 3 0 ack), 1), (none, 63)]

/-- What EQ leaves behind: the steps requested, and the margins of the inbound lanes that passed (R281). (DEDUCED, log 1101.) -/
def State.storeEq (s : State) (margins : List Nat) (eq : List EqStep) (missed : Nat) : State :=
  let s := eq.foldl (fun s q => s.eqStep q) s
  ((rangeFrom 0 16).zip margins).foldl (fun s e => if bit missed e.1 then s else s.put (Reg.LN_STATUS_MARGIN e.1) e.2) s

/-- EQ ends with STATE EQ_DONE (R280). -/
def State.eqDone (s : State) : State := s.akLanesOut false fun l => [(some (akTs l tsEqDone 0 0), 1)]

/-- INCK is lost (R299). -/
def State.clkLoss (s : State) (inj : Bool) : State :=
  if s.get Reg.AK_STATUS_STATE = 0 || !s.is Reg.AK_STATUS_INCK_LOCK then s
  else ((s.put Reg.AK_STATUS_INCK_LOCK 0).fault .AK_CLK_LOSS inj).linkDown

/-- The exit condition of the present state is met (R280). (DEDUCED, log 1101.) -/
def State.trainAdvance (s : State) (acc : Nat) (margins : List Nat) (eq : List EqStep) : State :=
  match s.get Reg.AK_STATUS_STATE with
  | 0 => if s.ak.begun then s else s.startTrain
  | 1 =>
    let (s, inj) := (s.put Reg.AK_STATUS_INCK_LOCK 1).takeInj Reg.AK_INJ_CLK
    if inj then s.clkLoss true else s.akEnter 2
  | 2 => s.akEnter 3
  | 3 => ((s.storeEq margins eq 0).eqDone).akEnter 4
  | 4 => s.akEnter 5
  | 5 => s.enterActive acc
  | _ => s

/-- AK_TRAIN_ADVANCE (R280). -/
def execAkTrainAdvance (acc : Nat) (margins : List Nat) (eq : List EqStep) (s : State) : Host.Outcome State Fault Refusal :=
  done (s.fresh.trainAdvance acc margins eq)

/-- A training fails: a fast retrain gives way to a full training, a full training takes the link down (R282, R299). (DEDUCED, log 1102.) -/
def State.trainFails (s : State) : State := if s.ak.fast then s.akFull else s.linkDown

/-- The limit of the present state expires (R280): the lanes that missed it are fenced and training continues without them while enough
remain; otherwise, and where the state is DETECT, the training fails. (DEDUCED, log 16; DEDUCED, log 1102.) -/
def State.trainLimit (s : State) (missed : Nat) (margins : List Nat) (eq : List EqStep) : State :=
  let st := s.get Reg.AK_STATUS_STATE
  let ls := akLanes.filter fun l => bit missed l && !s.laneFenced l
  if st = 0 ∨ 6 ≤ st then s
  else if st = 1 then (s.put Reg.AK_STATUS_INCK_LOCK 0).trainFails
  else if ls.isEmpty then s.trainFails
  else
    let s := s.when (st == 3) fun s => s.storeEq margins eq missed
    let s := forAll ls (fun l s => s.fenceLane l false) s
    let left := fun (ds : List Nat) => (ds.filter fun l => !s.laneFenced l).length
    if inWidth (left inLanes) = 0 ∨ outWidth (left outLanes) = 0 then s.linkDown
    else if st = 5 then s
    else (s.when (st == 3) State.eqDone).akEnter (st + 1)

/-- AK_TRAIN_LIMIT (R280): `missed` is the mask of the lanes that missed the limit. -/
def execAkTrainLimit (missed : Nat) (margins : List Nat) (eq : List EqStep) (s : State) : Host.Outcome State Fault Refusal :=
  done (s.fresh.trainLimit missed margins eq)

/-- AK_RETRY_TIMER: while the link is down a full training starts again every RETRY_MS (R299). -/
def execAkRetryTimer (s : State) : Host.Outcome State Fault Refusal :=
  let s := s.fresh
  done (if s.get Reg.AK_STATUS_STATE = 0 ∧ s.ak.begun = true then s.akFull else s)

/-- AK_CLK_LOSS (R299). -/
def execAkClkLoss (s : State) : Host.Outcome State Fault Refusal := done (s.fresh.clkLoss false)

/-! ### Lane errors and fences (R288, R294, R295) -/

/-- The number of the error window in progress, from 1 (AK_LANE_CFG.WIN). -/
def State.laneWindow (s : State) : Nat := s.orbit.orbits / 2 ^ s.get Reg.AK_LANE_CFG_WIN + 1

/-- LN_ERR.WINDOW of a lane: the errors of the current window. (DEDUCED, log 1108.) -/
def State.laneErrors (s : State) (l : Nat) : Nat := if SMap.get 0 s.ak.laneErrs l = s.laneWindow then s.get (Reg.LN_ERR_WINDOW l) else 0

/-- An error of lane `l` is counted (R288). -/
def State.laneError (s : State) (l : Nat) (inj : Bool) : State :=
  let n := s.laneErrors l
  let laneInj := s.ak.laneInj.filter fun x => x != l
  let s := (s.count (Reg.LN_ERR_TOTAL l) 1).put (Reg.LN_ERR_WINDOW l) (satInc n 65535)
  { s with ak := { s.ak with laneErrs := SMap.set 0 s.ak.laneErrs l s.laneWindow, laneInj := if inj then l :: laneInj else laneInj } }

/-- A lane is fenced, and a fast retrain sets the new width (R294); with no width left the link goes down. -/
def State.dropLane (s : State) (l : Nat) (inj : Bool) : State :=
  let s := s.fenceLane l inj
  let left := fun (ds : List Nat) => (ds.filter fun x => !s.laneFenced x).length
  if inWidth (left inLanes) = 0 ∨ outWidth (left outLanes) = 0 then s.linkDown
  else if s.akLinked then s.akFast
  else s

/-- A lane whose errors in the window have reached THR is fenced (R294). -/
def State.laneFence (s : State) (l : Nat) : State :=
  let thr := s.get Reg.AK_LANE_CFG_THR
  if 20 ≤ l || thr = 0 || s.laneErrors l < thr || s.laneFenced l then s else s.dropLane l (s.ak.laneInj.contains l)

/-- AK_LANE_FENCE (R294). -/
def execAkLaneFence (l : Nat) (s : State) : Host.Outcome State Fault Refusal := done (s.fresh.when (l < 20) fun s => s.laneFence l)

/-- An accepted write of LN_STATUS_l: FENCED asks for the fence to be cleared at the next full training (R295), once the LATCHED bit of
AK_LANE_FENCE is 0 (R442). (DEDUCED, log 609.) -/
def State.writeLane (s : State) (l w : Nat) : State :=
  if bit w 31 && s.laneFenced l && s.cleared .AK_LANE_FENCE && !s.ak.clearLanes.contains l then { s with ak := { s.ak with clearLanes := l :: s.ak.clearLanes } } else s

/-- LN_FENCE_CLEAR (R295). -/
def execLnFenceClear (o : Origin) (l : Nat) (v : Word) (s : State) : Host.Outcome State Fault Refusal :=
  done (s.fresh.when (l < 20) fun s => s.written o (Reg.a_LN_STATUS l) v fun _ is w s => s.writeLane (is.headD 0) w)

/-! ### AK_CTRL and AK_INJ -/

/-- An accepted write of AK_CTRL: a full training, or a fast retrain from ACTIVE or IDLE (R282). -/
def State.writeAkCtrl (s : State) (row : RegRow) (w : Nat) : State :=
  let s := s.storeRow Reg.a_AK_CTRL row w
  if bit w 1 then s.akFull else if bit w 0 && s.akLinked then s.akFast else s

/-- A write of AK_CTRL by a requester. -/
def State.akCtrlWrite (s : State) (o : Origin) (v : Word) : State := s.written o Reg.a_AK_CTRL v fun row _ w s => s.writeAkCtrl row w

/-- FULL_TRAIN: a write of AK_CTRL with FULL_TRAIN (R282). -/
def execFullTrain (o : Origin) (v : Word) (s : State) : Host.Outcome State Fault Refusal := done (s.fresh.akCtrlWrite o v)

/-- RETRAIN: a write of AK_CTRL with RETRAIN (R282). (DEDUCED, log 1103.) -/
def execRetrain (o : Origin) (v : Word) (s : State) : Host.Outcome State Fault Refusal := done (s.fresh.akCtrlWrite o v)

/-- An accepted write of AK_INJ (R302): CLK reports INCK lost at once, or when INCK is next seen; the other bits stay armed until they are used. -/
def State.writeAkInj (s : State) (row : RegRow) (w : Nat) : State :=
  let s := s.storeArm Reg.a_AK_INJ row w
  if s.is Reg.AK_INJ_CLK && s.get Reg.AK_STATUS_STATE != 0 && s.is Reg.AK_STATUS_INCK_LOCK then (s.put Reg.AK_INJ_CLK 0).clkLoss true else s

/-- AK_INJ (R302). (DEDUCED, log 1112.) -/
def execAkInj (o : Origin) (v : Word) (s : State) : Host.Outcome State Fault Refusal :=
  done (s.fresh.written o Reg.a_AK_INJ v fun row _ w s => s.writeAkInj row w)

end Sys2Proof.Machine
end

