-- ==== Sys2Proof/Machine/OdOps.lean ====
section
/-! DEFINITION. The object protocol and the CAN controllers: identifiers, frames that the TD96 sends, answers and aborts (R369–R377). -/
namespace Sys2Proof.Machine

/-! ### Identifiers and controllers (R369, R371) -/

/-- The bus number of Aknum. (DEDUCED, log 14.) -/
def busAk : Nat := 2

/-- The identifier of a frame over Aknum (R379). -/
def idAk : Nat := 0xFFFFFFFF

/-- The node number; 0 is taken as 1. -/
def State.odNode (s : State) : Nat := max 1 (s.get Reg.OD_CTRL_NODE)

/-- An 11-bit identifier as the bus carries it (Table 15.3). -/
def State.canId (s : State) (x : Nat) : Nat := if s.is Reg.OD_CTRL_ID29 then s.get Reg.OD_ID29_BASE * 2048 + x else x

/-- The identifiers of requests, responses, state frames and proof frames. -/
def State.requestId (s : State) : Nat := s.canId (0x480 + s.odNode)
def State.responseId (s : State) : Nat := s.canId (0x500 + s.odNode)
def State.stateId (s : State) : Nat := s.canId (s.get Reg.OD_ID_STATE_ID)
def State.proofId (s : State) : Nat := s.canId (s.get Reg.OD_ID_PROOF_ID)

/-- Whether controller `n` takes part in its bus: enabled and not bus-off. -/
def State.canUp (s : State) (n : Nat) : Bool :=
  n < 2 && s.emb.main && bit (s.get Reg.OD_CTRL_BUS_EN) n && s.get (Reg.CAN_STATUS_STATE n) != 2

/-- Whether controller `n` sends: not during the entry into SMOULDER or EMBER (R400) nor while the safety pair is held in reset (R448).
(DEDUCED, log 1509.) -/
def State.canSends (s : State) (n : Nat) : Bool :=
  s.canUp n && s.get Reg.PWR_STATE_STATE != 2 && !s.is Reg.FC_STATUS_PAIR_HELD

/-- Bring source 200 + n up to date: error passive or bus-off (Table 15.11). -/
def State.canLevel (s : State) (n : Nat) : State := s.level (200 + n) (s.get (Reg.CAN_STATUS_STATE n) != 0)

/-! ### Frames (R369, R372, R375) -/

/-- The smallest FD payload size that holds `n` bytes (R372). -/
def fdSize (n : Nat) : Nat :=
  if n ≤ 8 then n else if n ≤ 12 then 12 else if n ≤ 16 then 16 else if n ≤ 20 then 20 else if n ≤ 24 then 24 else if n ≤ 32 then 32
  else if n ≤ 48 then 48 else 64

/-- Sends a CAN frame on controller `n`, with or without bit-rate switching. (DEDUCED, log 1512.) -/
def State.canSend (s : State) (n id : Nat) (fd : Bool) (bs : List Byte) (brs : Bool) : State :=
  if s.canSends n then (s.incr (Reg.CAN_CNT_TX n)).emit (.canFrame n id fd (if fd then padTo bs (fdSize bs.length) else bs) brs) else s

/-- Sends a frame of the object protocol on a bus; a response switches the bit rate where its request did (R369). (DEDUCED, log 1512.) -/
def State.odSend (s : State) (b : Nat) (bs : List Byte) (brs : Bool) : State :=
  if b = busAk then s.akSend (.mgt bs) else s.canSend b s.responseId true bs brs

/-- The payload bytes that a frame has room for (R373). -/
def odRoom (b : Nat) : Nat := if b = busAk then 256 else 64

/-- The data bytes of a full segment (R375). -/
def segRoom (b : Nat) : Nat := odRoom b - 4

/-- A header (Table 15.5) with its value. (DEDUCED, log 1512.) -/
def odFrame (cmd : Nat) (q : OdReq) (v : List Byte) : List Byte :=
  leBytes 1 cmd ++ leBytes 1 q.txn ++ leBytes 2 q.index ++ leBytes 1 q.sub ++ [0#8] ++ leBytes 2 v.length ++ v

/-- A good answer (R373, R374). -/
def State.odOk (s : State) (q : OdReq) (v : List Byte) : State :=
  if q.classic then s.canSend q.bus s.responseId false (leBytes 1 0x81 ++ leBytes 1 q.txn ++ padTo v 4 ++ [0#8, 0#8]) false
  else s.odSend q.bus (odFrame q.cmd q v) q.brs

/-- An abort (R373, R374, R377). -/
def State.odAbort (s : State) (q : OdReq) (code : Nat) : State :=
  if q.classic then s.canSend q.bus s.responseId false (leBytes 1 0x87 ++ leBytes 1 q.txn ++ leBytes 4 code ++ [0#8, 0#8]) false
  else s.odSend q.bus (odFrame 0x07 q (leBytes 4 code)) q.brs

/-- The abort codes of Table 15.7. -/
def abMalformed : Nat := 0x01000001
def abOrder : Nat := 0x01000002
def abTimeout : Nat := 0x01000003
def abCrc : Nat := 0x01000004
def abClassic : Nat := 0x01000005
def abBusy : Nat := 0x01000006
def abLong : Nat := 0x01000007
def abNoObject : Nat := 0x02000001
def abNoSub : Nat := 0x02000002
def abReadOnly : Nat := 0x02000003
def abWriteOnly : Nat := 0x02000004
def abLength : Nat := 0x02000005
def abRange : Nat := 0x02000006
def abOwner : Nat := 0x03000001
def abPath : Nat := 0x03000002
def abTrailer : Nat := 0x03000003
def abMac : Nat := 0x03000004
def abStale : Nat := 0x03000005
def abSlot : Nat := 0x03000006
def abPinned : Nat := 0x03000007
def abCommit (code : Nat) : Nat := 0x04000000 + code
def abSafe : Nat := 0x05000001

/-- The result of commit port 1 answers the COMMIT that waits for it (R376, R387). -/
def State.answerCommit (s : State) (code : Nat) : State :=
  match s.od.waiting with
  | none => s
  | some q =>
    let s := { s with od := { s.od with waiting := none } }
    if code = 0 then s.odOk q [] else s.odAbort q (abCommit code)

/-! ### Faults (Table 15.13) -/

/-- A fault of the block, with its number and bus in OD_ERR_INFO (R394). -/
def State.odFault (s : State) (f : FaultId) (n b : Nat) (inj : Bool := false) : State :=
  ((s.put Reg.OD_ERR_INFO_FAULT n).put Reg.OD_ERR_INFO_BUS b).fault f inj

end Sys2Proof.Machine
end

