-- ==== Sys2Proof/Machine/Orbit.lean ====
section
/-! DEFINITION. The commands of orbit time, commit ports and shedding (chapter 02), and of FSYNC_IN (R179, R180). -/
namespace Sys2Proof.Machine

/-! ### Commit ports (R21) -/

/-- The commit that the registers of port `n` describe. -/
def State.captureGo (s : State) (n : Nat) : GoCap :=
  { pipes := s.get (Reg.CP_PIPES_PIPES n), target := s.get (Reg.CP_TARGET_LO_TARGET n) + 2 ^ 32 * s.get (Reg.CP_TARGET_HI_TARGET n),
    tag := s.get (Reg.CP_TAG_TAG n), allOrHold := s.is (Reg.CP_CTRL_POLICY n), lateOk := s.is (Reg.CP_CTRL_LATE_OK n),
    testOnly := s.is (Reg.CP_CTRL_TEST_ONLY n) }

/-- An accepted write of CP_CTRL_n: the flags, and with GO the commit enters admission; with GO while BUSY the whole write is
discarded and OVERRUN set (R21). -/
def State.writeCpCtrl (s : State) (n : Nat) (row : RegRow) (w : Nat) : State :=
  if bit w 0 then
    if s.is (Reg.CP_RESULT_BUSY n) then s.put (Reg.CP_RESULT_OVERRUN n) 1
    else
      let s := s.storeRow (Reg.a_CP_CTRL n) row w
      let s := ((s.put (Reg.CP_CTRL_GO n) 1).put (Reg.CP_RESULT_BUSY n) 1).put (Reg.CP_RESULT_VALID n) 0
      { s with orbit := { s.orbit with go := s.orbit.go ++ [(n, s.captureGo n)] } }
  else s.storeRow (Reg.a_CP_CTRL n) row w

/-- COMMIT_GO: a write of CP_CTRL_n (R20, R21). -/
def execCommitGo (o : Origin) (n : Nat) (v : Word) (s : State) : Host.Outcome State Fault Refusal :=
  done (s.fresh.when (n < 3) fun s => s.written o (Reg.a_CP_CTRL n) v fun row is w s => s.writeCpCtrl (is.headD 0) row w)

/-- The writes that the engine made to shadows of a BUSY port have completed, and their requests are answered (R111, R370). -/
def State.answerHeld (s : State) : State :=
  let free := s.od.heldReqs.filter fun r => !s.shadowHeld r.1
  let s := { s with od := { s.od with heldReqs := s.od.heldReqs.filter fun r => s.shadowHeld r.1 } }
  free.foldl (fun s r => s.odOk r.2 []) s

/-- Admission of the commit that waits in port `n` (R25–R28): the result is latched, and on ACCEPT every member takes its pending
entry; writes that the port held up complete (R111, R370), and the object that submitted through port 1 is answered (R376). -/
def State.admission (s : State) (n : Nat) : State :=
  match s.orbit.go.find? fun e => e.1 == n with
  | none => s
  | some (_, g) =>
    let s := s.admCompare
    let new := s.memberImgs g
    let r := s.judgeGo n g new
    let s := if r.code = 0 ∧ !g.testOnly then ((s.acceptAll n g new).refreshAdm).deadlinesFor new else s
    let s := (s.latchResult n { r with detail := r.detail % 2 ^ 32 }).releaseHeld.answerHeld
    s.when (n == 1) fun s => s.answerCommit r.code

/-- ADMISSION: the commit in port `n` is admitted or rejected (R26). -/
def execAdmission (n : Nat) (s : State) : Host.Outcome State Fault Refusal := done (s.fresh.when (n < 3) fun s => s.admission n)

/-! ### Grants without a master (R406) -/

/-- IDLE_GRANT_TIMER: a grant while no master raster runs; it counts as one orbit of R440. -/
def execIdleGrantTimer (s : State) : Host.Outcome State Fault Refusal :=
  let s := s.fresh
  done (if s.masterRuns then s else ({ s with orbit := { s.orbit with orbits := s.orbit.orbits + 1 } }).grant)

/-! ### Shedding (R53–R55) -/

/-- An accepted write of SHED_CTRL: its settings, and with RESTORE one step is undone at once (R55). -/
def State.writeShedCtrl (s : State) (row : RegRow) (w : Nat) : State :=
  (s.storeRow Reg.a_SHED_CTRL row w).when (bit w 16) State.undoShed

/-- SHED_RESTORE: a write of SHED_CTRL (R55). -/
def execShedRestore (o : Origin) (v : Word) (s : State) : Host.Outcome State Fault Refusal :=
  done (s.fresh.written o Reg.a_SHED_CTRL v fun row _ w s => s.writeShedCtrl row w)

/-- The automatic restore of one step, once per master orbit (R55). (DEDUCED, log 211.) -/
def State.autoRestore (s : State) : State :=
  if s.is Reg.SHED_CTRL_AUTO_RESTORE && !s.orbit.restored && s.regained &&
      s.get Reg.SHED_CTRL_RESTORE_DELAY ≤ s.orbit.stable then s.undoShed else s

/-- AUTO_RESTORE_STEP (R55). -/
def execAutoRestoreStep (s : State) : Host.Outcome State Fault Refusal := done s.fresh.autoRestore

/-! ### FSYNC_IN (R179–R181) -/

/-- FSYNC_PERIOD as the mechanisms take it: limited to its range (R195). -/
def State.fsyncPeriod (s : State) : Nat := min 1041667 (max 104167 (s.get Reg.FSYNC_PERIOD_PERIOD))

/-- The measured period of FSYNC_IN; FSYNC_PERIOD before any measurement. -/
def State.fsyncMeasured (s : State) : Nat := if s.orbit.fsPeriod = 0 then s.fsyncPeriod else s.orbit.fsPeriod

/-- Whether an edge `dt` REFCLK periods after the one before lies in the acceptance window (R179). -/
def State.fsyncInWindow (s : State) (dt : Nat) : Bool :=
  let half := max 1 (s.get Reg.FSYNC_CFG_ACCEPT) * s.fsyncPeriod
  let m := s.fsyncMeasured
  (dt - m) * 1000 ≤ half && (m - dt) * 1000 ≤ half

/-- A pulse on FSYNC_OUT at a frame boundary of its source, of the polarity of POL (R181, R195); 15 is the master. -/
def State.fsyncPulse (s : State) (src : Nat) : State :=
  let sel := s.get Reg.FSYNC_OUT_CFG_SRC
  let sel := if 12 ≤ sel then 15 else sel
  if s.is Reg.FSYNC_OUT_CFG_EN && sel == src then s.emit (.fsyncPulse (max 1 (s.get Reg.FSYNC_OUT_CFG_WIDTH)) (!s.is Reg.FSYNC_OUT_CFG_POL))
  else s

/-- A boundary of the master (R15, R181): the stamp increments and FSYNC_OUT pulses where it follows the master. -/
def State.masterBoundary (s : State) : State := s.masterFrame.fsyncPulse 15

/-- An edge of FSYNC_IN while it is the master (R179, R180): `dt` REFCLK periods after the last accepted edge (the last edge while
FSYNC_IN is lost), `since` after the stamp last incremented. -/
def State.fsyncEdge (s : State) (dt since : Nat) : State :=
  if s.masterSrc != 15 then s
  else if s.is Reg.FSYNC_STATUS_PRESENT then
    if s.fsyncInWindow dt then ({ s with orbit := { s.orbit with fsPeriod := dt } }).masterBoundary
    else s.count Reg.FSYNC_STATUS_STRAY 1
  else
    let n := if s.fsyncInWindow dt then s.orbit.fsReturn + 1 else 0
    let s := { s with orbit := { s.orbit with fsReturn := n } }
    if n < max 1 (s.get Reg.FSYNC_CFG_RETURN) then s
    else
      let running := s.is Reg.FSYNC_STATUS_COASTING
      let s := { s with orbit := { s.orbit with fsReturn := 0, fsPeriod := dt } }
      let s := (s.put Reg.FSYNC_STATUS_PRESENT 1).put Reg.FSYNC_STATUS_COASTING 0
      let s := s.record 184 0x51 0 0
      if !running || s.fsyncPeriod < 2 * since then s.masterBoundary
      else { s with orbit := { s.orbit with masterAt := s.now } }

/-- FSYNC_EDGE (R179, R180). -/
def execFsyncEdge (dt since : Nat) (s : State) : Host.Outcome State Fault Refusal := done (s.fresh.fsyncEdge dt since)

/-- The acceptance window closes without an edge (R179). -/
def State.fsyncLost (s : State) : State :=
  if s.masterSrc == 15 && s.is Reg.FSYNC_STATUS_PRESENT then
    let s := (s.put Reg.FSYNC_STATUS_PRESENT 0).put Reg.FSYNC_STATUS_COASTING 1
    let s := (s.count Reg.FSYNC_STATUS_LOSSES 1).record 184 0x50 0 0
    { s with orbit := { s.orbit with fsReturn := 0 } }
  else s

/-- FSYNC_LOST (R179). -/
def execFsyncLost (s : State) : Host.Outcome State Fault Refusal := done s.fresh.fsyncLost

end Sys2Proof.Machine
end

