-- ==== Sys2Proof/Machine/Scanout.lean ====
section
/-! DEFINITION. The commands of a pipe's raster (chapters 02, 06, 07 and 12): the frame boundary, the commit line, the Beacon line, the
prefetch start, the emit of a line, the start and stop sequences, the backlight and the panel pins. -/
namespace Sys2Proof.Machine

/-! ### The backlight PWM and the panel pins (R191–R193) -/

/-- A PWM period of pipe `p` starts with the effective duty (R192, R193). -/
def State.pwmPeriod (s : State) (p : Nat) : State :=
  let duty := s.get (Reg.BL_PWM_DUTY_DUTY p)
  let duty := if s.beaconOn p then max duty (s.get (Reg.BL_PWM_MIN_DUTY p)) else duty
  if (s.pipe p).pwmOn then s.modPipe p fun x => { x with pwmDuty := duty } else s

/-- PWM_PERIOD_START (R192). -/
def execPwmPeriodStart (p : Nat) (s : State) : Host.Outcome State Fault Refusal :=
  done (if p < 12 then s.fresh.pwmPeriod p else s.fresh)

/-- The pins of pipe `p` in MANUAL mode follow PNL_OUT (R191). -/
def State.manualPins (s : State) (p : Nat) : State :=
  let pwr := s.is (Reg.PNL_OUT_PWR_LVL p)
  let bl := s.is (Reg.PNL_OUT_BL_LVL p) && !(s.is Reg.FC_STATUS_SAFE && s.is (Reg.PNL_CFG_SAFE_BL p))
  let s := if s.is (Reg.PNL_CFG_PWR_MODE p) then
      (s.modPipe p fun x => { x with pwrPin := pwr }).put (Reg.PNL_OUT_PWR_PIN p) (b2n pwr) else s
  if s.is (Reg.PNL_CFG_BL_MODE p) then (s.modPipe p fun x => { x with blPin := bl }).put (Reg.PNL_OUT_BL_PIN p) (b2n bl) else s

/-- The level of pin PNL_GP(n) (R191): even pins are panel power and odd ones backlight enable, and PNL_CFG sets their polarity. -/
def State.pnlLevel (s : State) (n : Nat) : Bool :=
  if n % 2 = 0 then (s.pipe (n / 2)).pwrPin != s.is (Reg.PNL_CFG_PWR_POL (n / 2))
  else (s.pipe (n / 2)).blPin != s.is (Reg.PNL_CFG_BL_POL (n / 2))

/-- Whether the PWM output of pipe `p` is active `k` peripheral clocks into a period (R192). -/
def State.pwmActive (s : State) (p k : Nat) : Bool :=
  (s.pipe p).pwmOn && k % max 2 (s.get (Reg.BL_PWM_PERIOD_PERIOD p)) < (s.pipe p).pwmDuty

/-- Whether a PNL_OUT value would deassert a pin that is asserted (R193). -/
def State.pnlDeasserts (s : State) (p w : Nat) : Bool :=
  (s.is (Reg.PNL_CFG_PWR_MODE p) && (s.pipe p).pwrPin && !bit w 0) || (s.is (Reg.PNL_CFG_BL_MODE p) && (s.pipe p).blPin && !bit w 1)

/-- Whether the guard of R193 discards a PNL_OUT value from a requester that is not the safety pair. -/
def State.pnlGuard (s : State) (p w : Nat) : Bool :=
  s.beaconOn p && s.pnlDeasserts p w &&
    (match s.bcnEntry p with
      | some e => !s.holdCovers e s.orbit.stamp
      | none => true)

/-- An accepted write of PNL_OUT (R191, R193). -/
def State.writePnlOut (s : State) (safety : Bool) (p : Nat) (row : RegRow) (w : Nat) : State :=
  if !safety && s.pnlGuard p w then s.fault .ACC_REFUSED else (s.storeRow (Reg.a_PNL_OUT p) row w).manualPins p

/-- PNL_OUT_WRITE (R193). -/
def execPnlOutWrite (o : Origin) (p : Nat) (v : Word) (s : State) : Host.Outcome State Fault Refusal :=
  done (s.fresh.when (p < 12) fun s => s.written o (Reg.a_PNL_OUT p) v fun row is w s => s.writePnlOut (o == .sp) (is.headD 0) row w)

/-! ### The frame boundary (R14, R15, R19, R44, R175) -/

/-- A counted boundary of pipe `p`: FRAME, the stamp of the new frame, and the master boundary where the pipe is the master. -/
def State.turnFrame (s : State) (p : Nat) : State :=
  let s := s.releaseThrough p (s.frameLines p)
  let s := s.incr (Reg.PIPE_POS_FRAME p)
  let s := s.when (s.masterSrc == p) State.masterBoundary
  s.modPipe p fun x => x.turn s.orbit.stamp s.now s.orbit.sheds

/-- The covered change of an entry ends when the pipe has emitted one whole frame with it (R156). -/
def State.endCover (s : State) (p : Nat) : State :=
  match s.bcn p with
  | none => s
  | some b =>
    let x := s.entry b.entry
    let shown := match s.mode p with
      | .running | .bankEntry | .stopping => true
      | _ => false
    if x.covered && shown then
      (s.setEntry b.entry { x with covered := false, kept := x.kept.map fun k => { k with decided := true } }).refreshHold b.entry
    else s

/-- The Beacon state latched for the new frame takes effect (R142, R148). An entry that comes from another pipe is under a covered change
(R156). -/
def State.showBeacon (s : State) (p : Nat) : State :=
  let x := s.pipe p
  let s := s.modPipe p fun x => { x with ttNow := x.ttNext, ttImg := x.ttImgNext }
  match x.bcnNext with
  | none => s
  | some b =>
    let s := ((s.modPipe p fun x => { x with bcn := b, bcnNext := none }).noteChange p).bumpGen 12
    let s := match x.bcn with
      | some o =>
        if (b.map fun n => n.entry) != some o.entry && !(allPipes.any fun q => (s.targetOn q).map (fun n => n.entry) == some o.entry) then
          s.setEntry o.entry { s.entry o.entry with kept := [] }
        else s
      | none => s
    match b with
    | some n =>
      if (x.bcn.map fun o => o.entry) != some n.entry && !(s.entry n.entry).kept.isEmpty then s.coverEntry n.entry else s
    | none => s

/-- The shed steps that are due apply, which leaves Banked and restarts the count of R187. (DEDUCED, log 705.) -/
def State.turnSheds (s : State) (p gen : Nat) : State :=
  if (s.pipe p).shedDue.isEmpty then s else (((s.bankExit p).noteChange p).applySheds p gen).assignScalers p

/-- One more frame for every held slot (R42). -/
def State.countHeld (s : State) (p : Nat) : State :=
  s.modPipe p fun x => { x with slots := x.slots.map fun e => (e.1, if e.2.held then { e.2 with heldFrames := e.2.heldFrames + 1 } else e.2) }

/-- In Banked, a keep-alive at each counted boundary (R317), and the held frame's CRC stands for the new frame (R162). -/
def State.keepAlive (s : State) (p : Nat) : State :=
  let frame := s.get (Reg.PIPE_POS_FRAME p)
  let s := (s.cgBurst p).sendBlock p (blkKEEP frame)
  match s.bcn p with
  | none => s
  | some b => match (s.entry b.entry).kept.head? with
    | some k => s.keepCrc b.entry frame k.crc k.suspect
    | none => s

/-- The Banked steps of a counted boundary: entry once HOLD is acknowledged, the keep-alive, and the count of R187 (R187–R189). -/
def State.turnBanked (s : State) (p : Nat) : State :=
  match s.mode p with
  | .running => s.bankBoundary p
  | .bankEntry =>
    if (s.pipe p).holdAck then
      let s := (s.setMode p .banked).modPipe p fun x => { x with holdSent := false, holdAck := false }
      ((((s.setCgState p 7).setTx p 3).cgFill p).incr (Reg.BANK_STAT_ENTRIES p)).keepAlive p
    else s.refuseHold p
  | .banked | .bankExit => s.keepAlive p
  | _ => s

/-- A pipe that leaves Banked resumes at this boundary (R190); answers whether it did. -/
def State.resume (s : State) (p : Nat) : State × Bool :=
  let x := s.pipe p
  if s.mode p == .bankExit && x.wakeNext then
    let s := (s.setMode p .running).modPipe p fun x => { x with wakeNext := false, wakeLate := false }
    let s := if s.get (Reg.CG_STATUS_STATE p) == 7 then (s.setCgState p 6).cgFill p else s
    (if s.get (Reg.CG_STATUS_TX p) == 3 then s.setTx p 0 else s, true)
  else if s.mode p == .bankExit then (s.modPipe p fun x => { x with wakeNext := true, wakeLate := false }, false)
  else (s, false)

/-- The actions of a counted boundary after the state of the new frame has taken effect; `gen` is the generation of the pipe before. -/
def State.finishTurn (s : State) (p gen : Nat) (e d : Int) : State :=
  let s := (((s.turnSheds p gen).countHeld p).showBeacon p).turnBanked p
  let s := if s.mode p == .banked || s.mode p == .bankExit then s else s.wbBoundary p
  let s := s.witnessBoundary p
  let s := s.when (s.is (Reg.BL_PWM_PERIOD_FRAME_RESTART p)) fun s => s.pwmPeriod p
  let s := (s.fsyncPulse p).track p e d
  s.modPipe p fun x => { x with blOnIn := x.blOnIn.map fun n => n - 1 }

/-- Whether a boundary begins the relock of R183 instead of a counted frame: the state latched for it changes the pixel clock. A pipe that
resumes from Banked at this boundary runs R183 from the following frame (R190). (DEDUCED, log 704.) -/
def State.beginsRelock (s : State) (p : Nat) (resumed : Bool) : Bool :=
  let x := s.pipe p
  match x.next with
  | none => false
  | some n => imgGet n.img (Reg.TG_CTRL_RUN p) == 1 && clockChanges x.shown n.img p x.fNum x.fDen n.fNum n.fDen && !resumed

/-- The state latched at the commit line takes effect (R19, R182, R186): a stop begins; a change of the lane rate alone retrains the
port; a change of the pixel clock that the pipe cannot take yet waits. (DEDUCED, log 704.) -/
def State.takeNext (s : State) (p : Nat) : State :=
  let x := s.pipe p
  match x.next with
  | none => s
  | some n =>
    if imgGet n.img (Reg.TG_CTRL_RUN p) = 0 then s.enterStop p n.tag
    else if clockChanges x.shown n.img p x.fNum x.fDen n.fNum n.fDen then s
    else
      let rate := (timingOf n.img p).rate
      let s := if rate = (timingOf x.shown p).rate then s else s.cgDetect p rate
      s.showState p n

/-- The relock gap of R183 begins; on a pipe with Beacon it is a covered change (R184). -/
def State.startRelock (s : State) (p : Nat) : State :=
  match (s.pipe p).next with
  | none => s
  | some n =>
    let s := s.enterRelock p n
    match s.bcn p with
    | some b => s.coverEntry b.entry
    | none => s

/-- A frame boundary of a pipe that counts frames (R175). The frame turns before its state is shown, so that COMMIT_SHOWN carries the stamp
of the new frame. -/
def State.countedBoundary (s : State) (p : Nat) (e d : Int) : State :=
  let (s, resumed) := (s.endCover p).resume p
  if s.beginsRelock p resumed then s.startRelock p else ((s.turnFrame p).takeNext p).finishTurn p (s.get (Reg.OWN_GEN p)) e d

/-- The image of the coming frame of pipe `p` (R309): that of the state latched for it, unless that state stops the pipe, or changes the pixel clock
of a pipe that resumes from Banked, which runs R183 from the following frame. -/
def State.comingImg (s : State) (p : Nat) (first : Bool) : List (Nat × Word) :=
  let x := s.pipe p
  match x.next with
  | none => x.shown
  | some n =>
    if imgGet n.img (Reg.TG_CTRL_RUN p) = 0 || (!first && clockChanges x.shown n.img p x.fNum x.fDen n.fNum n.fDen) then x.shown else n.img

/-- The blocks that announce the coming frame at line V_TOTAL − 1 (R309, Table 12.2), for the image and Beacon state it will show. -/
def State.announce (s : State) (p : Nat) (first : Bool) : State :=
  let x := s.pipe p
  let m := s.comingImg p first
  let t := timingOf m p
  let b := x.bcnNext.getD x.bcn
  let frame := (s.get (Reg.PIPE_POS_FRAME p) + 1) % 65536
  let s := s.emit (.cgBlock p (0x4B + frame * 2 ^ 8 + b2n b.isSome * 2 ^ 24))
  let s := s.emit (.cgBlock p (0x8D + t.hAct * 2 ^ 8 + t.hTot * 2 ^ 21 + t.hFp * 2 ^ 35 + t.hSync * 2 ^ 47 +
    imgGet m (Reg.TG_CTRL_HSYNC_POL p) * 2 ^ 59))
  let s := s.emit (.cgBlock p (0x8E + t.vAct * 2 ^ 8 + t.vTot * 2 ^ 21 + t.vFp * 2 ^ 34 + t.vSync * 2 ^ 46 +
    imgGet m (Reg.CL_CTRL_DEPTH p) * 2 ^ 58 + imgGet m (Reg.TG_CTRL_VSYNC_POL p) * 2 ^ 60))
  let s := allEntries.foldl (fun s r =>
    let c : Rect := match b with
      | some b => (rectOf b.img b.entry r).inter ⟨0, 0, t.hAct, t.vAct⟩
      | none => ⟨0, 0, 0, 0⟩
    let on := c.w != 0 && c.h != 0
    let c := if on then c else ⟨0, 0, 0, 0⟩
    s.emit (.cgBlock p (0x87 + r * 2 ^ 8 + b2n on * 2 ^ 10 + c.x * 2 ^ 11 + c.y * 2 ^ 24 + c.w * 2 ^ 36 + c.h * 2 ^ 49))) s
  s.cgFill p

/-- The port takes up the frame schedule at the announcement of the coming frame (R309, R316–R318): `first` tells that the frame is the first one
of a start or a relock. A boundary that begins a relock is announced by no FH. (DEDUCED, log 707.) -/
def State.sendAnnounce (s : State) (p : Nat) (first : Bool) : State :=
  let x := s.pipe p
  let relock := !first && s.beginsRelock p (s.mode p == .bankExit && x.wakeNext)
  if s.get (Reg.CG_STATUS_STATE p) ≠ 6 ∨ (s.port p).safe ≠ 0 ∨ x.holdAck = true ∨ relock = true then s
  else
    let tx := s.get (Reg.CG_STATUS_TX p)
    let s := if tx = 1 ∨ tx = 3 then s.setTx p 0 else s
    (s.setPort p { s.port p with waitFh := false }).announce p first

/-- The first counted frame after a start or a relock (R183 step 5, R185). A started pipe shows the commit that started it; one restarted
after a clock failure keeps its committed state (R339). -/
def State.firstCounted (s : State) (p : Nat) (e d : Int) : State :=
  let x := s.pipe p
  let start := s.mode p == .starting
  let s := if start && !x.restart then
      match x.pend with
      | c :: _ => (s.setNext p (s.takenState p c)).dropPend p c.id
      | [] => s
    else s
  let s := (s.setMode p .running).modPipe p fun x => { x with seqStep := 0, restart := false }
  let gen := s.get (Reg.OWN_GEN p)
  let s := s.sendAnnounce p true
  let s := s.turnFrame p
  let s := match (s.pipe p).next with
    | some n => s.showState p n start
    | none => s.cgLevel p
  let s := s.refreshPwr.finishTurn p gen e d
  if start then s.modPipe p fun x => { x with blOnIn := some (s.get (Reg.PNL_SEQ_T_BL_ON p)) } else s

/-- Whether the raster of pipe `p` has come to the end of its last line, V_total − 1 (R14). -/
def State.frameOver (s : State) (p : Nat) : Bool := (s.pipe p).nextLine == s.frameLines p

/-- A boundary of raster `p`; 15 is the coasting master raster of FSYNC_IN (R179). A frame ends with its line V_total − 1; before its raster
has restarted, a starting or relocking pipe has no boundary (R14, R183). -/
def State.frameBoundary (s : State) (p : Nat) (e d : Int) : State :=
  if p = 15 then s.when (s.masterSrc == 15 && s.is Reg.FSYNC_STATUS_COASTING) State.masterBoundary
  else if 12 ≤ p then s
  else match s.mode p with
    | .stopped => s
    | .starting | .relock => if (s.pipe p).seqStep = 3 then s.firstCounted p e d else s
    | .stopping => if (s.pipe p).seqStep = 1 && s.frameOver p then s.countedBoundary p e d else s
    | _ => if s.frameOver p then s.countedBoundary p e d else s

/-- FRAME_BOUNDARY (R14). -/
def execFrameBoundary (p : Nat) (e d : Int) (s : State) : Host.Outcome State Fault Refusal := done (s.fresh.when (p < 12 || p == 15) fun s => s.frameBoundary p e d)

/-! ### The commit line (R38–R42) -/

/-- The Beacon APPLY that waits for pipe `p` is latched for the next frame (R142), which leaves Banked. -/
def State.latchApply (s : State) (p : Nat) : State :=
  if !s.bc.applyPipes.contains p then s
  else
    let b := s.targetOn p
    let s := { s with bc := { s.bc with applyPipes := s.bc.applyPipes.filter fun q => q != p } }
    ((s.modPipe p fun x => { x with bcnNext := some b }).bankExit p).noteChange p

/-- The pending commits of pipe `p` that are due for its next frame (R23, R38). (DEDUCED, log 213.) -/
def State.dueCommits (s : State) (p : Nat) : List Pend :=
  let st := s.nextStamp p 1
  (s.pipe p).pend.filter fun c => c.asap || c.eff ≤ st

/-- Whether the raster of pipe `p` is at the end of line `l` of its frame, the next line not yet begun (R14, R17). -/
def State.atEndOf (s : State) (p l : Nat) : Bool := (s.pipe p).nextLine == l + 1

/-- The commit line of the frame of pipe `p` under way (R14, R17). -/
def State.commitLineNow (s : State) (p : Nat) : Nat := commitLineOf (s.pipe p).shown p (s.frameLines p)

/-- The Beacon line of the frame of pipe `p` under way (R14, R17). -/
def State.beaconLineNow (s : State) (p : Nat) : Nat := beaconLineOf (s.pipe p).shown p (s.frameLines p)

/-- The end of the commit line (R17): the due commit is checked, an earlier one due with it superseded, and held slots are looked at again.
A state that already waits for the next frame stays (R190). (DEDUCED, log 204.) -/
def State.commitLine (s : State) (p : Nat) : State :=
  if 12 ≤ p || !s.counting p || (s.pipe p).commitDone || !s.atEndOf p (s.commitLineNow p) then s
  else
    let s := s.latchApply p
    let s := if s.mode p == .stopping || (s.pipe p).next.isSome then s
      else
        let due := s.dueCommits p
        match due.getLast? with
        | none => s.advanceHeld p
        | some c =>
          let s := due.dropLast.foldl (fun s o => s.supersede o.id o.tag) s
          (s.bankExit p).checkDue p c
    ((s.modPipe p fun x => { x with commitDone := true }).settleAdm).deadlinesAt p

/-- COMMIT_LINE (R38). -/
def execCommitLine (p : Nat) (s : State) : Host.Outcome State Fault Refusal := done (s.fresh.when (p < 12) fun s => s.commitLine p)

/-- A held slot takes its STALE_ACTION from the next frame, with the state that it waits for (R42). -/
def State.staleLimit (s : State) (p k : Nat) : State :=
  let x := s.pipe p
  let n := x.keepNext
  match n.held.find? fun e => e.1 == k with
  | none => s
  | some (_, w) =>
    let d := declOf (withSlot x.shown p k w) p k
    if 12 ≤ p || !s.counting p || !(x.slot k).held || n.stale.contains k || d.staleLimit = 0 ||
        (x.slot k).heldFrames < d.staleLimit then s
    else
      let img := withSlot n.img p k w
      let s := (s.setNext p { n with img, stale := n.stale ++ [k] }).record (112 + p) 0x13 p k
      s.confirmReplaced p x.shown img

/-- STALE_LIMIT (R42). -/
def execStaleLimit (p k : Nat) (s : State) : Host.Outcome State Fault Refusal := done (s.fresh.when ((p < 12) && (k < 8)) fun s => s.staleLimit p k)

/-! ### The Beacon line (R43, R152, R159) -/

/-- The tell-tales of the frame that an image will show are latched. -/
def State.latchShown (s : State) (p : Nat) (m : List (Nat × Word)) : State :=
  let x := s.pipe p
  match x.bcnNext.getD x.bcn with
  | none => s.modPipe p fun x => { x with ttNext := [], ttImgNext := none }
  | some b =>
    let (s, ts) := (s.dropLatches b.entry x.ttNext).latchTts b (imgGet m (Reg.TG_HACT_H_ACTIVE p)) (imgGet m (Reg.TG_VACT_V_ACTIVE p))
    let img := s.regs.filter fun e => ttCfgAddr e.1
    s.modPipe p fun x => { x with ttNext := ts, ttImgNext := some img }

/-- A Beacon update of the coming frame discards its lines that are composed already, up to 4 lines ahead of the emit point (R47, R49). -/
def State.recompose (s : State) (p : Nat) : State :=
  s.discardRun p fun l => l.ahead && s.frameLines p + l.line < (s.pipe p).nextLine + 4

/-- The end of the Beacon line (R17, R43): the tell-tales of the next frame are latched and report deadlines close. A changed code leaves
Banked. -/
def State.beaconLine (s : State) (p : Nat) : State :=
  if 12 ≤ p || !s.counting p || (s.pipe p).beaconDone || !s.atEndOf p (s.beaconLineNow p) then s
  else
    let s := match s.bcn p with
      | some b => s.closeReports b.entry p (s.get (Reg.PIPE_POS_FRAME p))
      | none => s
    let img := (s.pipe p).keepNext.img
    let s := s.latchShown p (if imgGet img (Reg.TG_CTRL_RUN p) = 0 then (s.pipe p).shown else img)
    let codes := fun (ts : List TtShown) => ts.map fun t => (t.i, t.code)
    let s := if codes (s.pipe p).ttNow != codes (s.pipe p).ttNext then ((s.bankExit p).noteChange p).recompose p else s
    s.modPipe p fun x => { x with beaconDone := true }

/-- BEACON_LINE (R43). -/
def execBeaconLine (p : Nat) (s : State) : Host.Outcome State Fault Refusal := done (s.fresh.when (p < 12) fun s => s.beaconLine p)

/-- The prefetch start, line V_total − 16: a pipe leaving Banked for the next frame wakes its port (R17, R190). -/
def State.prefetchStart (s : State) (p : Nat) : State :=
  if 12 ≤ p || !s.counting p || (s.pipe p).nextLine + 16 != s.frameLines p then s
  else
    let s := s.modPipe p fun x => { x with prefetched := true }
    if s.mode p == .bankExit && (s.pipe p).wakeNext && s.get (Reg.CG_STATUS_STATE p) == 7 then
      ((s.cgBurst p).setCgState p 6).cgFill p
    else s

/-- PREFETCH_START (R17). -/
def execPrefetchStart (p : Nat) (s : State) : Host.Outcome State Fault Refusal := done (s.fresh.when (p < 12) fun s => s.prefetchStart p)

/-! ### The emit of a line (R174, R176) -/

/-- Uses an injection of FC_INJ that is aimed at pipe `p`. -/
def State.takePipeInj (s : State) (f : FRef) (p : Nat) : State × Bool := if s.get Reg.FC_INJ_PIPE = p then s.takeInj f else (s, false)

/-- A late line is reported (R176). -/
def State.lateLine (s : State) (p reached : Nat) : State :=
  let (s, inj) := s.takePipeInj Reg.FC_INJ_LATE p
  if inj || reached < s.shownGet p (Reg.TG_HACT_H_ACTIVE p) then
    ((s.put (Reg.TG_STATUS_EMIT_LATE p) 1).count (Reg.TG_STATUS_LATE_LINES p) 1).fault .PIPE_EMIT_LATE inj
  else s

/-- The colour stage of pipe `p` reads a word with bad parity (R126): step `n` (0 pre-LUT, 1 matrix, 2 post-LUT) is bypassed from the next
boundary. -/
def State.colourFault (s : State) (p n : Nat) (inj : Bool) : State :=
  (s.modPipe p fun x =>
    let mark := if n = 1 then x.matWrites else imgGet x.shown (Reg.CL_CTRL_LUT_BANK p)
    { x with clBad := (x.clBad.filter fun b => b.step != n || !b.due) ++ [⟨n, mark, true⟩] }).fault .PIPE_CL_PARITY inj

/-- A line-buffer word of slot `k` of pipe `p` is uncorrectable (Table 18.2): the pixels of line `y` that column `c` of the crop reaches
take the fill colour, and the slot behaves as in R74. (DEDUCED, log 411.) -/
def State.lineBufferFault (s : State) (p k y c : Nat) (inj : Bool) : State :=
  let d := declOf (s.pipe p).shown p k
  let sp := spanOf d fun x => (tapsOf (position x d.cw d.dw (sext d.phaseH 18)) 8 d.cw).contains c
  (s.failSpan p k y false sp.1 sp.2).fault .SC_LB_UNCORR inj

/-- FC_INJ.CLPAR strikes the next word that the colour stage reads: the first enabled step, from the next boundary on (R126).
(DEDUCED, log 410; DEDUCED, log 502.) -/
def State.colourParity (s : State) (p y : Nat) : State :=
  let reg := s.region p
  let used := (rangeFrom 0 (s.shownGet p (Reg.TG_HACT_H_ACTIVE p))).any fun x => !rectsHave reg x y
  match [0, 1, 2].find? fun n => s.colourStep p n with
  | none => s
  | some n =>
    if !used then s
    else
      let (s, inj) := s.takePipeInj Reg.FC_INJ_CLPAR p
      if inj then s.colourFault p n true else s

/-- FC_INJ.LB strikes the first line-buffer word that a scaler reads on the line: the topmost scaled slot, its first column (R94, Table
18.2). -/
def State.lineBuffer (s : State) (p y : Nat) : State :=
  let x := s.pipe p
  let hit := (s.shownSlots p).reverse.find? fun e =>
    let d := e.2
    d.scalerNeed != 0 && !s.shedHidden p d && !(x.slot e.1).stale && !(x.slot e.1).failed && d.dy ≤ y && y < d.dy + d.dh
  match hit with
  | none => s
  | some (k, _) =>
    let (s, inj) := s.takePipeInj Reg.FC_INJ_LB p
    if inj then s.lineBufferFault p k y 0 true else s

/-- Whether the body of a glyph matches its directory CRC, inverted where `inj`, and holds no undefined index (R145, R146, R158). -/
def State.glyphIntact (s : State) (d : GlyphDir) (inj : Bool) : Bool :=
  let body := s.sramLoad (glyphBase + d.off) (64 + d.w * d.h)
  d.ok && ((crc32c body == d.crc) != inj) && (body.drop 64).all fun b => b.toNat < 16 || b.toNat == 0xFF

/-- The glyph of tell-tale `i` did not match in the frame that pipe `p` emits (R158). -/
def State.suspects (s : State) (p i : Nat) : State :=
  let s := s.modPipe p fun x => { x with suspect := i :: x.suspect }
  match s.bcn p with
  | some b => s.suspectTt b.entry (s.get (Reg.PIPE_POS_FRAME p)) i
  | none => s

/-- The check of a shown glyph at the emit of its last row (R158): a first mismatch is read again in the next frame; a second one is
lasting; GLYPH_BAD goes once it was cleared and the next check passes. (DEDUCED, log 603.) -/
def State.checkGlyph (s : State) (p : Nat) (t : TtShown) (y : Nat) : State :=
  match t.glyph with
  | none => s
  | some g =>
    let d := s.glyphDir g
    if t.misplaced || y != t.y + (d.h - 1) then s
    else
      let (s, inj) := (s.sramStrike glyphBase 0).takeInj Reg.BC_INJ_GLYPH
      let x := s.tt t.i
      let bad := s.is (Reg.TT_STATE_GLYPH_BAD t.i)
      if s.glyphIntact d inj then
        let s := s.when x.reread fun s => s.fault .BEACON_GLYPH_REREAD
        let s := s.when (bad && x.clearReq) fun s => s.put (Reg.TT_STATE_GLYPH_BAD t.i) 0
        s.setTt t.i { x with reread := false, clearReq := false }
      else if bad then s.setTt t.i { x with clearReq := false }
      else if x.reread then
        let s := (s.put (Reg.TT_STATE_GLYPH_BAD t.i) 1).put (Reg.TT_STATE_PROOF t.i) 2
        (s.setTt t.i { x with reread := false, clearReq := false }).fault .BEACON_GLYPH inj
      else ((s.put (Reg.TT_STATE_PROOF t.i) 0).setTt t.i { x with reread := true }).suspects p t.i

/-- Beacon's share of an emitted line: the comparison of the renderer pair, the Beacon CRC, kept at the last region line, and the glyphs
that end on the line (R149, R157, R158). -/
def State.beaconShare (s : State) (p y : Nat) (line : List Taps) (flip : Bool) : State :=
  match s.bcn p with
  | none => s
  | some b =>
    let reg := s.region p
    let here := (rangeFrom 0 line.length).any fun x => rectsHave reg x y
    let s := if here then
        let (s, inj) := s.takeInj Reg.BC_INJ_RENDER
        let s := s.when inj fun s => s.fault .BEACON_RENDER true
        s.modPipe p fun x => { x with bcnCrc := s.beaconCrcLine p y line x.bcnCrc, bcnFlip := x.bcnFlip || flip }
      else s
    let s := if here && y == lastRegionLine reg then
        let x := s.pipe p
        let crc := crcFinal x.bcnCrc
        (s.put (Reg.BE_CRC_CRC b.entry) crc).keepCrc b.entry (s.get (Reg.PIPE_POS_FRAME p)) (if x.bcnFlip then crcFinal crc else crc) x.suspect
      else s
    (s.pipe p).ttNow.foldl (fun s t => s.checkGlyph p t y) s

/-- The line in the Cagan line FIFO (R174, R306, Table 12.8): answers whether it lost a word. -/
def State.portLine (s : State) (p y : Nat) (line : List Taps) : State × Bool :=
  if !s.cgDelivers p then (s, false)
  else
    let (s, fifo) := s.takeInj (Reg.CG_INJ_FIFO p)
    let s := s.when fifo fun s => s.fault .CG_FIFO_CORR true
    let bad := (s.port p).badLine
    let s := s.setPort p { s.port p with badLine := false }
    let (s, inj) := s.takeInj (Reg.CG_INJ_LINE p)
    let s := s.when inj fun s => s.setPort p { s.port p with lineInj := true }
    let d := depthBits (s.shownGet p (Reg.CL_CTRL_DEPTH p))
    (s.emit (.cgLine p (caganLine d (s.shownGet p (Reg.TG_HACT_H_ACTIVE p)) y (s.get (Reg.PIPE_POS_FRAME p)) line (bad != inj))), bad)

/-- The end of the active lines: the shown codes of the frame (R153), 0 for a tell-tale that no pipe shows, and HOLD on the way into Banked (R188).
(DEDUCED, log 619.) -/
def State.lastActive (s : State) (p : Nat) : State :=
  let s := (s.pipe p).ttNow.foldl (fun s t => s.put (Reg.TT_STATE_SHOWN t.i) t.code) s
  let s := (allTts.filter fun i => !allPipes.any fun q => (s.pipe q).ttNow.any fun t => t.i == i).foldl (fun s i =>
    s.put (Reg.TT_STATE_SHOWN i) 0) s
  if s.mode p == .bankEntry && s.cgDelivers p then
    let s := (s.sendBlock p (blkHOLD (s.get (Reg.PIPE_POS_FRAME p)))).setTx p 2
    (s.setPort p { s.port p with holdOut := true }).modPipe p fun x => { x with holdSent := true }
  else s

/-- Active line `y` is emitted (R174): `reached` pixels were composed, `full` tells that the capture buffer is full. (DEDUCED, log 409.) -/
def State.emitActive (s : State) (p y reached : Nat) (full : Bool) : State :=
  let s := ((s.lateLine p reached).colourParity p y).lineBuffer p y
  let line := s.composeLine p y reached
  let (s, flip) := s.portLine p y line
  let s := s.beaconShare p y line flip
  let s := ((s.wbTake p y line).witnessLine p line full).put (Reg.PIPE_POS_LINE p) y
  if y + 1 = s.shownGet p (Reg.TG_VACT_V_ACTIVE p) then s.lastActive p else s

/-- The run-ahead lines up to line `y` are emitted. -/
def PipeSt.emitted (x : PipeSt) (y : Nat) : PipeSt :=
  { x with slots := x.slots.map fun e => (e.1, { e.2 with run := e.2.run.filter fun l => l.ahead || y < l.line }) }

/-- The raster of pipe `p` reaches its next line: an active line is emitted, blanking lines carry the markers of Table 12.3.
(DEDUCED, log 706.) -/
def State.lineEmit (s : State) (p reached : Nat) (full : Bool) : State :=
  let y := (s.pipe p).nextLine
  if 12 ≤ p || !s.counting p || s.frameLines p ≤ y then s
  else
    let t := timingOf (s.pipe p).shown p
    let banked := s.mode p == .banked || s.mode p == .bankExit
    let s := s.modPipe p fun x => { x.emitted y with nextLine := y + 1 }
    let s := if y < t.vAct ∧ banked = false then s.emitActive p y reached full else s
    let s := s.when ((y : Int) == t.vAct + t.vFp + (s.pipe p).vExtra && s.cgDelivers p) fun s => s.sendBlock p blkVS
    let s := s.when (y + 1 == s.frameLines p) fun s => s.sendAnnounce p false
    let s := s.when (s.is (Reg.TG_LINE_INT_EN p) && s.get (Reg.TG_LINE_INT_LINE p) == y) fun s => s.record (124 + p) 0x20 p y
    s.releaseThrough p y

/-- LINE_EMIT (R174). -/
def execLineEmit (p reached : Nat) (full : Bool) (s : State) : Host.Outcome State Fault Refusal := done (s.fresh.when (p < 12) fun s => s.lineEmit p reached full)

/-! ### The start and stop sequences (R183, R185, R186) -/

/-- T_PWR_ON has elapsed: the pixel PLL locks and the port trains (R185 step 2). -/
def State.pwrOnElapsed (s : State) (p : Nat) : State :=
  if 12 ≤ p || s.mode p != .starting || (s.pipe p).seqStep != 1 then s
  else
    let x := s.pipe p
    let (m, fn, fd) := match x.restart, x.pend with
      | false, c :: _ => (c.img, c.fNum, c.fDen)
      | _, _ => (x.shown, x.fNum, x.fDen)
    let s := s.modPipe p fun x => { x with seqStep := 2, pllOk := false, trainOk := false }
    (s.lockFor p m fn fd false).cgDetect p (timingOf m p).rate

/-- T_PWR_ON_ELAPSED (R185). -/
def execTPwrOnElapsed (p : Nat) (s : State) : Host.Outcome State Fault Refusal := done (s.fresh.when (p < 12) fun s => s.pwrOnElapsed p)

/-- The raster restarts once the PLL has locked and, on a start, training has completed or reached its limit (R183 step 4, R185 step 2);
the tell-tales of the first frame are latched (R425). -/
def State.rasterRestart (s : State) (p : Nat) : State :=
  let x := s.pipe p
  let ready := match s.mode p with
    | .starting => x.pllOk && x.trainOk
    | .relock => x.pllOk
    | _ => false
  if 12 ≤ p || x.seqStep != 2 || !ready then s
  else
    let s := s.modPipe p fun x => { x with seqStep := 3 }
    let s := (s.put (Reg.TG_VADJ_LINES p) 0).put (Reg.TG_VADJ_REMAINDER p) 0
    s.latchShown p (s.timingImg p)

/-- RASTER_RESTART (R183). -/
def execRasterRestart (p : Nat) (s : State) : Host.Outcome State Fault Refusal := done (s.fresh.when (p < 12) fun s => s.rasterRestart p)

/-- T_BL_ON frames after the first frame, the backlight is enabled and the PWM starts (R185 step 4). -/
def State.backlightOn (s : State) (p : Nat) : State :=
  if p < 12 ∧ (s.pipe p).blOnIn = some 0 then
    ((s.modPipe p fun x => { x with blOnIn := none }).seqBacklight p true).pwmPeriod p
  else s

/-- BACKLIGHT_ON (R185). -/
def execBacklightOn (p : Nat) (s : State) : Host.Outcome State Fault Refusal := done (s.fresh.when (p < 12) fun s => s.backlightOn p)

/-- T_BL_OFF_ELAPSED (R186 step 3). -/
def execTBlOffElapsed (p : Nat) (s : State) : Host.Outcome State Fault Refusal :=
  let s := s.fresh
  done (if p < 12 && s.mode p == .stopping && (s.pipe p).seqStep == 1 then s.stopOutput p else s)

/-- T_PWR_OFF_ELAPSED (R186 step 4). -/
def execTPwrOffElapsed (p : Nat) (s : State) : Host.Outcome State Fault Refusal :=
  let s := s.fresh
  done (if p < 12 && s.mode p == .stopping && (s.pipe p).seqStep == 2 then s.finishStop p else s)

end Sys2Proof.Machine
end

