-- ==== Sys2Proof/Machine/RegRead.lean ====
section
/-! DEFINITION. Reads of the device address space (R471–R475, R477, R480, Table 19.1): the value of every register as a read returns it, the
side effects of a read, and reads of service SRAM and boot ROM. -/
namespace Sys2Proof.Machine

/-! ### Values that a register computes -/

/-- A word from fields (value, low bit). -/
def pack (fs : List (Nat × Nat)) : Nat := fs.foldl (fun w f => w + f.1 * 2 ^ f.2) 0

/-- The mask of the numbers below `n` that satisfy a condition. -/
def maskWhere (n : Nat) (f : Nat → Bool) : Nat := (rangeFrom 0 n).foldl (fun m i => m + b2n (f i) * 2 ^ i) 0

/-- ORBIT STATUS (R57). -/
def State.orbStatus (s : State) : Nat :=
  pack [(b2n (!s.orbit.shedOrder.isEmpty), 8), (s.masterSrc, 4), (b2n (s.masterSrc == 15 && s.is Reg.FSYNC_STATUS_COASTING), 1),
    (b2n s.masterRuns, 0)]

/-- An ADM_ register (R57): 0 until a state has been judged since reset, then the figures of the accepted state. (DEDUCED, log 218.) -/
def State.admRead (s : State) (a : Nat) : Nat :=
  if s.get Reg.ADM_TOKENS_TOKENS_AVAIL = 0 then (s.reg a).toNat else (s.refreshAdm.reg a).toNat

/-- TG_STATUS of pipe `p`: ALIGNED and SLEWING read 0 on a pipe without target instants or without a raster (R177, R509). -/
def State.tgStatus (s : State) (p : Nat) : Nat :=
  let w := (s.reg (Reg.a_TG_STATUS p)).toNat
  if s.tracks p && s.counting p then w else setBits w 4 3 0

/-- PIPE_PEND of pipe `p` (R57). -/
def State.pipePend (s : State) (p : Nat) : Nat :=
  let x := s.pipe p
  let stale := maxNat (allSlots.map fun k => (x.slot k).heldFrames)
  pack [(min 255 stale, 16), (maskWhere 8 fun k => (x.slot k).held, 8), (b2n (x.pend.any fun c => c.allOrHold && c.waits != 0), 2),
    (min 3 x.pend.length, 0)]

/-- SHED of pipe `p`: the shed step of each slot (R57). -/
def State.shedWord (s : State) (p : Nat) : Nat :=
  pack (allSlots.map fun k =>
    let d := declOf (s.pipe p).shown p k
    (if d.enable then SMap.get 0 (s.pipe p).shedVis d.layer % 4 else 0, 2 * k))

/-- HP_STATUS of port `n` (R86). -/
def State.hpStatus (s : State) (n : Nat) : Nat :=
  let h := s.get (Reg.HP_SEL_HANDLE n)
  let x := s.handle h
  if !x.alloc then 0
  else pack [(x.cells.flatten.length, 16), (x.owner, 8), (x.sizes.length, 6), (b2n (s.fenceHit x), 5), (b2n (s.pinned h), 3), (x.st.code, 0)]

/-- SC_MAP of pipe `p` (R101). -/
def State.scMap (s : State) (p : Nat) : Nat :=
  pack ([0, 1, 2, 3].map fun i =>
    match allSlots.find? fun k => bit ((s.pipe p).slot k).scalers i with
    | some k => (128 + 64 * b2n (1 < (maskBits 4 ((s.pipe p).slot k).scalers).length) + k, 8 * i)
    | none => (0, 8 * i))

/-- SC_COEF_DATA of pipe `p`: the addressed coefficient, 0 beyond the vertical set (R112). -/
def State.coefRead (s : State) (p : Nat) : Nat :=
  let set := s.get (Reg.SC_COEF_ADDR_DIR p)
  let tap := s.get (Reg.SC_COEF_ADDR_TAP p)
  if set = 1 ∧ 6 ≤ tap then 0
  else toTwos ((s.pipe p).coefAt (s.get (Reg.SC_COEF_ADDR_BANK p)) set (s.get (Reg.SC_COEF_ADDR_PHASE p)) tap) 10

/-- CL_LUT_DATA of pipe `p`: the addressed entry; COMP 3 reads R (R137). -/
def State.lutRead (s : State) (p : Nat) : Nat :=
  (s.pipe p).lutAt (s.get (Reg.CL_LUT_ADDR_BANK p)) (s.get (Reg.CL_LUT_ADDR_TABLE p)) (s.get (Reg.CL_LUT_ADDR_COMP p) % 3) (s.lutIndex p)

/-- SL_STATUS of slot `k` (R112). -/
def State.slStatus (s : State) (p k : Nat) : Nat :=
  let x := s.pipe p
  let st := x.slot k
  let d := declOf x.shown p k
  let bad := st.stale || st.failed
  let area := d.opaqueArea.w != 0 && d.opaqueArea.h != 0
  let filled := !s.shedHidden p d && ((bad && (!d.hide || area)) || x.spans.any fun b => b.slot == k && !b.ahead)
  pack [(if d.enable then d.handle else 0, 12), (st.scalers, 8), (b2n st.culled, 3), (b2n filled, 2),
    (b2n ((bad && d.hide) || (d.enable && s.shedHidden p d)), 1), (b2n st.held, 0)]

/-- BC_STATUS (R170). -/
def State.bcStatus (s : State) : Nat :=
  let w := (s.reg Reg.a_BC_STATUS).toNat
  let glyph := maskWhere 4 fun e => (s.ttsOf e).any fun i => s.is (Reg.TT_STATE_GLYPH_BAD i)
  let on := maskWhere 4 fun e => allPipes.any fun p => match (s.pipe p).bcnNext.getD (s.bcn p) with
    | some b => b.entry == e
    | none => false
  setBits (setBits (setBits (setBits w 27 24 glyph) 19 16 (maskWhere 4 fun e => s.is (Reg.BE_E2E_FAILED e))) 4 4
    (b2n (!s.bc.applyPipes.isEmpty))) 3 0 on

/-- 16 two-bit codes of tell-tales 16 j + 1 to 16 j + 16 (R153). -/
def State.ttCodes (s : State) (j : Nat) (f : Nat → FRef) : Nat := pack ((rangeFrom 0 16).map fun m => (s.get (f (16 * j + m)) % 4, 2 * m))

/-- ENC_GRANT (R271): the tokens taken and the coding rate in Msample/s. -/
def State.encGrant (s : State) : Nat :=
  let t := min 8 (s.get Reg.PWR_GRANT_ENC)
  pack [(if t < 3 then 0 else min 1000 ((125 * t - 250) * 1000 / 650), 16), (t, 0)]

/-- 32 flags of sources 32 w to 32 w + 31. -/
def State.srcFlags (s : State) (w : Nat) (f : Src → Bool) : Nat := maskWhere 32 fun b => f (s.src (32 * w + b))

/-- TGT_STATE of target `t` (R365); IDLE of a host queue has its reset value 0 until the queue has been emptied. (DEDUCED, log 1407.) -/
def State.tgtState (s : State) (t : Nat) : Nat :=
  let y := s.tgt t
  let offer := match s.offer t with
    | some n => n
    | none => 1023
  setBits (pack [(offer, 16), (b2n ((rangeFrom 1 7).any fun g => s.groupHeld t g), 10), (b2n y.idle, 9), (min 31 y.stack.length, 4), (y.running, 0)])
    11 11 (s.get (Reg.TGT_STATE_EOI_BAD t))

/-- The log entry that FC_LOG_SEL selects: FC_LOG_INFO and FC_LOG_STAMP (R443). -/
def State.logRead (s : State) : Nat × Nat :=
  match s.fc.log[s.get Reg.FC_LOG_SEL_ENTRY]? with
  | some e =>
    let c := match e.cls with
      | .ce => 1
      | .cc => 2
      | .ft => 3
    (pack [(b2n e.inj, 31), (b2n e.esc, 30), (c, 24), (e.code, 0)], e.stamp)
  | none => (0, 0)

/-- Whether the object-dictionary engine runs: enabled, and on a running safety pair. -/
def State.odRuns (s : State) : Bool := s.emb.main && s.is Reg.OD_CTRL_EN && s.pairRuns

/-- OD_STATUS (R394). -/
def State.odStatus (s : State) : Nat :=
  pack [(s.get Reg.OD_STATUS_SF_TIMEOUT, 5), (s.get Reg.FC_STATUS_SAFE, 4), (maskWhere 3 fun b => s.od.segs.any fun e => e.1 == b, 1),
    (b2n s.odRuns, 0)]

/-- The stored word with the bits that read 0 cleared: WO bits, and W1S bits, of which GLOBAL LOCK.CFG alone reads what it holds (R475). -/
def State.storedRead (s : State) (a : Nat) (row : RegRow) : Nat :=
  row.fields.foldl (fun w f =>
    if f.acc == .wo || (f.acc == .w1s && row.name != .GLB_LOCK) then setBits w f.hi f.lo 0 else w) (s.reg a).toNat

/-- Whether channel `c` is as the reset left it, so that its deadline still reads the reset value 0. (DEDUCED, log 16.) -/
def State.chanFresh (s : State) (c : Nat) : Bool :=
  s.chan c == {} && s.get (Reg.CH_DEADLINE_LO_DEADLINE c) == 0 && s.get (Reg.CH_DEADLINE_HI_DEADLINE c) == 0

/-- The value of the register at address `a` as requester `o` reads it, but for the _HI registers of R480. -/
def State.regValue (s : State) (o : Origin) (a : Nat) (row : RegRow) (is : List Nat) : Nat :=
  let i := is.headD 0
  let j := (is[1]?).getD 0
  let stored := s.storedRead a row
  match row.name with
  | .ORB_STATUS => s.orbStatus
  | .STAMP_LO => s.orbit.stamp % 2 ^ 32
  | .STAMP_HI => s.orbit.stamp / 2 ^ 32
  | .PIPE_PEND => s.pipePend i
  | .TG_STATUS => s.tgStatus i
  | .CP_CTRL => setBits stored 0 0 (s.get (Reg.CP_RESULT_BUSY i))
  | .SHED => s.shedWord i
  | .ADM_CELLS | .ADM_HBW | .ADM_HBW_AVAIL | .ADM_LINK | .ADM_LINK_AVAIL | .ADM_TOKENS => s.admRead a
  | .HM_FREE => if s.hmReady then pack [(s.freeLimit, 16), (s.freeCells, 0)] else 0
  | .HP_STATUS => s.hpStatus i
  | .CL_LUT_USE => s.lutsInUse i
  | .CL_LUT_DATA => s.lutRead i
  | .SC_COEF_DATA => s.coefRead i
  | .SC_MAP => s.scMap i
  | .SC_BANK_USE => s.banksInUse i
  | .SL_STATUS => s.slStatus i j
  | .BC_STATUS => s.bcStatus
  | .BC_SHOWN => s.ttCodes i Reg.TT_STATE_SHOWN
  | .BC_PROOF => s.ttCodes i Reg.TT_STATE_PROOF
  | .TT_STATE => setBits (setBits stored 31 16 (s.ttAge i)) 8 8 (b2n (s.ttTimedOut i))
  | .DMA_STATUS => pack [(min 2047 s.tagsUsed.length, 16), (min 255 (cdiv s.stageUsed 16384), 0)]
  | .DMA_NOW_LO => (s.now - s.kin.resetAt) % 2 ^ 32
  | .DMA_NOW_HI => (s.now - s.kin.resetAt) / 2 ^ 32 % 2 ^ 32
  | .CH_STATUS | .CH_CUR_LO | .CH_CUR_HI | .CH_REMAIN | .CH_OPEN => ((s.refreshChan i).reg a).toNat
  | .CH_DEADLINE_LO | .CH_DEADLINE_HI => if s.chanFresh i then 0 else ((s.refreshChan i).reg a).toNat
  | .ENC_GRANT => s.encGrant
  | .SRC_PEND => s.srcFlags i fun x => x.pend
  | .SRC_ACTIVE => s.srcFlags i fun x => x.active
  | .REC_STAT => s.recStat o
  | .REC_D0 => s.recWord o 0
  | .REC_D1 => s.recWord o 1
  | .REC_D2 => s.recWord o 2
  | .TGT_CLAIM => (s.claimRead o i).2
  | .TGT_STATE => s.tgtState i
  | .FC_FIRST_STAMP_LO => s.fc.firstStamp % 2 ^ 32
  | .FC_FIRST_STAMP_HI => s.fc.firstStamp / 2 ^ 32
  | .FC_LOG_INFO => s.logRead.1
  | .FC_LOG_STAMP => s.logRead.2
  | .EMB_TIMER => s.emberTimer
  | .LN_ERR => setBits stored 15 0 (s.laneErrors i)
  | .OD_STATUS => s.odStatus
  | .CAN_STATUS => if bit (s.get Reg.OD_CTRL_BUS_EN) i then stored else setBits stored 1 0 3
  | .OWN => setBits stored 5 4 (s.ownResult i (originPath o))
  | .SEC_STATUS => setBits stored 4 4 (b2n s.debugOpen)
  | _ => stored

/-! ### Pairs (R480) -/

/-- The _HI partner of a read-only _LO register, as its distance. (DEDUCED, log 2001.) -/
def hiPartner (r : RegName) : Bool :=
  match r with
  | .SERIAL_LO | .STAMP_LO | .WB_STAMP_LO | .DMA_NOW_LO | .DMA_ERR_ADDR_LO | .CH_CUR_LO | .CH_DEADLINE_LO | .ES_STAMP_LO
  | .FC_FIRST_STAMP_LO => true
  | _ => false

/-- Whether a register is the _HI register of such a pair. -/
def isHi (r : RegName) : Bool :=
  match r with
  | .SERIAL_HI | .STAMP_HI | .WB_STAMP_HI | .DMA_NOW_HI | .DMA_ERR_ADDR_HI | .CH_CUR_HI | .CH_DEADLINE_HI | .ES_STAMP_HI
  | .FC_FIRST_STAMP_HI => true
  | _ => false

/-- The key of the latch of requester `o` for the _HI register at address `a`. (DEDUCED, log 2001.) -/
def latchKey (o : Origin) (a : Nat) : Nat := originIx o * 2 ^ 32 + a

/-- The value that requester `o` reads at a register: a _HI register gives what that requester latched last. (DESIGN CHOICE, log 13.) -/
def State.readValue (s : State) (o : Origin) (a : Nat) (row : RegRow) (is : List Nat) : Word :=
  if isHi row.name then SMap.get 0#32 s.latches (latchKey o a) else BitVec.ofNat 32 (s.regValue o a row is)

/-- The side effects of a read by requester `o` (R480): a _LO register latches its partner; REC_D2 pops, REC_STAT clears LOST, TGT_CLAIM
acknowledges; and CL_LUT_DATA advances its index (R137). (DEDUCED, log 2001; DEDUCED, log 2003.) -/
def State.readEffect (s : State) (o : Origin) (a : Nat) (row : RegRow) (is : List Nat) : State :=
  if hiPartner row.name then
    match regAt (a + 4) with
    | some (hi, his) =>
      { s with latches := SMap.set 0#32 s.latches (latchKey o (a + 4)) (BitVec.ofNat 32 (s.regValue o (a + 4) hi his)) }
    | none => s
  else match row.name with
    | .REC_D2 => s.recPop o
    | .REC_STAT => s.recClear o
    | .TGT_CLAIM => (s.claimRead o (is.headD 0)).1
    | .CL_LUT_DATA => s.lutAdvance (is.headD 0)
    | _ => s

/-! ### Access control (Table 19.1, R471) -/

/-- The regions of Table 19.1 outside the registers and Hearth. -/
inductive MemRegion where
  | pairSram | coreSram | assets | rom
  deriving DecidableEq, Repr

/-- The region of an address below the registers and above Hearth (Table 20.1). -/
def memRegion (a : Nat) : Option MemRegion :=
  if (0x10000000 ≤ a ∧ a < 0x10200000) ∨ (0x10C00000 ≤ a ∧ a < 0x10E00000) then some .pairSram
  else if (0x10200000 ≤ a ∧ a < 0x10400000) ∨ (0x10E00000 ≤ a ∧ a < 0x11000000) then some .coreSram
  else if 0x10400000 ≤ a ∧ a < 0x10C00000 then some .assets
  else if 0x30000000 ≤ a ∧ a < 0x30010000 then some .rom
  else none

/-- Whether access control admits a read of a region by a requester (Table 19.1). (DEDUCED, log 1906.) -/
def State.memReadable (s : State) (o : Origin) (r : MemRegion) : Bool :=
  match o with
  | .sp => true
  | .debug => s.debugOpen
  | _ => match r with
    | .pairSram | .rom => s.lifecycle == lcBlank || s.lifecycle == lcDevelop
    | .coreSram | .assets => true

/-- Whether access control admits a write to a region by a requester (Table 19.1). -/
def State.memWritable (s : State) (o : Origin) (r : MemRegion) : Bool :=
  match r with
  | .rom => false
  | .coreSram => o != .debug || s.debugOpen
  | .pairSram | .assets => o == .sp || (o == .debug && s.debugOpen)

/-- The bytes of a region that a read returns. -/
def State.memBytes (s : State) (r : MemRegion) (a n : Nat) : List Byte :=
  match r with
  | .rom => (rangeFrom a n).map fun x => BitVec.ofNat 8 (Config.bootRom x)
  | _ => s.sramLoad a n

/-- The service core that a requester is (0: none). -/
def coreOf (o : Origin) : Nat :=
  match o with
  | .mc2 => 2
  | .mc3 => 3
  | _ => 0

/-- A read of the 32-bit word at an address outside Hearth by a requester, as the word (none: refused) and what it leaves behind. -/
def State.wordRead (s : State) (o : Origin) (a : Nat) : State × Option Word :=
  if a % 4 ≠ 0 || !s.emb.main then (s, none)
  else match regAt a with
    | some (row, is) => if s.reaches o row.name then (s.readEffect o a row is, some (s.readValue o a row is)) else (s, none)
    | none =>
      if (blockRows a).isSome then (s, if o != .debug || s.debugOpen then some 0#32 else none)
      else match memRegion a with
        | some r =>
          if s.memReadable o r then (s.sramStrike a (coreOf o), some (BitVec.ofNat 32 (leNat (s.memBytes r a 4)))) else (s, none)
        | none => (s, none)

/-- A read, with its answer to the requester. -/
def State.busRead (s : State) (o : Origin) (a : Nat) : State :=
  match s.wordRead o a with
  | (s, some w) => s.emit (.data o a (leBytes 4 w.toNat))
  | (s, none) => s.emit (.refused o a)

/-- LO_REGISTER_READ: a read of a register (R480); a _LO register latches its partner for this requester. The same command reads every
other word of the map (R471), in Hearth through its window (R60). -/
def execLoRegisterRead (o : Origin) (a : Nat) (s : State) : Host.Outcome State Fault Refusal :=
  let s := s.fresh
  done (if (regAt a).isNone && a < 0x10000000 && a % 4 == 0 && s.windowOpen o then s.windowRead o a 4 none .clean else s.busRead o a)

end Sys2Proof.Machine
end

