-- ==== Sys2Proof/Machine/RegWrite.lean ====
section
/-! DEFINITION. Writes of the device address space (R11, R471–R479, Table 19.1): every register to its effect, the service SRAM, refused
addresses; and the ownership commands and GLOBAL LOCK (R385, R478). -/
namespace Sys2Proof.Machine

/-! ### Clamped fields (R475) -/

/-- A word with a field limited to a range. (DEDUCED, log 2002.) -/
def clampField (w : Nat) (f : FRef) (lo hi : Nat) : Nat := setBits w f.hi f.lo (min hi (max lo (bits w f.hi f.lo)))

/-- The word as its register takes it: fields whose description clamps them are limited before they are judged. (DEDUCED, log 2002.) -/
def clampWord (r : RegName) (w : Nat) : Nat :=
  match r with
  | .HEARTH_RSV => clampField w Reg.HEARTH_RSV_CELLS 8 256
  | .FSYNC_PERIOD => clampField w Reg.FSYNC_PERIOD_PERIOD 104167 1041667
  | .PLL_CEIL => clampField w (Reg.PLL_CEIL_PM 0) 1001 1500
  | .TH_CFG => clampField w Reg.TH_CFG_THR 60 118
  | .TH_MIN => clampField w Reg.TH_MIN_MIN 64 288
  | .PWR_BUDGET => clampField w Reg.PWR_BUDGET_TOKENS 64 288
  | .PIPE_ORBIT =>
    let w := clampField w (Reg.PIPE_ORBIT_COMMIT_LEAD 0) 24 1023
    clampField w (Reg.PIPE_ORBIT_BEACON_LEAD 0) 8 (bits w 9 0)
  | _ => w

/-! ### Ownership (R385) -/

/-- An accepted write of OWN_u: ASSIGN_TO and ASSIGN are the safety pair's; the HOST path has CLAIM and RELEASE. -/
def State.writeOwn (s : State) (o : Origin) (u w : Nat) : State :=
  let req := bits w 9 8
  let dst := bits w 13 12
  if o != .sp && (req == 3 || dst != s.get (Reg.OWN_ASSIGN_TO u)) then s.fault .ACC_REFUSED
  else
    let s := s.put (Reg.OWN_ASSIGN_TO u) dst
    if req = 0 then s else (s.ownRequest u (originPath o) req dst).1

/-! ### The effect of a write -/

/-- A write of CLU_CTRL; enabling the engine ends STOPPED (R169). (DESIGN CHOICE, log 1113.) -/
def State.writeClu (s : State) (row : RegRow) (w : Nat) : State :=
  (s.storeRow Reg.a_CLU_CTRL row w).when (bit w 0) fun s => s.put Reg.CLU_STATUS_STOPPED 0

/-- The effect of a write of the accepted word `w` on the register of `row` with indices `is` at address `a`, by requester `o`. -/
def State.applyWrite (s : State) (o : Origin) (a : Nat) (row : RegRow) (is : List Nat) (w : Nat) : State :=
  let i := is.headD 0
  match row.name with
  | .GLB_LOCK | .BC_INJ | .CG_INJ | .DEC_INJ | .DMA_INJ | .ENC_INJ | .OD_INJ => s.storeArm a row w
  | .SHED_CTRL => s.writeShedCtrl row w
  | .ORB_CTRL => (s.storeRow a row w).startUnmastered
  | .BANK_CFG => (s.storeRow a row w).when (!bit w 0) fun s => s.bankExit i
  | .CP_CTRL => s.writeCpCtrl i row w
  | .HM_STATUS => s.writeHmStatus w
  | .FENCE_CFG => s.writeInjPar false row w
  | .FENCE_INJ_HI => s.writeInjPar true row w
  | .ECC_INJ => s.writeEccInj row w
  | .STAT_CTRL => s.writeStatCtrl row w
  | .HP_CMD => s.writeHpCmd i (bits w 2 0)
  | .PNL_CFG => (s.storeRow a row w).manualPins i
  | .PNL_OUT => s.writePnlOut (o == .sp) i row w
  | .CL_LUT_DATA => s.lutWrite i (bits w 12 0)
  | .CL_LUT_RESET => s.lutReset i (bits w 1 0)
  | .WB_CTRL => s.wbArm i w
  | .SC_COEF_DATA => s.coefWrite i (bits w 9 0)
  | .SC_COEF_RESET => s.coefReset i (bits w 3 0)
  | .BC_CTRL => s.when (bit w 0) State.beaconApply
  | .BE_HOLD_START | .BE_HOLD_LEN => (s.storeShadow a row w).refreshHold i
  | .BE_E2E => s.writeE2e i w
  | .TT_STATE => s.writeTtState i w
  | .CLU_CTRL => s.writeClu row w
  | .CH_CTRL => s.writeChCtrl i row w
  | .CH_DB_HI => s.ringDoorbell i w
  | .DEC_CTRL => s.writeDecCtrl w
  | .DS_CMD => s.writeDsCmd i (bits w 2 0)
  | .ENC_CTRL => s.writeEncCtrl w
  | .ES_CMD => s.writeEsCmd i (bits w 2 0)
  | .AK_CTRL => s.writeAkCtrl row w
  | .AK_INJ => s.writeAkInj row w
  | .LN_STATUS => s.writeLane i w
  | .CG_CTRL => s.when (bit w 0) fun s => s.cgFullTrain i
  | .PLL_CTRL => s.writePllCtrl i row w
  | .CLK_INJ => s.writeClkInj row w
  | .INTC_INJ => s.intcInj row w
  | .TGT_EOI => s.eoi i (bits w 7 0)
  | .HQ_ACK => if 4 ≤ i then s.hqAck i (bits w 15 0) else s
  | .FC_CFG | .FC_IRQ_EN => (s.storeRow a row w).faultLines
  | .FC_KICK => s.kick (bits w 15 0)
  | .FC_SCKICK => s.scKick o w
  | .FC_CLEAR => if bits w 15 0 = 0x5AFE then s.clearFt.1 else s
  | .FC_FIRST => s.when (bit w 31) fun s => s.put Reg.FC_FIRST_VALID 0
  | .FC_INJ => s.fcInj row w
  | .FC_STAT => s.clearLatched i (bits w 15 0)
  | .PWR_STATE => s.writePwrState o w
  | .PWR_BUDGET => s.writeBudget w
  | .PWR_INJ => s.pwrInj row w
  | .OWN => s.writeOwn o i w
  | .SEC_LC => s.requestLifecycle o w
  | .SEC_DBG_CTRL => s.writeDbgCtrl w
  | .SEC_KEY_CMD => s.writeKeyCmd w
  | .SEC_DBG_RESP | .SEC_KEY_DATA | .SEC_CPK_DATA => s.setReg a (BitVec.ofNat 32 w)
  | .SEC_RECOVER_LEN => s.recoverWrite fun s => s.storeRow a row w
  | .SEC_RECOVER => s.recoverWrite fun s => s.when (bit w 0) State.recoverGo
  | _ => s.storeShadow a row w

/-- A write of a register (R11, R476, R477): SRC_PEND, SRC_UNPEND, SRC_CFG and MBOX_RING are judged as a whole by their own rules; a write
of a shadow waits while its pipe is in admission (R111). -/
def State.regWrite (s : State) (o : Origin) (a : Nat) (v : Word) : State :=
  match regAt a with
  | none => s
  | some (row, is) =>
    let v := BitVec.ofNat 32 (clampWord row.name v.toNat)
    match row.name with
    | .SRC_PEND => s.pendWrite o a (is.headD 0) v fun k s => s.occur k
    | .SRC_UNPEND => s.pendWrite o a (is.headD 0) v fun k s => s.unpend k
    | .SRC_CFG => s.cfgWrite o (is.headD 0) v
    | .MBOX_RING => s.mboxRing o v
    | _ => if s.shadowHeld a then s.holdWrite (some o) a v else s.written o a v fun row is w s => s.applyWrite o a row is w

/-! ### The device address space (R471, R473, R474, Table 19.1) -/

/-- Writes of a requester that the safe state discards without a fault (R448). (DEDUCED, log 1803.) -/
def State.safeBlocks (s : State) (o : Origin) : Bool := s.is Reg.FC_STATUS_SAFE && isHostPath o

/-- A write of bytes to a region outside the registers and Hearth. -/
def State.memWrite (s : State) (o : Origin) (r : MemRegion) (a : Nat) (bs : List Byte) : State :=
  if s.safeBlocks o then s else if s.memWritable o r then s.sramStore a bs else s.fault .ACC_REFUSED

/-- A write of the 32-bit word at an address: a register; a reserved offset, which ignores it; the service SRAM; the Hearth window; and any
other address, where it is refused. (DEDUCED, log 9.) -/
def State.wordWrite (s : State) (o : Origin) (a : Nat) (v : Word) : State :=
  if !s.windowOpen o then s
  else if a % 4 ≠ 0 then if s.safeBlocks o then s else s.fault .ACC_REFUSED
  else if (regAt a).isSome then s.regWrite o a v
  else if (blockRows a).isSome then s
  else match memRegion a with
    | some r => s.memWrite o r a (leBytes 4 v.toNat)
    | none =>
      if a < 0x10000000 then s.windowWrite o a (leBytes 4 v.toNat) .clean
      else if s.safeBlocks o then s else s.fault .ACC_REFUSED

/-- REGISTER_WRITE (R477): a write of a 32-bit word of the address space. -/
def execRegisterWrite (o : Origin) (a : Nat) (v : Word) (s : State) : Host.Outcome State Fault Refusal := done (s.fresh.wordWrite o a v)

/-- GLOBAL_LOCK_SET: 1 is written to LOCK.CFG (R478). -/
def execGlobalLockSet (o : Origin) (s : State) : Host.Outcome State Fault Refusal := done (s.fresh.regWrite o Reg.a_GLB_LOCK 1#32)

/-- A request of a requester through OWN_u, ASSIGN_TO as it stands but for ASSIGN. -/
def State.ownWrite (s : State) (o : Origin) (u req dst : Nat) : State := s.regWrite o (Reg.a_OWN u) (BitVec.ofNat 32 (req * 256 + dst * 4096))

/-- CLAIM: OWN_u.REQ 1 (R385). (DEDUCED, log 2004.) -/
def execClaim (o : Origin) (u : Nat) (s : State) : Host.Outcome State Fault Refusal :=
  done (if u < 17 then s.fresh.ownWrite o u 1 (s.get (Reg.OWN_ASSIGN_TO u)) else s.fresh)

/-- OWN_RELEASE: OWN_u.REQ 2 (R385). -/
def execOwnRelease (o : Origin) (u : Nat) (s : State) : Host.Outcome State Fault Refusal :=
  done (if u < 17 then s.fresh.ownWrite o u 2 (s.get (Reg.OWN_ASSIGN_TO u)) else s.fresh)

/-- ASSIGN: OWN_u.REQ 3 with ASSIGN_TO (R385). -/
def execAssign (o : Origin) (u w : Nat) (s : State) : Host.Outcome State Fault Refusal :=
  done (if u < 17 then s.fresh.ownWrite o u 3 (w % 4) else s.fresh)

end Sys2Proof.Machine
end

