-- ==== Sys2Proof/Machine/OdObjects.lean ====
section
/-! DEFINITION. The object dictionary (R366–R368, R387, R388, R415, R431, R454, R469, Tables 06.2 and 06.7): which objects exist, what each
of them shows and what a write to each does; and the verification of trailers (R378–R381). -/
namespace Sys2Proof.Machine

/-! ### The objects (Tables 15.1, 15.2) -/

/-- The object groups, each at one index: identity, network, timing of CAN n, synchronisation, power group k, Kindling, handover,
ownership of unit u, safe state, fault group g, security, keys, slot mapping, group k of pipe p, tell-tale register set i, hold window,
cluster signal n. -/
inductive ObjKind where
  | ident | net | sync | kin | hand | ft | sec | keys | map | hold
  | can (n : Nat) | pwr (k : Nat) | own (u : Nat) | group (g : Nat) | pipe (p k : Nat) | tt (i : Nat) | sig (n : Nat)
  deriving DecidableEq, Repr

/-- The object group at an index (Table 15.2). -/
def objKind (x : Nat) : Option ObjKind :=
  if x = 0x0100 then some .ident
  else if x = 0x0200 then some .net
  else if x = 0x0201 ∨ x = 0x0202 then some (.can (x - 0x0201))
  else if x = 0x0210 then some .sync
  else if 0x1000 ≤ x ∧ x ≤ 0x1003 then some (.pwr (x - 0x1000))
  else if x = 0x1010 then some .kin
  else if x = 0x1011 then some .hand
  else if 0x1080 ≤ x ∧ x ≤ 0x1090 then some (.own (x - 0x1080))
  else if x = 0x1100 then some .ft
  else if 0x1101 ≤ x ∧ x ≤ 0x110E then some (.group (x - 0x1100))
  else if x = 0x1200 then some .sec
  else if x = 0x1201 then some .keys
  else if x = 0x1202 then some .map
  else if 0x2000 ≤ x ∧ x < 0x20C0 ∧ x % 16 ≤ 5 then some (.pipe ((x - 0x2000) / 16) (x % 16))
  else if 0x3001 ≤ x ∧ x ≤ 0x3040 then some (.tt (x - 0x3001))
  else if x = 0x3050 then some .hold
  else if 0x3101 ≤ x ∧ x ≤ 0x3104 then some (.sig (x - 0x3100))
  else none

/-- The types of Table 15.1: BOOL; an unsigned or a two's complement number of `n` bytes; STR with its maximum; DOMAIN with its limits. -/
inductive ObjTy where
  | bool
  | uint (n : Nat)
  | int (n : Nat)
  | str (max : Nat)
  | dom (min max : Nat)
  deriving DecidableEq, Repr

/-- Access rights (R366). -/
inductive ObjAcc where
  | ro | rw | wo | const
  deriving DecidableEq, Repr

/-- The attributes of an object (R366): type, access, AUTH flag, and the range of a number. -/
structure ObjDesc where
  ty : ObjTy
  acc : ObjAcc := .ro
  auth : Bool := false
  lo : Nat := 0
  hi : Nat := 2 ^ 64 - 1
  deriving DecidableEq, Repr

/-- Descriptors by type and access. -/
def dRo (n : Nat) : ObjDesc := { ty := .uint n }
def dRw (n : Nat) (auth : Bool := false) (lo : Nat := 0) (hi : Nat := 2 ^ 64 - 1) : ObjDesc := { ty := .uint n, acc := .rw, auth, lo, hi }
def dWo (n : Nat) (lo : Nat := 0) (hi : Nat := 2 ^ 64 - 1) : ObjDesc := { ty := .uint n, acc := .wo, auth := true, lo, hi }

/-- The subindexes of an object group from 1 on. (PRESUMED, log 1511.) -/
def objSubs : ObjKind → List ObjDesc
  | .ident => [{ ty := .str 3, acc := .const }, { ty := .str 8, acc := .const }, { ty := .uint 4, acc := .const }, dRo 4, dRo 8, dRo 1]
  | .net => [dRw 1 true 1 127, { ty := .bool, acc := .rw, auth := true }, dRw 4 true 0 262143, dRw 2 true 0 0x7FF, dRw 2 true 0 0x7FF,
      { ty := .bool, acc := .rw, auth := true }, { ty := .bool }]
  | .can _ => [dRw 4 true, dRw 4 true, dRw 4 true]
  | .sync => [dRo 8, dWo 4, dRo 4, dRo 4, dRo 4]
  | .pwr 0 => [dRo 1, dWo 1 1 2, dRo 1]
  | .pwr 1 => [dRw 2 true 64 288, dRo 2, dRo 2, dRo 2]
  | .pwr 2 => [{ ty := .int 2 }, { ty := .bool }]
  | .pwr _ => [dRw 1 true 0 63, dRo 1, dRw 4 true]
  | .kin => [dRo 1, dRo 1, dRo 4, dRo 1]
  | .hand => [dWo 1 0 11, dRo 1]
  | .own _ => [dRo 1, dRo 2, dWo 1 1 2]
  | .ft => [{ ty := .bool }, { ty := .bool }, dRo 2, dWo 2, dRo 8]
  | .group _ => [dRo 2, dRo 2, dWo 2]
  | .sec => [dRo 1, { ty := .bool }, dRo 1, dRo 2]
  | .keys => [{ ty := .dom 25 25, acc := .wo, auth := true }, dWo 1]
  | .map => [dRw 1 true 0 5, dRw 1 true 0 5, dRw 1 true 0 5, dRw 1 true 0 5, { ty := .bool }]
  | .hold => [dRw 1 true, dRw 4 true, dRw 2 true, dRo 1]
  | .tt _ => [dRw 1 true 0 3, dRw 2 true 0 1023, dRw 2 true, dRw 1 true 0 3, dRw 2 true 0 8191, dRw 2 true 0 4095, dRw 1 true, dRw 1 true,
      dRw 1 true 0 3, dRw 2 true 0 2550, { ty := .bool, acc := .rw, auth := true }, dRo 1, dRo 1]
  | .sig 1 => [dRw 2 true, dRw 2 true, dRo 2]
  | .sig 2 => [dRw 1 true 0 11, dRw 2 true, dRo 2]
  | .sig 3 => [dRw 2, dRw 2, dRo 2]
  | .sig _ => [{ ty := .str 16, acc := .rw }, dRw 2, dRo 2]
  | .pipe _ 0 => [dRo 1, dRo 8, { ty := .bool, acc := .rw }]
  | .pipe _ 1 => [dRw 4, dRw 4]
  | .pipe _ 2 => [dWo 1 1 2, dRo 4, dRo 4]
  | .pipe _ 3 => [dRw 4 false 0 0xFFFFF, dRw 1 false 0 3]
  | .pipe _ 4 => [dRw 2 false 0 1023, dWo 1 1 5, dRo 4, dRw 4 false 0 0x7FFFFFF, dRw 4 false 0 0x7FFFFFF, dRw 4 false 0 0x7FFFFFF, dRo 4]
  | .pipe _ _ => [dRw 2 false 0 1023, dRw 1 false 0 2, dRw 4, { ty := .dom 0 1048576, acc := .wo, auth := true }, dWo 4]

/-- The descriptor of a subindex; subindex 0 is the highest subindex in use (R366). -/
def objDesc (k : ObjKind) (sub : Nat) : Option ObjDesc :=
  if sub = 0 then some { ty := .uint 1, acc := .const } else (objSubs k)[sub - 1]?

/-- The unit whose registers a view is assembled from, if it has one (R386). -/
def objUnit : ObjKind → Option Nat
  | .pipe p _ => some p
  | .tt _ | .hold => some 12
  | .sig _ => some 13
  | .pwr _ => some 16
  | .own u => some u
  | _ => none

/-- The unit that a write needs its path to own (R11, R387, R415). -/
def objOwner : ObjKind → Option Nat
  | .pipe p _ => some p
  | .pwr _ => some 16
  | _ => none

/-- The path of a bus (R380): VEHICLE on CAN, HOST on Aknum. -/
def busPath (b : Nat) : Nat := if b = busAk then ownHost else ownVehicle

/-- The stream of requests on a bus (Table 15.8): S0 on CAN, S2 on Aknum. -/
def busStream (b : Nat) : Nat := if b = busAk then 2 else 0

/-- Whether a path may not write an object at all (R380, R385, R431, R464). -/
def pathRefused (b : Nat) (k : ObjKind) (sub : Nat) : Bool :=
  match k with
  | .tt _ | .hold | .sig _ | .own _ => b == busAk
  | .hand => b != busAk
  | .keys => b == busAk && sub == 1
  | _ => false

/-- Whether a write is accepted in the safe state (R391, R454). -/
def safeObject (k : ObjKind) (sub : Nat) : Bool :=
  match k with
  | .ft => sub == 4
  | .group _ => sub == 3
  | .sync => true
  | _ => false

/-! ### Views (R13, R386) -/

/-- A field in force on pipe `p`: a field that commits take shows the state being emitted, never a shadow (R386). -/
def State.inForce (s : State) (p : Nat) (f : FRef) : Nat := if commitAddr p f.addr then s.shownGet p f else s.get f

/-- A tell-tale field in force: as the Beacon line latched it for the frame being emitted on the pipe that carries the tell-tale (R152). -/
def State.ttInForce (s : State) (i : Nat) (f : FRef) : Nat :=
  let on := allPipes.findSome? fun p =>
    match s.bcn p, (s.pipe p).ttImg with
    | some b, some m => if imgGet m (Reg.TT_CFG_EN i) == 1 && imgGet m (Reg.TT_CFG_ENTRY i) == b.entry then some m else none
    | _, _ => none
  match on with
  | some m => imgGet m f
  | none => s.get f

/-- The address that REG_ADDR of pipe `p` names (Table 15.10). -/
def odRegAddr (p off : Nat) : Nat :=
  if off < 0x10000 then 0x20100000 + 0x10000 * p + off
  else if off < 0x20000 then 0x20600000 + 0x1000 * p + (off - 0x10000)
  else Reg.a_PIPE_ORBIT p

/-- Whether a value of REG_ADDR names a word of the pipe's blocks. -/
def regAddrOk (off : Nat) : Bool := off % 4 == 0 && (off < 0x11000 || off == 0x20000)

/-- The key of the engine's own latch of a _HI register (R480). -/
def odLatch (a : Nat) : Nat := 5 * 2 ^ 32 + a

/-- The engine reads the register at an address for REG_DATA of pipe `p`. -/
def State.odRegRead (s : State) (p a : Nat) : State × Nat :=
  match regAt a with
  | none => (s, 0)
  | some (row, is) =>
    if commitAddr p a then (s, (imgWord (s.pipe p).shown a).toNat)
    else if isHi row.name then (s, (SMap.get 0#32 s.latches (odLatch a)).toNat)
    else
      let v := s.regValue .host a row is
      if hiPartner row.name then
        match regAt (a + 4) with
        | some (hi, his) =>
          ({ s with latches := SMap.set 0#32 s.latches (odLatch (a + 4)) (BitVec.ofNat 32 (s.regValue .host (a + 4) hi his)) }, v)
        | none => (s, v)
      else if row.name = .CL_LUT_DATA then (s.lutAdvance p, v)
      else (s, v)

/-- A string as its bytes. -/
def strBytes (x : String) : List Byte := x.toList.map fun c => BitVec.ofNat 8 c.toNat

/-- The CAN timing register of sub 1 to 3 of controller `n` (Table 15.4). -/
def canReg (n sub : Nat) : Nat := 0x20C000FC + 0x40 * n + 4 * sub

/-- What an object shows as a number. -/
def State.objNat (s : State) (k : ObjKind) (sub : Nat) : Nat :=
  match k, sub with
  | .ident, 3 => (s.reg Reg.a_GLB_ID).toNat
  | .ident, 4 => s.get Reg.FW_VERSION_VERSION
  | .ident, 5 => (s.reg Reg.a_SERIAL_LO).toNat + 2 ^ 32 * (s.reg Reg.a_SERIAL_HI).toNat
  | .ident, _ => s.lifecycle
  | .net, 1 => s.odNode
  | .net, 2 => s.get Reg.OD_CTRL_ID29
  | .net, 3 => s.get Reg.OD_ID29_BASE
  | .net, 4 => s.get Reg.OD_ID_STATE_ID
  | .net, 5 => s.get Reg.OD_ID_PROOF_ID
  | .net, 6 => s.get Reg.OD_CTRL_CLASSIC_READ
  | .net, _ => b2n s.flash.netPending
  | .can n, sub => (s.reg (canReg n sub)).toNat
  | .sync, sub => s.get (Reg.OD_FLOOR_FLOOR (sub - 3))
  | .pwr 0, 1 => s.get Reg.PWR_STATE_STATE
  | .pwr 0, _ => s.get Reg.PWR_STATE_RESULT
  | .pwr 1, 1 => s.get Reg.PWR_BUDGET_TOKENS
  | .pwr 1, 2 => s.get Reg.PWR_STATUS_IN_FORCE
  | .pwr 1, 3 => s.get Reg.PWR_HELD_HELD
  | .pwr 1, _ => s.get Reg.PWR_STATUS_THERMAL_LIMIT
  | .pwr 2, 1 => s.get Reg.TH_STATUS_TJ
  | .pwr 2, _ => s.get Reg.PWR_STATUS_THROTTLE
  | .pwr _, 1 => s.get Reg.EMB_WAKE_MASK_MASK
  | .pwr _, 2 => s.get Reg.EMB_WAKE_SEEN_SEEN
  | .pwr _, _ => s.get Reg.EMB_TIMER_CMP_CMP
  | .kin, 1 => s.kin.cause
  | .kin, 2 => s.kin.phase
  | .kin, 3 => s.kin.time
  | .kin, _ => s.kin.source
  | .hand, _ => s.kin.handState
  | .own u, 1 => s.owner u
  | .own u, _ => s.get (Reg.OWN_GEN u)
  | .ft, 1 => s.get Reg.FC_STATUS_SAFE
  | .ft, 2 => s.get Reg.FC_STATUS_HARD
  | .ft, 3 => if s.is Reg.FC_FIRST_VALID then s.get Reg.FC_FIRST_CODE else 0
  | .ft, _ => s.fc.firstStamp
  | .group g, 1 => s.get (Reg.FC_STAT_LATCHED g)
  | .group g, _ => s.get (Reg.FC_STAT_ACTIVE g)
  | .sec, 1 => s.lifecycle
  | .sec, 2 => b2n s.debugOpen
  | .sec, 3 => s.get Reg.SEC_STATUS_ROLLBACK
  | .sec, _ => (s.reg Reg.a_SEC_KEY_STATE).toNat % 2 ^ 16
  | .keys, _ => 0
  | .map, 1 => s.get Reg.OD_AUTH_CFG_SLOT_S0
  | .map, 2 => s.get Reg.OD_AUTH_CFG_SLOT_S1
  | .map, 3 => s.get Reg.OD_AUTH_CFG_SLOT_S2
  | .map, 4 => s.get Reg.OD_AUTH_CFG_SLOT_TX
  | .map, _ => b2n s.flash.mapPending
  | .hold, 1 => s.od.holdPipe
  | .hold, 2 => s.od.holdStart
  | .hold, 3 => s.od.holdLen
  | .hold, _ => Config.holdState s.od.holdState
  | .tt i, 1 => s.get (Reg.TT_STATE_REQ i)
  | .tt i, 2 => s.ttInForce i (Reg.TT_CFG_GLYPH_ON i)
  | .tt i, 3 => if s.ttInForce i (Reg.TT_CFG_OFF_NONE i) = 1 then 0xFFFF else s.ttInForce i (Reg.TT_CFG_GLYPH_OFF i)
  | .tt i, 4 => s.ttInForce i (Reg.TT_CFG_ENTRY i)
  | .tt i, 5 => s.ttInForce i (Reg.TT_POS_X i)
  | .tt i, 6 => s.ttInForce i (Reg.TT_POS_Y i)
  | .tt i, 7 => s.ttInForce i (Reg.TT_MODE_BLINK_ON i)
  | .tt i, 8 => s.ttInForce i (Reg.TT_MODE_BLINK_OFF i)
  | .tt i, 9 => s.ttInForce i (Reg.TT_MODE_POLICY i)
  | .tt i, 10 => 10 * s.ttInForce i (Reg.TT_MODE_TIMEOUT i)
  | .tt i, 11 => s.ttInForce i (Reg.TT_CFG_EN i)
  | .tt i, 12 => s.get (Reg.TT_STATE_SHOWN i)
  | .tt i, _ => s.get (Reg.TT_STATE_PROOF i)
  | .sig n, 1 => leNat (s.sig n).value
  | .sig n, 2 => (s.sig n).limit n
  | .sig n, _ => s.sigAge n
  | .pipe p 0, 1 => s.get (Reg.TG_STATUS_STATE p)
  | .pipe p 0, 2 => SMap.get 0 s.od.shownStamp p
  | .pipe p 0, _ => s.inForce p (Reg.BANK_CFG_EN p)
  | .pipe p 1, _ => SMap.get 0 s.od.regAddr p
  | .pipe _ 2, 2 => (s.reg (Reg.a_CP_RESULT 1)).toNat
  | .pipe _ 2, _ => (s.reg (Reg.a_CP_DETAIL 1)).toNat
  | .pipe p 3, 1 => s.inForce p (Reg.BL_PWM_DUTY_DUTY p)
  | .pipe p 3, _ => (s.reg (Reg.a_PNL_OUT p)).toNat % 4
  | .pipe _ 4, 1 => s.get (Reg.HP_SEL_HANDLE 1)
  | .pipe _ 4, 3 => (s.reg (Reg.a_HP_RESULT 1)).toNat
  | .pipe _ 4, 4 => s.get (Reg.HP_SIZE0_BYTES 1)
  | .pipe _ 4, 5 => s.get (Reg.HP_SIZE1_BYTES 1)
  | .pipe _ 4, 6 => s.get (Reg.HP_SIZE2_BYTES 1)
  | .pipe _ 4, _ => s.hpStatus 1
  | .pipe p _, 1 => (SMap.get (0, 0, 0) s.od.fillSel p).1
  | .pipe p _, 2 => (SMap.get (0, 0, 0) s.od.fillSel p).2.1
  | .pipe p _, _ => (SMap.get (0, 0, 0) s.od.fillSel p).2.2

/-- The bytes of a number in a type. -/
def objBytes (ty : ObjTy) (v : Nat) : List Byte :=
  match ty with
  | .bool => leBytes 1 v
  | .uint n | .int n => leBytes n v
  | .str _ | .dom _ _ => []

/-- The view of an object for a request on a bus: a read of NONCE draws a fresh one (R381); REG_DATA reads its register. -/
def State.objView (s : State) (b : Nat) (k : ObjKind) (sub : Nat) : State × List Byte :=
  match objDesc k sub with
  | none => (s, [])
  | some d =>
    if sub = 0 then (s, leBytes 1 (objSubs k).length)
    else match k, sub with
      | .ident, 1 => (s, strBytes "GMD")
      | .ident, 2 => (s, strBytes "TD96-AQ2")
      | .sig 4, 1 => (s, (s.sig 4).value)
      | .sync, 1 =>
        let (s, bs) := s.draw 2
        ({ s with od := { s.od with nonces := SMap.set 0 s.od.nonces (busStream b) (leNat bs + 1) } }, bs)
      | .pipe p 1, 2 =>
        let (s, v) := s.odRegRead p (odRegAddr p (SMap.get 0 s.od.regAddr p))
        (s, leBytes 4 v)
      | _, _ => (s, objBytes d.ty (s.objNat k sub))

/-! ### Authentication (R378–R381) -/

/-- The key slot of a stream: 0 S0, 1 S1, 2 S2, 3 TX (Table 15.8). -/
def State.streamSlot (s : State) (k : Nat) : Nat :=
  match k with
  | 0 => s.get Reg.OD_AUTH_CFG_SLOT_S0
  | 1 => s.get Reg.OD_AUTH_CFG_SLOT_S1
  | 2 => s.get Reg.OD_AUTH_CFG_SLOT_S2
  | _ => s.get Reg.OD_AUTH_CFG_SLOT_TX

/-- Whether a stream has a key: slots 6 and 7 serve none, and a slot must be VALID (R463, R465). -/
def State.streamKeyed (s : State) (k : Nat) : Bool := s.streamSlot k ≤ 5 && s.slotValid (s.streamSlot k)

/-- The truncated MAC of a message under the key of a stream (R379). -/
def State.streamMac (s : State) (k : Nat) (msg : List Byte) : List Byte := (cmac (s.slotKey (s.streamSlot k)) msg).take 8

/-- A failed verification (R378, R392): 1 MAC, 2 freshness, 3 key slot. -/
def State.authFail (s : State) (k b kind : Nat) : State :=
  (s.count (if kind = 2 then Reg.OD_AUTH_STAT_STALE else Reg.OD_AUTH_STAT_MAC_FAIL) 1).record 202 0x60 k (kind + 256 * b)

/-- A counter is accepted on a stream; after every 4,096 acceptances its floor is saved to flash (R381). (DEDUCED, log 1502.) -/
def State.acceptCounter (s : State) (k c : Nat) : State :=
  let n := SMap.get 0 s.od.accepted k + 1
  let s := s.put (Reg.OD_FLOOR_FLOOR k) c
  if n < 4096 then { s with od := { s.od with accepted := SMap.set 0 s.od.accepted k n } }
  else
    { s with od := { s.od with accepted := SMap.set 0 s.od.accepted k 0 },
             flash := { s.flash with floors := SMap.set 0 s.flash.floors k (c % 2 ^ 32) } }

/-- How far a counter lies past the floor of a stream, modulo 2^32. -/
def State.pastFloor (s : State) (k c : Nat) : Nat := (c + 2 ^ 32 - s.get (Reg.OD_FLOOR_FLOOR k)) % 2 ^ 32

/-- The MAC step (R378): none where the message verifies, else the abort code. -/
def State.checkMac (s : State) (k b : Nat) (msg mac : List Byte) : State × Option Nat :=
  if !s.streamKeyed k then (s.authFail k b 3, some abSlot)
  else if s.streamMac k msg != mac then (s.authFail k b 1, some abMac)
  else (s, none)

/-- The verification of a trailer (R378): `body` is what the MAC covers behind the identifier, and ends in the counter.
(DEDUCED, log 1502.) -/
def State.verify (s : State) (k b id : Nat) (body mac : List Byte) : State × Option Nat :=
  match s.checkMac k b (leBytes 4 id ++ body) mac with
  | (s, some c) => (s, some c)
  | (s, none) =>
    let c := leNat (body.drop (body.length - 4))
    if 1 ≤ s.pastFloor k c ∧ s.pastFloor k c ≤ 65536 then (s.acceptCounter k c, none) else (s.authFail k b 2, some abStale)

/-- SYNC (R381): `head` holds the frame bytes 0–7, `low` the nonce's low 32 bits as the trailer repeats them. -/
def State.syncFloor (s : State) (k b id : Nat) (head c low mac : List Byte) : State × Option Nat :=
  let n := SMap.get 0 s.od.nonces k
  let s := { s with od := { s.od with nonces := SMap.set 0 s.od.nonces k 0 } }
  let nonce := if n = 0 then [] else leBytes 8 (n - 1)
  if n ≠ 0 ∧ low ≠ nonce.take 4 ∧ s.streamKeyed k then (s.authFail k b 1, some abMac)
  else if n = 0 ∧ s.streamKeyed k then (s.authFail k b 1, some abMac)
  else match s.checkMac k b (leBytes 4 id ++ head ++ c ++ nonce) mac with
    | (s, some x) => (s, some x)
    | (s, none) =>
      let v := leNat c
      if 1 ≤ s.pastFloor k v ∧ s.pastFloor k v ≤ 2 ^ 31 then (s.put (Reg.OD_FLOOR_FLOOR k) ((v + 2 ^ 32 - 1) % 2 ^ 32), none)
      else (s, some abRange)

/-! ### The value rules (R367) -/

/-- Whether the length of a value fits its type. -/
def lengthOk (ty : ObjTy) (n : Nat) : Bool :=
  match ty with
  | .bool => n == 1
  | .uint w | .int w => n == w
  | .str m => n ≤ m
  | .dom lo hi => lo ≤ n && n ≤ hi

/-- Whether a value is in the range of its object. (PRESUMED, log 1511.) -/
def valueOk (d : ObjDesc) (bs : List Byte) : Bool :=
  match d.ty with
  | .bool => leNat bs ≤ 1
  | .uint _ | .int _ => d.lo ≤ leNat bs && leNat bs ≤ d.hi
  | .str _ => bs.all fun b => 0x20 ≤ b.toNat && b.toNat ≤ 0x7E
  | .dom _ _ => true

/-! ### Writes -/

/-- How a write ends: done, refused with a code, answered when commit port 1 latches its result, or when the write of a register that a BUSY
port holds up completes. -/
inductive ObjEnd where
  | ok
  | abort (code : Nat)
  | wait
  | held (a : Nat)
  deriving DecidableEq, Repr

/-- The engine writes a register of a unit that the path owns, by the rules of class and lock (R477, R478); BL_PWM_MIN is the safety
pair's (R194). (DESIGN CHOICE, log 1503.) (DEDUCED, log 1504.) -/
def State.odRegWrite (s : State) (a v : Nat) : State × ObjEnd :=
  match regAt a with
  | none => (s, .ok)
  | some (row, is) =>
    let v := clampWord row.name v
    if row.name = .BL_PWM_MIN then (s.fault .ACC_REFUSED, .abort abPath)
    else if s.shadowHeld a then (s.holdWrite none a (BitVec.ofNat 32 v), .held a)
    else
      let cur := (s.reg a).toNat
      let fs := row.fields.filterMap fun f => s.fieldRefusal row.name is f (bits cur f.hi f.lo) (bits v f.hi f.lo)
      let w := s.acceptedWord row is cur v
      let s := ((s.writeFaults row is cur v).genWrite a row).applyWrite .host a row is w
      (s, if fs.contains .ACC_REFUSED then .abort abPath else if fs.contains .CFG_VIOLATION then .abort abBusy else .ok)

/-- The engine writes one field of a register. -/
def State.odField (s : State) (f : FRef) (v : Nat) : State × ObjEnd := s.odRegWrite f.addr (setBits (s.reg f.addr).toNat f.hi f.lo v)

/-- A stored network setting (R371, R469), by its key in flash. -/
def State.storeNet (s : State) (key v : Nat) : State :=
  { s with flash := { s.flash with net := SMap.set none s.flash.net key (some v) } }

/-- COMMIT (R387): port 1 takes a commit of pipe `p` alone with T = 0. -/
def State.odCommit (s : State) (q : OdReq) (p policy : Nat) : State × ObjEnd :=
  if s.is (Reg.CP_RESULT_BUSY 1) then (s, .abort abBusy)
  else match regAt (Reg.a_CP_CTRL 1) with
    | none => (s, .ok)
    | some (row, _) =>
      let s := ((s.put (Reg.CP_PIPES_PIPES 1) (2 ^ p)).put (Reg.CP_TARGET_LO_TARGET 1) 0).put (Reg.CP_TARGET_HI_TARGET 1) 0
      let s := s.writeCpCtrl 1 row (1 + 2 * (policy - 1))
      ({ s with od := { s.od with waiting := some q } }, .wait)

/-- The writer number of DATA. -/
def odWriter : Nat := 181

/-- Fill `h` of the VEHICLE path. -/
def State.odFill (s : State) (h : Nat) : OdFill := SMap.get {} s.od.fills h

/-- Replaces fill `h`. -/
def State.setOdFill (s : State) (h : Nat) (x : OdFill) : State := { s with od := { s.od with fills := SMap.set {} s.od.fills h x } }

/-- Whether DATA may take a buffer now (R388): the state afterwards, or the abort code. -/
def State.openFill (s : State) (h : Nat) : State × Option Nat :=
  match (s.handle h).st with
  | .filling => if (s.odFill h).open_ && !s.busyDma h then (s, none) else (s, some abPinned)
  | .faulted => (s, some abRange)
  | .shown => (s, some abPinned)
  | _ =>
    if s.pinned h || s.busyDma h then (s, some abPinned)
    else ((s.setBuf h .filling).setOdFill h { open_ := true }, none)

/-- Whether a buffer was allocated through port 1. -/
def State.vehicleBuf (s : State) (h : Nat) : Bool := (s.handle h).alloc && (s.handle h).owner == ownVehicle

/-- DATA (R388): bytes into the selected plane from OFFSET, which advances. -/
def State.odData (s : State) (p : Nat) (bs : List Byte) (e : ReadEvent) : State × ObjEnd :=
  let (h, pl, off) := SMap.get (0, 0, 0) s.od.fillSel p
  if !s.vehicleBuf h || (s.handle h).sizes.length ≤ pl || (s.handle h).sizes.getD pl 0 < off + bs.length then (s, .abort abRange)
  else if !s.hmReady then (s, .abort abBusy)
  else match s.openFill h with
    | (s, some c) => (s, .abort c)
    | (s, none) =>
      let s := (s.clearWriteErr odWriter).ackWrite ⟨odWriter, h, pl, off, bs, false⟩ e
      if s.wroteBad odWriter || s.wroteMoved odWriter then (s.clearWriteErr odWriter, .abort abBusy)
      else
        let x := s.odFill h
        let s := s.setOdFill h { x with crc := crc32cUpdate x.crc bs }
        ({ s with od := { s.od with fillSel := SMap.set (0, 0, 0) s.od.fillSel p (h, pl, off + bs.length) } }, .ok)

/-- SEAL (R388). -/
def State.odSeal (s : State) (b p v : Nat) : State × ObjEnd :=
  let h := (SMap.get (0, 0, 0) s.od.fillSel p).1
  let x := s.odFill h
  if !s.vehicleBuf h || (s.handle h).st != .filling || !x.open_ then (s, .abort abRange)
  else
    let (s, inj) := s.takeInj Reg.OD_INJ_XFER
    let c := if inj then x.crc else crcFinal x.crc
    if c = v then
      let s := (s.setBuf h .sealed).setOdFill h {}
      (s.when x.refused fun s => s.odFault .OD_XFER_RETRY 1 b x.inj, .ok)
    else if x.refused then
      (((s.setBuf h .faulted).setOdFill h {}).odFault .OD_XFER 2 b (inj || x.inj), .abort abRange)
    else (s.setOdFill h { open_ := true, refused := true, inj }, .abort abRange)

/-- A request for a hold window (R154): the safety pair grants it by its writes to BE_HOLD_START and BE_HOLD_LEN of the entry of the pipe
(R386), or refuses it. EXTENDED tells of the window before until then. (DESIGN CHOICE, log 1510; DESIGN CHOICE, log 614.) -/
def State.holdRequest (s : State) : State :=
  let n := s.od.holdLen
  let start := if s.od.holdStart = 0 then (s.orbit.stamp + 1) % 2 ^ 32 else s.od.holdStart
  let ahead := sext (start + 2 ^ 32 - s.orbit.stamp % 2 ^ 32) 32
  match imgEntryOn s.regs s.od.holdPipe with
  | some e =>
    if 1 ≤ n ∧ n ≤ 1024 ∧ ahead ≤ 2 ^ 20 then
      let s := ((s.put (Reg.BE_HOLD_START_START e) start).put (Reg.BE_HOLD_LEN_LEN e) n).put (Reg.BE_HOLD_LEN_EXTENDED e) 0
      ({ (s.bumpGen 12).bumpGen 12 with od := { s.od with holdState := 1 } }).refreshHold e
    else { s with od := { s.od with holdState := 2 } }
  | none => { s with od := { s.od with holdState := 2 } }

/-- A write to a tell-tale (Table 06.2). -/
def State.ttWrite (s : State) (i sub v : Nat) : State × ObjEnd :=
  match sub with
  | 1 => (s.ttRequest i v, .ok)
  | 2 => (s.put (Reg.TT_CFG_GLYPH_ON i) v, .ok)
  | 3 =>
    if v = 0xFFFF then (s.put (Reg.TT_CFG_OFF_NONE i) 1, .ok)
    else if 1023 < v then (s, .abort abRange)
    else ((s.put (Reg.TT_CFG_GLYPH_OFF i) v).put (Reg.TT_CFG_OFF_NONE i) 0, .ok)
  | 4 => (s.put (Reg.TT_CFG_ENTRY i) v, .ok)
  | 5 => (s.put (Reg.TT_POS_X i) v, .ok)
  | 6 => (s.put (Reg.TT_POS_Y i) v, .ok)
  | 7 => (s.put (Reg.TT_MODE_BLINK_ON i) v, .ok)
  | 8 => (s.put (Reg.TT_MODE_BLINK_OFF i) v, .ok)
  | 9 => (s.put (Reg.TT_MODE_POLICY i) v, .ok)
  | 10 => (s.put (Reg.TT_MODE_TIMEOUT i) (cdiv v 10), .ok)
  | _ => (s.put (Reg.TT_CFG_EN i) v, .ok)

/-- A write to a cluster signal (Table 06.7): the value, or its timeout. (PRESUMED, log 1511.) -/
def State.sigObject (s : State) (n sub : Nat) (bs : List Byte) : State :=
  if sub = 1 then s.sigWrite n bs
  else
    s.setSig n { s.sig n with timeout := some (leNat bs) }

/-- PROVISION (R464): slot 0 to 5, wrapped under slot 6. (DESIGN CHOICE, log 1503.) -/
def State.provision (s : State) (bs : List Byte) : State × ObjEnd :=
  let n := leNat (bs.take 1)
  if 5 < n then (s, .abort abRange)
  else if !s.slotValid 6 then (s, .abort abSlot)
  else if s.is Reg.SEC_KEY_CMD_BUSY then (s, .abort abBusy)
  else match keyUnwrap (s.slotKey 6) (bs.drop 1) with
    | none => (s, .abort abRange)
    | some key =>
      match s.judgeKey 1 n true key with
      | (_, some j) => (s.startKeyJob j, .ok)
      | (r, none) => (s, .abort (if r = keyNotEmpty then abRange else abPath))

/-- REVOKE over the dictionary (R465): a slot, or a customer key entry. (DESIGN CHOICE, log 1503.) -/
def State.revokeObject (s : State) (v : Nat) : State × ObjEnd :=
  if !(v ≤ 6 || v == 0x10 || v == 0x11) then (s, .abort abRange)
  else if s.lifecycle = lcRetired then (s, .abort abPath)
  else if s.is Reg.SEC_KEY_CMD_BUSY then (s, .abort abBusy)
  else (s.startKeyJob (if v ≤ 6 then .revoke v else .revokeCpk (v - 0x10)), .ok)

/-- The abort that answers an ownership request (R385). -/
def ownAnswer (r : Nat) : ObjEnd := if r = ownDone then .ok else if r = ownOther then .abort abOwner else .abort abPath

/-- The effect of a write that has passed its checks, on the object `k` sub `sub`, for request `q`.
(DESIGN CHOICE, log 1503; DEDUCED, log 1504.) -/
def State.objWrite (s : State) (q : OdReq) (k : ObjKind) (sub : Nat) (bs : List Byte) (e : ReadEvent) : State × ObjEnd :=
  let v := leNat bs
  match k, sub with
  | .net, sub =>
    let s := s.storeNet sub v
    ({ s with flash := { s.flash with netPending := true } }, .ok)
  | .can n, sub =>
    let s := s.storeNet (16 * (n + 1) + sub) v
    ({ s with flash := { s.flash with netPending := true } }, .ok)
  | .map, sub =>
    let s := s.storeNet (48 + sub) v
    ({ s with flash := { s.flash with mapPending := true } }, .ok)
  | .pwr 0, _ =>
    let (s, r) := s.powerRequest (busPath q.bus) v
    (s, if r = 0 then .ok else if r = 2 then .abort abOwner else .abort abBusy)
  | .pwr 1, _ => s.odField Reg.PWR_BUDGET_TOKENS v
  | .pwr _, 1 => s.odField Reg.EMB_WAKE_MASK_MASK v
  | .pwr _, _ => s.odField Reg.EMB_TIMER_CMP_CMP v
  | .hand, _ =>
    ({ s with kin := { s.kin with handPipe := v, handState := if s.owner v = ownFirmware then 1 else 3 } }, .ok)
  | .own u, _ =>
    let (s, r) := s.ownRequest u ownVehicle v 0
    (s, ownAnswer r)
  | .ft, _ =>
    if v ≠ 0x5AFE then (s, .ok)
    else
      let (s, done) := s.clearFt
      (s, if done then .ok else .abort abBusy)
  | .group g, _ =>
    let s := s.clearLatched g v
    (s, if s.get (Reg.FC_STAT_LATCHED g) &&& v = 0 then .ok else .abort abBusy)
  | .keys, 1 => s.provision bs
  | .keys, _ => s.revokeObject v
  | .hold, 1 => ({ s with od := { s.od with holdPipe := v } }, .ok)
  | .hold, 2 => ({ s with od := { s.od with holdStart := v } }, .ok)
  | .hold, _ => (({ s with od := { s.od with holdLen := v } }).holdRequest, .ok)
  | .tt i, sub => s.ttWrite i sub v
  | .sig n, sub => (s.sigObject n sub bs, .ok)
  | .pipe p 0, _ => s.odField (Reg.BANK_CFG_EN p) v
  | .pipe p 1, 1 =>
    if regAddrOk v then ({ s with od := { s.od with regAddr := SMap.set 0 s.od.regAddr p v } }, .ok) else (s, .abort abRange)
  | .pipe p 1, _ => s.odRegWrite (odRegAddr p (SMap.get 0 s.od.regAddr p)) v
  | .pipe p 2, _ => s.odCommit q p v
  | .pipe p 3, 1 => s.odField (Reg.BL_PWM_DUTY_DUTY p) v
  | .pipe p 3, _ => s.odRegWrite (Reg.a_PNL_OUT p) (setBits (s.reg (Reg.a_PNL_OUT p)).toNat 1 0 v)
  | .pipe _ 4, 1 => s.odField (Reg.HP_SEL_HANDLE 1) v
  | .pipe _ 4, 2 => if s.is (Reg.HP_RESULT_BUSY 1) then (s, .abort abBusy) else (s.writeHpCmd 1 v, .ok)
  | .pipe _ 4, 4 => s.odField (Reg.HP_SIZE0_BYTES 1) v
  | .pipe _ 4, 5 => s.odField (Reg.HP_SIZE1_BYTES 1) v
  | .pipe _ 4, _ => s.odField (Reg.HP_SIZE2_BYTES 1) v
  | .pipe p _, 1 =>
    let x := SMap.get (0, 0, 0) s.od.fillSel p
    ({ s with od := { s.od with fillSel := SMap.set (0, 0, 0) s.od.fillSel p (v, x.2) } }, .ok)
  | .pipe p _, 2 =>
    let x := SMap.get (0, 0, 0) s.od.fillSel p
    ({ s with od := { s.od with fillSel := SMap.set (0, 0, 0) s.od.fillSel p (x.1, v, x.2.2) } }, .ok)
  | .pipe p _, 3 =>
    let x := SMap.get (0, 0, 0) s.od.fillSel p
    ({ s with od := { s.od with fillSel := SMap.set (0, 0, 0) s.od.fillSel p (x.1, x.2.1, v) } }, .ok)
  | .pipe p _, 4 => s.odData p bs e
  | .pipe p _, _ => s.odSeal q.bus p v
  | _, _ => (s, .ok)

end Sys2Proof.Machine
end

