-- ==== Sys2Proof/Machine/ObjDict.lean ====
section
/-! DEFINITION. The commands of the object dictionary and of the CAN controllers (chapter 15): requests and their answers, segmented
transfers, tell-tale frames, view resynchronisation, bus errors and injection. -/
namespace Sys2Proof.Machine

/-! ### Headers (R372) -/

/-- A header (Table 15.5). -/
structure OdHdr where
  cmd : Nat
  txn : Nat
  index : Nat
  sub : Nat
  flags : Nat
  len : Nat
  deriving DecidableEq, Repr

/-- The header of a frame; bytes that a short frame lacks read 0. -/
def odHdr (bs : List Byte) : OdHdr :=
  let n := fun i w => leNat ((bs.drop i).take w)
  ⟨n 0 1, n 1 1, n 2 2, n 4 1, n 5 1, n 6 2⟩

/-- Whether a header says that a trailer follows. -/
def OdHdr.auth (h : OdHdr) : Bool := bit h.flags 0

/-- The bytes that a frame with this header takes. -/
def OdHdr.size (h : OdHdr) : Nat := 8 + h.len + (if h.auth then 12 else 0)

/-- Whether a frame breaks Table 15.5, or its LEN reaches past its payload; a READ carries no value (R372, R373). (DEDUCED, log 1506.) -/
def odMalformed (h : OdHdr) (bs : List Byte) : Bool :=
  bs.length < 8 || 1 < h.flags || bs.length < h.size || (h.cmd == 1 && h.len != 0) || ((h.cmd == 4 || h.cmd == 6) && h.len != 4)

/-- What the answer to a request repeats. -/
def OdHdr.req (h : OdHdr) (b : Nat) (classic brs : Bool := false) : OdReq := ⟨b, h.txn, h.index, h.sub, (h.cmd + 0x80) % 256, classic, brs⟩

/-! ### Finding an object (R366, Table 15.13) -/

/-- The object that a request names; an armed STORE injection fails the parity of its descriptor. -/
def State.odFind (s : State) (b index sub : Nat) : State × Except Nat (ObjKind × ObjDesc) :=
  match objKind index with
  | none => (s, .error abNoObject)
  | some k =>
    if s.od.badObjs.contains index then (s, .error abNoObject)
    else
      let (s, inj) := s.takeInj Reg.OD_INJ_STORE
      if inj then
        (({ s with od := { s.od with badObjs := index :: s.od.badObjs } }).odFault .OD_STORE_PAR 8 b true, .error abNoObject)
      else match objDesc k sub with
        | none => (s, .error abNoSub)
        | some d => (s, .ok (k, d))

/-! ### Segmented transfers (R375) -/

/-- The open segmented transfer of a bus. -/
def State.seg (s : State) (b : Nat) : Option Seg := SMap.get none s.od.segs b

/-- Opens, changes or closes the segmented transfer of a bus. -/
def State.setSeg (s : State) (b : Nat) (x : Option Seg) : State := { s with od := { s.od with segs := SMap.set none s.od.segs b x } }

/-- The header of a segment or of its acknowledgement. -/
def segHead (cmd txn seq : Nat) : List Byte := leBytes 1 cmd ++ leBytes 1 txn ++ leBytes 1 seq ++ [0#8]

/-- Segment `a` of a value on a bus. -/
def segChunk (b : Nat) (x : Seg) (a : Nat) : List Byte := (x.data.drop (a * segRoom b)).take (segRoom b)

/-- The number of segments of a transfer on a bus. -/
def segCount (b : Nat) (x : Seg) : Nat := cdiv x.total (segRoom b)

/-- Sends the segments of a read from the first one not acknowledged, at most 16; or, when none is left, SEG_END with the CRC-32C. -/
def State.segSend (s : State) (b : Nat) (x : Seg) : State :=
  let last := min (x.acked + 16) (segCount b x)
  if last ≤ x.acked then
    let (s, inj) := s.takeInj Reg.OD_INJ_XFER
    let crc := if inj then crcFinal (crc32c x.data) else crc32c x.data
    (s.odSend b (odFrame 0x06 ⟨b, x.txn, x.index, x.sub, 0x06, false, x.brs⟩ (leBytes 4 crc)) x.brs).setSeg b none
  else
    let s := forAll (rangeFrom x.acked (last - x.acked)) (fun a s => s.odSend b (segHead 0x05 x.txn (a % 256) ++ segChunk b x a) x.brs) s
    s.setSeg b (some { x with seq := last })

/-- The end of a segmented transfer with an abort. -/
def State.segAbort (s : State) (b : Nat) (x : Seg) (code : Nat) : State :=
  (s.odAbort ⟨b, x.txn, x.index, x.sub, 0x07, false, x.brs⟩ code).setSeg b none

/-- A SEG_ACK from the requester: the read continues behind the segment that it names. (DEDUCED, log 1505.) -/
def State.segAck (s : State) (b : Nat) (bs : List Byte) (brs : Bool) : State :=
  let txn := leNat ((bs.drop 1).take 1)
  let q : OdReq := ⟨b, txn, 0, 0, 0, false, brs⟩
  match s.seg b with
  | none => s.odAbort q abOrder
  | some x =>
    if x.write || x.txn != txn then s.odAbort q abOrder
    else match (rangeFrom (x.acked - 1) (x.seq - (x.acked - 1))).find? fun a => a % 256 == leNat ((bs.drop 2).take 1) with
      | none => s.segAbort b x abOrder
      | some a => s.segSend b { x with acked := a + 1 }

/-- A SEG_DATA from the requester. (DEDUCED, log 1505.) -/
def State.segData (s : State) (b : Nat) (bs : List Byte) (brs : Bool) : State :=
  let txn := leNat ((bs.drop 1).take 1)
  let q : OdReq := ⟨b, txn, 0, 0, 0, false, brs⟩
  match s.seg b with
  | none => s.odAbort q abOrder
  | some x =>
    if !x.write || x.txn != txn then s.odAbort q abOrder
    else
      let size := min (segRoom b) (x.total - x.data.length)
      if leNat ((bs.drop 2).take 1) ≠ x.seq % 256 ∨ size = 0 then
        if x.seq = 0 ∨ size = 0 then s.segAbort b x abOrder
        else if x.gap then s
        else (s.odSend b (segHead 0x85 x.txn ((x.seq - 1) % 256)) brs).setSeg b (some { x with gap := true, acked := x.seq })
      else if bs.length < 4 + size then s.segAbort b x abMalformed
      else
        let x := { x with data := x.data ++ (bs.drop 4).take size, seq := x.seq + 1, gap := false }
        if x.seq - x.acked = 16 ∨ x.data.length = x.total then
          (s.odSend b (segHead 0x85 x.txn ((x.seq - 1) % 256)) brs).setSeg b (some { x with acked := x.seq })
        else s.setSeg b (some x)

/-! ### Reads (R373, R374, R386) -/

/-- Answers a read from the hardware state of this moment. -/
def State.odDeliver (s : State) (q : OdReq) (segmented : Bool) : State :=
  match objKind q.index with
  | none => s.odAbort q abNoObject
  | some k =>
    let (s, v) := s.objView q.bus k q.sub
    if segmented then
      (s.odOk q (leBytes 4 v.length)).segSend q.bus { write := false, txn := q.txn, index := q.index, sub := q.sub, total := v.length, data := v, brs := q.brs }
    else if q.classic && 4 < v.length then s.odAbort q abClassic
    else if odRoom q.bus - 8 < v.length then s.odAbort q abLong
    else s.odOk q v

/-- A read: the view is assembled, or waits for the resynchronisation of R386. -/
def State.odRead (s : State) (q : OdReq) (segmented skew : Bool) : State :=
  match s.odFind q.bus q.index q.sub with
  | (s, .error c) => s.odAbort q c
  | (s, .ok (k, d)) =>
    if d.acc = .wo then s.odAbort q abWriteOnly
    else if segmented && (s.seg q.bus).isSome then s.odAbort q abBusy
    else if (objUnit k).isNone then s.odDeliver q segmented
    else
      let (s, inj) := s.takeInj Reg.OD_INJ_SKEW
      if skew || inj then { s with od := { s.od with skewed := some (q, segmented, inj) } } else s.odDeliver q segmented

/-! ### Writes (R367, R373, R378, R380, R391) -/

/-- The refusal of a write before its authentication, if any. (DEDUCED, log 1501.) -/
def State.writeRefusal (s : State) (b : Nat) (k : ObjKind) (d : ObjDesc) (sub n : Nat) : Option Nat :=
  if d.acc = .ro ∨ d.acc = .const then some abReadOnly
  else if pathRefused b k sub then some abPath
  else if s.is Reg.FC_STATUS_SAFE && !safeObject k sub then some abSafe
  else if !lengthOk d.ty n then some abLength
  else none

/-- A write after its authentication: the owner (R11), the range, the effect, the answer. (DEDUCED, log 1501.) -/
def State.odPerform (s : State) (q : OdReq) (k : ObjKind) (d : ObjDesc) (sub : Nat) (v : List Byte) (e : ReadEvent) : State :=
  if (match objOwner k with
      | some u => s.owner u != busPath q.bus
      | none => false) then s.odAbort q abOwner
  else if !valueOk d v then s.odAbort q abRange
  else match s.objWrite q k sub v e with
    | (s, .ok) => s.odOk q []
    | (s, .abort c) => s.odAbort q c
    | (s, .wait) => s
    | (s, .held a) => { s with od := { s.od with heldReqs := s.od.heldReqs ++ [(a, q)] } }

/-- A value that has arrived whole: `head` is what the MAC covers of the frame before the value, `ctr` and `mac` the trailer where `auth`. -/
def State.odWriteValue (s : State) (q : OdReq) (id : Nat) (index sub : Nat) (auth : Bool) (head v ctr mac : List Byte) (e : ReadEvent) : State :=
  match s.odFind q.bus index sub with
  | (s, .error c) => s.odAbort q c
  | (s, .ok (k, d)) =>
    match s.writeRefusal q.bus k d sub v.length with
    | some c => s.odAbort q c
    | none =>
      if d.auth && !auth then s.odAbort q abTrailer
      else if k = .sync then
        match s.syncFloor (busStream q.bus) q.bus id head v ctr mac with
        | (s, some c) => s.odAbort q c
        | (s, none) => s.odOk q []
      else if !auth then s.odPerform q k d sub v e
      else match s.verify (busStream q.bus) q.bus id (head ++ v ++ ctr) mac with
        | (s, some c) => s.odAbort q c
        | (s, none) => s.odPerform q k d sub v e

/-- The trailer of a frame: counter and MAC behind a value of `n` bytes. (DEDUCED, log 1502.) -/
def odTrailer (bs : List Byte) (n : Nat) : List Byte × List Byte := ((bs.drop (8 + n)).take 4, (bs.drop (12 + n)).take 8)

/-- SEG_WRITE_INIT: the checks that need no value. (DEDUCED, log 1505.) -/
def State.segOpenWrite (s : State) (q : OdReq) (total : Nat) : State :=
  if (s.seg q.bus).isSome then s.odAbort q abBusy
  else match s.odFind q.bus q.index q.sub with
    | (s, .error c) => s.odAbort q c
    | (s, .ok (k, d)) =>
      match s.writeRefusal q.bus k d q.sub total with
      | some c => s.odAbort q c
      | none => (s.odOk q []).setSeg q.bus (some { write := true, txn := q.txn, index := q.index, sub := q.sub, total, brs := q.brs })

/-- SEG_END of a segmented write: the CRC, RESEND after a first failure, then the write (R375). (DEDUCED, log 1505.) -/
def State.segEnd (s : State) (q : OdReq) (id : Nat) (h : OdHdr) (bs : List Byte) (e : ReadEvent) : State :=
  match s.seg q.bus with
  | none => s.odAbort q abOrder
  | some x =>
    if !x.write || x.txn != q.txn then s.odAbort q abOrder
    else if x.data.length ≠ x.total then s.segAbort q.bus x abOrder
    else
      let (s, inj) := s.takeInj Reg.OD_INJ_XFER
      let crc := if inj then crcFinal (crc32c x.data) else crc32c x.data
      if crc = leNat ((bs.drop 8).take 4) then
        let s := s.when x.second fun s => s.odFault .OD_XFER_RETRY 1 q.bus x.inj
        let (ctr, mac) := odTrailer bs 4
        (s.setSeg q.bus none).odWriteValue q id x.index x.sub h.auth (bs.take 8) x.data ctr mac e
      else if x.second then (s.odFault .OD_XFER 2 q.bus (inj || x.inj)).segAbort q.bus x abCrc
      else
        (s.odSend q.bus (odFrame 0x88 q []) q.brs).setSeg q.bus
          (some { x with data := [], seq := 0, acked := 0, gap := false, second := true, inj })

/-! ### One frame (R370, R373, R374) -/

/-- Whether a CMD is a response, which a requester's frame has no use for. (DEDUCED, log 1506.) -/
def isResponse (cmd : Nat) : Bool := (0x81 ≤ cmd && cmd ≤ 0x84) || cmd == 0x86 || cmd == 0x88

/-- A frame of the object protocol on a bus, with identifier `id` (R379). (DEDUCED, log 1509.) -/
def State.odServe (s : State) (x : OdArrival) : State :=
  let b := x.fr.bus
  let id := if b = busAk then idAk else x.fr.id
  let bs := x.fr.bs
  let h := odHdr bs
  let q := h.req b false x.fr.brs
  if h.cmd = 0x05 ∧ 4 ≤ bs.length then s.segData b bs x.fr.brs
  else if h.cmd = 0x85 ∧ 4 ≤ bs.length then s.segAck b bs x.fr.brs
  else if h.cmd = 0x07 then
    match s.seg b with
    | some g => if g.txn = h.txn then s.setSeg b none else s
    | none => s
  else if isResponse h.cmd then s
  else if odMalformed h bs then s.odAbort q abMalformed
  else match h.cmd with
    | 0x01 => s.odRead q false x.skew
    | 0x02 =>
      let (ctr, mac) := odTrailer bs h.len
      s.odWriteValue q id h.index h.sub h.auth (bs.take 8) ((bs.drop 8).take h.len) ctr mac x.e
    | 0x03 => s.odRead q true x.skew
    | 0x04 => s.segOpenWrite q (leNat ((bs.drop 8).take 4))
    | 0x06 => s.segEnd q id h bs x.e
    | _ => s.odAbort q abMalformed

/-- A classic frame (R374): a READ without a trailer, while CLASSIC_READ is 1. (DEDUCED, log 1506.) -/
def State.classicServe (s : State) (x : OdArrival) : State :=
  let h := odHdr x.fr.bs
  if x.fr.bs.length ≠ 8 ∨ h.cmd ≠ 1 ∨ h.auth = true ∨ s.is Reg.OD_CTRL_CLASSIC_READ = false then s
  else if odMalformed h x.fr.bs then s.odAbort (h.req x.fr.bus true) abMalformed
  else s.odRead (h.req x.fr.bus true) false x.skew

/-- A tell-tale state frame (R380, R382). (DEDUCED, log 1507.) -/
def State.stateFrame (s : State) (fr : CanFrame) : State :=
  if !fr.fd || fr.bs.length != 32 then s
  else match s.checkMac 1 fr.bus (leBytes 4 fr.id ++ fr.bs.take 20) ((fr.bs.drop 20).take 8) with
    | (s, some _) => s
    | (s, none) =>
      let c := leNat ((fr.bs.drop 16).take 4)
      if s.od.lastSf == some (1 - fr.bus, c) && c == s.get (Reg.OD_FLOOR_FLOOR 1) then s.count Reg.OD_AUTH_STAT_DUP 1
      else if s.pastFloor 1 c = 0 ∨ 65536 < s.pastFloor 1 c then s.authFail 1 fr.bus 2
      else
        let s := s.acceptCounter 1 c
        let s := { s with od := { s.od with lastSf := some (fr.bus, c) } }
        let v := leNat (fr.bs.take 16)
        let s := forAll (rangeFrom 0 64) (fun i s => s.ttRequest i (v / 4 ^ i % 4)) s
        (s.put Reg.OD_STATUS_SF_TIMEOUT 0).level 203 false

/-- A CAN frame that is addressed to the TD96 has been received: it counts, and its words are read from the message RAM (R393).
(DEDUCED, log 1512.) -/
def State.canReceived (s : State) (n : Nat) : State :=
  let s := s.incr (Reg.CAN_CNT_RX n)
  let (s, inj) := s.takeInj Reg.OD_INJ_RAM
  s.when inj fun s => s.odFault .CAN_RAM_CORR 5 n true

/-- A frame that the engine takes in its turn (R370): nothing while it is stopped, on a bus that is down or for another node. -/
def State.odTake (s : State) (x : OdArrival) : State :=
  let n := x.fr.bus
  if !s.odRuns then s
  else if n = busAk then s.odServe x
  else if !s.canUp n then s
  else if x.fr.id = s.stateId then (s.canReceived n).stateFrame x.fr
  else if x.fr.id = s.requestId then
    let s := s.canReceived n
    if x.fr.fd then s.odServe x else s.classicServe x
  else s

/-- A frame arrives: it waits behind a read that waits for its unit (R370). -/
def State.odArrive (s : State) (x : OdArrival) : State :=
  if s.od.skewed.isSome then { s with od := { s.od with inbox := s.od.inbox ++ [x] } } else s.odTake x

/-- The command that a CAN frame is: 0 a state frame, 0x100 a classic frame, else its CMD, where a CMD that is none of Table 15.6's requests
is a READ's. -/
def State.odRow (s : State) (fr : CanFrame) : Nat :=
  if fr.id = s.stateId then 0
  else if !fr.fd then 0x100
  else
    let c := (odHdr fr.bs).cmd
    if (2 ≤ c ∧ c ≤ 7) ∨ c = 0x85 then c else 1

/-- A CAN frame as the command `row`; a frame that is another command leaves all as it is. -/
def State.odCommand (s : State) (row : Nat) (fr : CanFrame) (skew : Bool) (e : ReadEvent) : State :=
  if fr.bus < 2 ∧ s.odRow fr = row then s.odArrive ⟨fr, skew, e⟩ else s

/-- READ (R373); a frame with an unknown CMD is answered here. -/
def execRead (fr : CanFrame) (skew : Bool) (s : State) : Host.Outcome State Fault Refusal := done (s.fresh.odCommand 0x01 fr skew .clean)

/-- WRITE (R373). -/
def execWrite (fr : CanFrame) (e : ReadEvent) (s : State) : Host.Outcome State Fault Refusal := done (s.fresh.odCommand 0x02 fr false e)

/-- CLASSIC_READ (R374). -/
def execClassicRead (fr : CanFrame) (skew : Bool) (s : State) : Host.Outcome State Fault Refusal :=
  done (s.fresh.odCommand 0x100 fr skew .clean)

/-- SEG_READ_INIT (R375). -/
def execSegReadInit (fr : CanFrame) (skew : Bool) (s : State) : Host.Outcome State Fault Refusal :=
  done (s.fresh.odCommand 0x03 fr skew .clean)

/-- SEG_WRITE_INIT (R375). -/
def execSegWriteInit (fr : CanFrame) (s : State) : Host.Outcome State Fault Refusal := done (s.fresh.odCommand 0x04 fr false .clean)

/-- SEG_DATA (R375). -/
def execSegData (fr : CanFrame) (s : State) : Host.Outcome State Fault Refusal := done (s.fresh.odCommand 0x05 fr false .clean)

/-- SEG_ACK (R375). -/
def execSegAck (fr : CanFrame) (s : State) : Host.Outcome State Fault Refusal := done (s.fresh.odCommand 0x85 fr false .clean)

/-- SEG_END (R375). -/
def execSegEnd (fr : CanFrame) (e : ReadEvent) (s : State) : Host.Outcome State Fault Refusal := done (s.fresh.odCommand 0x06 fr false e)

/-- OD_ABORT (R373). -/
def execOdAbort (fr : CanFrame) (s : State) : Host.Outcome State Fault Refusal := done (s.fresh.odCommand 0x07 fr false .clean)

/-- STATE_FRAME (R382). -/
def execStateFrame (fr : CanFrame) (s : State) : Host.Outcome State Fault Refusal := done (s.fresh.odCommand 0 fr false .clean)

/-- A gap of more than 100 ms ends the transfer of a bus (R375). (DEDUCED, log 1505.) -/
def State.segTimeout (s : State) (b : Nat) : State :=
  match s.seg b with
  | some x => if s.odRuns then s.segAbort b x abTimeout else s
  | none => s

/-- SEG_TIMEOUT (R375). -/
def execSegTimeout (b : Nat) (s : State) : Host.Outcome State Fault Refusal := done (s.fresh.when (b < 3) fun s => s.segTimeout b)

/-- SF_TIMEOUT (R382). -/
def execSfTimeout (s : State) : Host.Outcome State Fault Refusal :=
  let s := s.fresh
  done (if s.odRuns then (s.put Reg.OD_STATUS_SF_TIMEOUT 1).level 203 true else s)

/-! ### The proof frame (R383) -/

/-- The bytes 0–43 of the proof frame with a TX counter. (DEDUCED, log 1508.) -/
def State.proofBytes (s : State) (c : Nat) : List Byte :=
  ([0, 1, 2, 3].flatMap fun j => leBytes 4 (s.ttCodes j Reg.TT_STATE_SHOWN)) ++
  ([0, 1, 2, 3].flatMap fun j => leBytes 4 (s.ttCodes j Reg.TT_STATE_PROOF)) ++
  leBytes 6 s.orbit.stamp ++ leBytes 1 (maskWhere 4 fun e => s.is (Reg.BE_E2E_FAILED e)) ++
  leBytes 1 (s.get Reg.FC_STATUS_SAFE + 2 * b2n (s.anyLatched (s.ccMask) fun _ => true)) ++ leBytes 4 c

/-- The proof frame is sent on both buses, with bit-rate switching (R369); without a usable key none is. (DEDUCED, log 1508.) -/
def State.proofFrame (s : State) : State :=
  if !s.odRuns || !s.is Reg.OD_SF_CFG_TX_EN || !s.streamKeyed 3 then s
  else
    let c := (s.od.txCtr + 1) % 2 ^ 32
    let body := s.proofBytes c
    let bs := padTo (body ++ s.streamMac 3 (leBytes 4 s.proofId ++ body)) 64
    let s := { s with od := { s.od with txCtr := c } }
    (s.canSend 0 s.proofId true bs true).canSend 1 s.proofId true bs true

/-- PROOF_FRAME (R383). -/
def execProofFrame (s : State) : Host.Outcome State Fault Refusal := done s.fresh.proofFrame

/-! ### Resynchronisation (R386) -/

/-- The unit has latched the object's fields: the fault, its record and the answer; then the frames that waited are taken in order.
(DEDUCED, log 1509.) -/
def State.skewResolved (s : State) : State :=
  match s.od.skewed with
  | none => s
  | some (q, segmented, inj) =>
    let u := match objKind q.index with
      | some k => (objUnit k).getD 0
      | none => 0
    let s := (s.count Reg.OD_SKEW_COUNT 1).put Reg.OD_SKEW_UNIT u
    let s := (s.record 202 0x62 u q.index).odFault .MGMT_DATA_SKEW 7 q.bus inj
    let box := s.od.inbox
    let s := ({ s with od := { s.od with skewed := none, inbox := [] } }).odDeliver q segmented
    box.foldl State.odArrive s

/-- MGMT_DATA_SKEW (R386). -/
def execMgmtDataSkew (s : State) : Host.Outcome State Fault Refusal := done s.fresh.skewResolved

/-! ### The CAN controllers (R369, R390) -/

/-- Controller `n` goes bus-off; a second time within 1 s is a CC. -/
def State.busOff (s : State) (n : Nat) : State :=
  if !s.canUp n then s
  else
    let again := match SMap.get 0 s.od.busOffAt n with
      | 0 => false
      | t + 1 => s.now - t ≤ 1000 * msNs
    let s := (s.put (Reg.CAN_STATUS_STATE n) 2).count (Reg.CAN_STATUS_BUSOFF_CNT n) 1
    let s := ({ s with od := { s.od with busOffAt := SMap.set 0 s.od.busOffAt n (s.now + 1) } }).canLevel n
    s.when again fun s => s.odFault .CAN_BUSOFF 4 n

/-- CAN_BUSOFF (R390). -/
def execCanBusoff (n : Nat) (s : State) : Host.Outcome State Fault Refusal := done (s.fresh.when (n < 2) fun s => s.busOff n)

/-- Controller `n` recovers: error active, its counters 0. -/
def State.busOffRecovery (s : State) (n : Nat) : State :=
  if 2 ≤ n || !s.emb.main || s.get (Reg.CAN_STATUS_STATE n) != 2 then s
  else
    let s := ((s.put (Reg.CAN_STATUS_STATE n) 0).put (Reg.CAN_STATUS_TEC n) 0).put (Reg.CAN_STATUS_REC n) 0
    (s.canLevel n).odFault .CAN_BUSOFF_RETRY 3 n

/-- BUSOFF_RECOVERY (R390). -/
def execBusoffRecovery (n : Nat) (s : State) : Host.Outcome State Fault Refusal := done (s.fresh.when (n < 2) fun s => s.busOffRecovery n)

/-- The error counters of controller `n` change: error passive from 128 on (R369). -/
def State.busError (s : State) (n tx rx : Nat) : State :=
  if !s.canUp n then s
  else
    let s := (s.put (Reg.CAN_STATUS_TEC n) (min 255 tx)).put (Reg.CAN_STATUS_REC n) (min 255 rx)
    (s.put (Reg.CAN_STATUS_STATE n) (if 128 ≤ tx ∨ 128 ≤ rx then 1 else 0)).canLevel n

/-- CAN_BUS_ERROR (R369, R389). -/
def execCanBusError (n tx rx : Nat) (s : State) : Host.Outcome State Fault Refusal := done (s.fresh.when (n < 2) fun s => s.busError n tx rx)

/-- OD_INJ (R393): the bits stay armed until they are used. (DEDUCED, log 1112.) -/
def execOdInj (o : Origin) (v : Word) (s : State) : Host.Outcome State Fault Refusal :=
  done (s.fresh.written o Reg.a_OD_INJ v fun row _ w s => s.storeArm Reg.a_OD_INJ row w)

end Sys2Proof.Machine
end

