-- ==== Sys2Proof/Machine/Aknum.lean ====
section
/-! DEFINITION. Flits and packets of the Aknum link (R283–R293, R296–R298, Tables 11.4–11.9): reception with replay, the transaction
layer, transmission with credits and ordering, replay timeouts and electrical idle. -/
namespace Sys2Proof.Machine

/-! ### Errors and replay (R286–R288, R290) -/

/-- Logs a protocol error (R290). -/
def State.akLog (s : State) (kind ptype vc seq : Nat) : State :=
  (((s.put Reg.AK_ERR_LOG_KIND kind).put Reg.AK_ERR_LOG_PTYPE ptype).put Reg.AK_ERR_LOG_VC vc).put Reg.AK_ERR_LOG_SEQ seq

/-- A protocol error is logged and raises AK_PROTOCOL. (DEDUCED, log 1106.) -/
def State.akProtocol (s : State) (kind ptype vc seq : Nat) (inj : Bool := false) : State := (s.akLog kind ptype vc seq).fault .AK_PROTOCOL inj

/-- A flit was delivered or acknowledged after a replay (Table 11.6). (DEDUCED, log 1107.) -/
def State.replayed (s : State) (inj : Bool) : State := (s.count Reg.AK_CNT_REPLAY_REPLAY 1).fault .AK_REPLAY inj

/-- A replayed copy failed: a fast retrain follows, and after that fast retrain a full training (Table 11.6). (DEDUCED, log 1107.) -/
def State.replayFailed (s : State) (again inj : Bool) : State :=
  let s := (s.count Reg.AK_CNT_REPLAY_FAIL 1).fault .AK_REPLAY_FAIL inj
  if again then s.akFull else s.akFast

/-- A little-endian 64-bit word of a flit. -/
def flitWord (bs : List Byte) (off : Nat) : Nat := leNat ((bs.drop off).take 8)

/-- The physical lanes that carried a block of the failed copy which differs from the delivered flit (R278, R288). (DEDUCED, log 1108.) -/
def FailedCopy.badLanes (c : FailedCopy) (bs : List Byte) : List Nat :=
  let n := max 1 c.lanes.length
  ((rangeFrom 0 32).filter fun j => (c.bs.drop (8 * j)).take 8 != (bs.drop (8 * j)).take 8).filterMap (fun j =>
    c.lanes[(32 * c.pos + j) % n]?) |>.eraseDups

/-- The expected inbound flit has arrived: where it had failed, the copies are compared and the replay is classified; a flit that has failed
lastingly keeps that class (Table 11.6, R439). -/
def State.flitArrived (s : State) (bs : List Byte) : State :=
  match s.ak.failed with
  | none => s
  | some c =>
    let s := forAll (c.badLanes bs) (fun l s => s.laneError l c.inj) s
    let lasting := s.ak.failStage != 0
    let s := { s with ak := { s.ak with failed := none, nak := false, failStage := 0 } }
    if lasting then s else s.replayed c.inj

/-- An inbound flit fails its CRC (R286): the copy of the first one is kept and NAKed; a failing copy of the expected flit while it is awaited
is a failed replay. -/
def State.flitFails (s : State) (pos : Nat) (bs : List Byte) (inj : Bool) : State :=
  match s.ak.failed with
  | none => { s with ak := { s.ak with failed := some ⟨pos, bs, s.inMap, inj⟩, nak := true } }
  | some _ =>
    if bits (flitWord bs 248) 31 20 ≠ s.get Reg.AK_SEQ_RX_EXPECT then s
    else
      let again := s.ak.failStage != 0
      let s := { s with ak := { s.ak with failStage := 1, nak := true } }
      s.replayFailed again inj

/-! ### Acknowledgement and credits (R285, R287, R289) -/

/-- The ACK of a trailer frees the flits up to it; each of them that needed one replay is a transient failure (Table 11.6). (DEDUCED, log 1107.) -/
def State.takeAck (s : State) (ack : Nat) : State :=
  match (rangeFrom 0 s.ak.unacked.length).find? fun i => (s.ak.unacked[i]?.map fun f => f.seq) == some ack with
  | none => s
  | some i =>
    let gone := s.ak.unacked.take (i + 1)
    let replayAt := match s.ak.replayAt with
      | none => none
      | some r => if s.ak.unacked.length ≤ max r (i + 1) then none else some (r - (i + 1))
    let s := { s with ak := { s.ak with unacked := s.ak.unacked.drop (i + 1), replayAt } }
    gone.foldl (fun s f => s.when (f.replays == 1) fun s => s.replayed false) s

/-- The oldest unacknowledged flit is the one that needs the replay (Table 11.6); the flits behind it only travel again.
(DEDUCED, log 1107.) -/
def wantReplay (fs : List TxFlit) : List TxFlit :=
  match fs with
  | [] => []
  | f :: rest => { f with replays := max 1 f.replays } :: rest

/-- A NAK: every flit from the oldest unacknowledged one is sent again; a NAK of a flit whose replay was sent is a failed replay.
(DEDUCED, log 1107.) -/
def State.takeNak (s : State) : State :=
  match s.ak.unacked with
  | [] => s
  | f :: fs =>
    let s' := { s with ak := { s.ak with replayAt := some 0, unacked := wantReplay (f :: fs) } }
    if f.replays = 0 ∨ s.ak.replayAt = some 0 then s'
    else { s' with ak := { s'.ak with unacked := { f with replays := 2 } :: fs } }.replayFailed (f.replays != 1) false

/-- A credit return of a header: the running total of units that the adapter has freed on a VC. -/
def State.takeCredit (s : State) (vc total : Nat) : State := { s with ak := { s.ak with freed := setAt s.ak.freed vc total } }

/-! ### LINK flits (Table 11.5) -/

/-- The EQ_REQ of the adapter for a lane that the TD96 sends on (R281): the step within the limits, and the acknowledgement. -/
def State.eqRequested (s : State) (l tap step num : Nat) : State :=
  if l < 16 ∨ 20 ≤ l ∨ (tap ≠ 1 ∧ tap ≠ 2) ∨ (step ≠ 1 ∧ step ≠ 255) then s
  else
    let (s, limit) := s.akTap l tap (step == 1)
    s.akLink [3#8, 0#8, 0#8, 0#8, BitVec.ofNat 8 num, BitVec.ofNat 8 (b2n limit)]

/-- An EQ_ACK of the adapter: the step of the request is applied, unless its tap was at a limit. -/
def State.eqAcked (s : State) (num limit : Nat) : State :=
  match s.ak.eqReqs.find? fun q => q.num == num && q.waits with
  | none => s
  | some q =>
    let s := if limit = 1 then s else (s.akTap q.lane q.tap q.up).1
    { s with ak := { s.ak with eqReqs := s.ak.eqReqs.map fun r => if r.lane == q.lane then { r with waits := false } else r } }

/-- The adapter's INIT (R289): its credits. One that advertises less than Table 11.10 asks is a breach. (DEDUCED, log 1106.)
(DEDUCED, log 19.) -/
def State.takeInit (s : State) (c0 c1 c2 c3 seq : Nat) : State :=
  let s := (((s.put Reg.AK_CRED_0_VC0 c0).put Reg.AK_CRED_0_VC1 c1).put Reg.AK_CRED_1_VC2 c2).put Reg.AK_CRED_1_VC3 c3
  let s := { s with ak := { s.ak with rxInit := true } }
  let low := [(0, decide (c0 < 512)), (1, decide (c1 < 2048)), (2, c2 != 0xFFFF), (3, decide (c3 < 64))].filterMap fun (e : Nat × Bool) => if e.2 then some e.1 else none
  match low with
  | vc :: _ => s.akProtocol 3 0 vc seq
  | [] => s

/-- The payload of a delivered LINK flit. (DEDUCED, log 1109.) -/
def State.linkCommand (s : State) (p : List Byte) (seq : Nat) : State :=
  let n := fun i w => leNat ((p.drop i).take w)
  match n 0 1 with
  | 1 => s.takeInit (n 2 2) (n 4 2) (n 6 2) (n 8 2) seq
  | 2 => s.eqRequested (n 1 1) (n 2 1) (n 3 1) (n 4 1)
  | 3 => s.eqAcked (n 4 1) (n 5 1)
  | 4 => if s.ak.idleSent then { s with ak := { s.ak with idleSent := false, idleLeft := 16 } } else s
  | 6 => forAll (maskBits 4 (n 4 4)) (fun i s => s.laneError (16 + i) false) s
  | _ => s

/-! ### Inbound packets (R290–R293) -/

/-- PTYPE of a header word. -/
def pktType (w : Nat) : Nat := bits w 63 60

/-- The size of an inbound packet by its header word; none for a malformed one (Tables 11.8, 11.9). -/
def pktIn (w : Nat) : Option Nat :=
  match pktType w with
  | 0 => if w = 0 then some 8 else none
  | 3 => if bits w 59 57 ≤ 3 ∧ bits w 45 37 ≤ 256 ∧ bits w 24 0 = 0 then some (8 + pad8 (bits w 45 37)) else none
  | 4 => if bits w 55 32 = 0 then some 16 else none
  | 5 => if bits w 51 32 = 0 then some 8 else none
  | 7 => if 1 ≤ bits w 59 51 ∧ bits w 59 51 ≤ 256 ∧ bits w 50 0 = 0 then some (8 + pad8 (bits w 59 51)) else none
  | _ => none

/-- The virtual channel of an inbound packet (Table 11.8). -/
def pktVc (w : Nat) : Nat :=
  match pktType w with
  | 4 => 0
  | 5 => 1
  | 3 => 2
  | _ => 3

/-- The units that the TD96 advertises on a VC (R289); none for infinite. -/
def ownCredit (vc : Nat) : Option Nat :=
  match vc with
  | 0 => some 2048
  | 1 => some 256
  | 2 => none
  | _ => some 512

/-- The modulus of credit totals. -/
def creditMod : Nat := 16384

/-- A total counted on for a VC. (DEDUCED, log 1105.) -/
def addUnits (xs : List Nat) (vc n : Nat) : List Nat := setAt xs vc ((xs.getD vc 0 + n) % creditMod)

/-- The runs of enabled bytes of a word: (offset, bytes). -/
def beRuns (be : Nat) (bs : List Byte) : List (Nat × List Byte) :=
  (rangeFrom 0 4).filterMap fun i =>
    if bit be i && (i == 0 || !bit be (i - 1)) then
      some (i, ((bs.drop i).zip (rangeFrom i 4)).takeWhile (fun e => e.2 < 4 && bit be e.2) |>.map Prod.fst)
    else none

/-- Whether access control refuses the HOST path the register at an address (R456, Table 19.1): by ownership or a writer rule, or because nothing
is there. What the safe state discards is not refused (R448). (DEDUCED, log 1111.) -/
def State.hostRefuses (s : State) (a : Nat) : Bool :=
  match regAt a with
  | some (row, is) =>
    !(s.is Reg.FC_STATUS_SAFE && !safeWritable row.name is) &&
      (!s.writerOk .host a row.name is || (row.name == .SRC_CFG && !s.mayConfigure .host (is.headD 0)))
  | none => (blockRows a).isNone

/-- An RWR (R293). (DEDUCED, log 53; DEDUCED, log 1111.) -/
def State.takeRwr (s : State) (w seq : Nat) (data : List Byte) (e : ReadEvent) : State :=
  let a := bits w 31 0
  let be := bits w 59 56
  if a % 4 ≠ 0 then s.akLog 6 4 0 seq
  else if a < 0x10000000 then (beRuns be data).foldl (fun s x => s.windowWrite .host (a + x.1) x.2 e) s
  else match memRegion a with
    | some r =>
      let s := if s.memWritable .host r then s else s.akLog 6 4 0 seq
      (beRuns be data).foldl (fun s x => s.memWrite .host r (a + x.1) x.2) s
    | none =>
      if be ≠ 15 && ((regAt a).isSome || (blockRows a).isSome) then s.akLog 6 4 0 seq
      else
        let s := if s.hostRefuses a then s.akLog 6 4 0 seq else s
        s.wordWrite .host a (BitVec.ofNat 32 (leNat data))

/-- The RRDs that are not answered yet: those that wait, those held before Hearth is ready, and those whose CPL is queued (R301). -/
def State.openRrds (s : State) : Nat :=
  let cpl := fun q : Pkt => match q with
    | .cpl _ _ _ _ => true
    | _ => false
  let held := fun h : Held => match h with
    | .access _ _ _ _ (some _) => true
    | _ => false
  (s.ak.inq.filter fun x => pktType x.w == 5).length + (s.hm.heldAcc.filter held).length + (s.ak.queue.filter cpl).length

/-- An RRD (R293): a refused one completes with UR and data 0; one beyond 256 outstanding is a breach (Table 11.10). (DEDUCED, log 53; DEDUCED,
log 1106; DEDUCED, log 1111.) -/
def State.takeRrd (s : State) (w seq : Nat) (e : ReadEvent) : State :=
  let a := bits w 31 0
  let tag := bits w 59 52
  let s := s.when (decide (256 ≤ s.openRrds)) fun s => s.akProtocol 2 5 1 seq
  if a % 4 ≠ 0 then s.akSend (.cpl 1 tag 0 (leBytes 4 0))
  else if a < 0x10000000 then s.windowRead .host a 4 (some tag) e
  else match s.wordRead .host a with
    | (s, some v) => s.akSend (.cpl 0 tag 0 (leBytes 4 v.toNat))
    | (s, none) => s.akSend (.cpl 1 tag 0 (leBytes 4 0))

/-- A CPL (R215, R291). -/
def State.takeCpl (s : State) (w seq : Nat) (data : List Byte) : State :=
  let tag := bits w 55 46
  match s.dma.reqs.find? fun r => r.tag == tag with
  | some r =>
    match s.cplData r (bits w 59 57) (bits w 36 25) (bit w 56) data with
    | (s, true) => s.akProtocol 5 3 2 seq
    | (s, false) => s
  | none =>
    match s.dma.held.find? fun h => h.1 == tag with
    | some h => s.count (Reg.CH_STAT_LATE_COUNT h.2) 1
    | none => (s.akLog 4 3 2 seq).fault .AK_UNEXP_CPL

/-- A packet of `size` bytes reaches the transaction layer. (DEDUCED, log 1105.) -/
def State.takePacket (s : State) (w seq : Nat) (data : List Byte) (e : ReadEvent) (skew : Bool) : State :=
  match pktType w with
  | 3 => s.takeCpl w seq (data.take (bits w 45 37))
  | 4 => s.takeRwr w seq (data.take 4) e
  | 5 => s.takeRrd w seq e
  | 7 => s.odArrive ⟨⟨busAk, idAk, true, data.take (bits w 59 51), false⟩, skew, e⟩
  | _ => s

/-- The receive buffer returns a packet uncorrectable (Table 11.11): it is discarded; a completion ends its request with an error, a register
write is logged as KIND 8. -/
def State.receiveLost (s : State) (w seq : Nat) (inj : Bool) : State :=
  let s := match pktType w with
    | 4 => s.akLog 8 4 0 seq
    | 3 => match s.dma.reqs.find? (fun (r : Req) => r.tag == bits w 55 46) with
      | some r => s.endReq r (some 1)
      | none => s
    | _ => s
  s.fault .AK_RXB_UNCORR inj

/-- Whether an RWR has not taken effect yet: its register waits on a busy commit port, or Hearth is not ready (R60, R111). -/
def State.rwrWaits (s : State) : Bool :=
  (s.orbit.heldWrites.any fun e => e.1 == some .host) || s.hm.heldAcc.any fun h => match h with
    | .access .host _ (some _) _ _ => true
    | _ => false

/-- The units of a packet are freed once it is acted on (R289). -/
def State.freeUnits (s : State) (vc n : Nat) : State :=
  if s.ak.rxInit then { s with ak := { s.ak with got := addUnits s.ak.got vc n } } else s

/-- The packets that waited behind an RWR act, in order, until one of them waits itself (R292); at most `n`. -/
def State.drainIn (s : State) : Nat → State
  | 0 => s
  | n + 1 =>
    if s.rwrWaits then s
    else match s.ak.inq with
      | [] => s
      | x :: xs =>
        ((({ s with ak := { s.ak with inq := xs } }).freeUnits (pktVc x.w) x.units).takePacket x.w x.seq x.data x.ecc x.skew).drainIn n

/-- The packets that wait are looked at again. -/
def State.drain (s : State) : State := s.drainIn s.ak.inq.length

/-- The units of a VC that packets which wait still hold. -/
def State.waitingUnits (s : State) (vc : Nat) : Nat := sumNat ((s.ak.inq.filter fun x => pktVc x.w == vc).map fun x => x.units)

/-- A whole packet: its credit is judged (R289, R301), then it acts; one of VC0 or VC1 waits behind an RWR that has not taken effect (R292). One
beyond its credit is discarded, and for RWR and RRD a fast retrain follows. `lost` tells that the receive buffer returns it uncorrectable. -/
def State.packetIn (s : State) (w size seq : Nat) (data : List Byte) (lost : Bool) (e : ReadEvent) (skew : Bool) : State :=
  if pktType w = 0 then s
  else
    let vc := pktVc w
    let n := size / 8
    let beyond := match ownCredit vc with
      | some c => s.ak.rxInit && c < (s.ak.got.getD vc 0 + creditMod - s.ak.told.getD vc 0) % creditMod + s.waitingUnits vc + n
      | none => false
    if beyond then
      let s := s.akProtocol 3 (pktType w) vc seq
      if pktType w = 4 ∨ pktType w = 5 then s.akFast else s
    else
      let (s, inj) := s.takeInj Reg.AK_INJ_RXB
      let s := s.when inj fun s => s.fault .AK_RXB_CORR true
      if lost then (s.freeUnits vc n).receiveLost w seq false
      else if vc ≤ 1 && (s.rwrWaits || !s.ak.inq.isEmpty) then
        { s with ak := { s.ak with inq := s.ak.inq ++ [⟨w, if s.ak.rxInit then n else 0, seq, data, e, skew⟩] } }
      else (s.freeUnits vc n).takePacket w seq data e skew

/-- The packets of a payload in order, at most `n`, those numbered in `rx` lost in the receive buffer; a packet that goes on in the next flit is
kept. A malformed one takes the rest of its flit with it (R290). -/
def State.takePackets (s : State) (seq : Nat) (rx : List Nat) (e : ReadEvent) (skew : Bool) : Nat → List Byte → State
  | 0, _ => s
  | n + 1, buf =>
    if !s.emb.main || s.get Reg.AK_STATUS_STATE == 0 then s
    else if buf.length < 8 then { s with ak := { s.ak with part := [] } }
    else
      let w := flitWord buf 0
      let (s, inj) := s.takeInj Reg.AK_INJ_PROTO
      match (if inj then none else pktIn w) with
      | none => ({ s with ak := { s.ak with part := [] } }).akProtocol 2 (pktType w) (pktVc w) seq inj
      | some size =>
        if buf.length < size then { s with ak := { s.ak with part := buf } }
        else (s.packetIn w size seq ((buf.take size).drop 8) (rx.contains (95 - n)) e skew).takePackets seq rx e skew n (buf.drop size)

/-- A delivered PAYLOAD flit: a packet that spans flits goes on at byte 0, otherwise the first packet begins at FPS. (DEDUCED, log 1109.) -/
def State.payloadIn (s : State) (fps seq : Nat) (p : List Byte) (rx : List Nat) (e : ReadEvent) (skew : Bool) : State :=
  let s := { s with ak := { s.ak with idleSent := false } }
  let buf := if s.ak.part.isEmpty then (if fps < 30 then p.drop (8 * fps) else []) else s.ak.part ++ p
  s.takePackets seq rx e skew 96 buf

/-! ### A flit arrives (R284–R288) -/

/-- A flit that passes its CRC. -/
def State.flitPasses (s : State) (bs : List Byte) (rx : List Nat) (e : ReadEvent) (skew : Bool) : State :=
  let h := flitWord bs 0
  let t := flitWord bs 248
  let seq := bits t 31 20
  let s := (s.takeCredit (bits h 51 50) (bits h 49 36)).takeCredit (bits h 35 34) (bits h 33 20)
  let s := s.takeAck (bits t 19 8)
  let s := s.when (bit t 7) State.takeNak
  let kind := bits h 63 60
  if 2 < kind ∨ bits h 53 52 ≠ 0 ∨ bits h 19 0 ≠ 0 ∨ bits t 6 0 ≠ 0 then s.akProtocol 1 0 0 seq
  else if seq ≠ s.get Reg.AK_SEQ_RX_EXPECT then s
  else if kind = 0 then { s with ak := { s.ak with failed := none, nak := false, failStage := 0 } }
  else
    let s := (s.flitArrived bs).put Reg.AK_SEQ_RX_EXPECT ((seq + 1) % 4096)
    let s := { s with ak := { s.ak with ackDue := true } }
    let p := (bs.drop 8).take 240
    if kind = 2 then s.linkCommand p seq else s.payloadIn (bits h 58 54) seq p rx e skew

/-- The CRC field of a flit inverted (Table 11.11). -/
def invertCrc (bs : List Byte) : List Byte := bs.take 252 ++ (bs.drop 252).map fun b => ~~~b

/-- An inbound flit. `viol` lists the lanes on which a sync violation was seen in its blocks, `rx` the packets that the receive buffer loses.
(DEDUCED, log 1106.) -/
def State.flitIn (s : State) (bs : List Byte) (viol rx : List Nat) (e : ReadEvent) (skew : Bool) : State :=
  if !s.akLinked || bs.length != 256 then s
  else
    let s := s.drain
    let pos := s.ak.flits
    let s := { s with ak := { s.ak with flits := pos + 1 } }
    let s := forAll (viol.filter fun l => s.inMap.contains l) (fun l s => s.laneError l false) s
    let l := s.get Reg.AK_INJ_LANE
    let s := if s.is Reg.AK_INJ_SYNC && s.inMap.contains l then (s.put Reg.AK_INJ_SYNC 0).laneError l true else s
    let (s, inj) := s.takeInj Reg.AK_INJ_CRC
    let bs := if inj then invertCrc bs else bs
    if flitCrc bs = bits (flitWord bs 248) 63 32 then s.flitPasses bs rx e skew else s.flitFails pos bs inj

/-- AK_FLIT_RECEIVE (R286). -/
def execAkFlitReceive (bs : List Byte) (viol rx : List Nat) (e : ReadEvent) (skew : Bool) (s : State) : Host.Outcome State Fault Refusal :=
  done (s.fresh.flitIn bs viol rx e skew)

/-! ### Outbound packets (R289–R292) -/

/-- A packet as its bytes, padded to a multiple of 8 (Table 11.9). -/
def Pkt.bytes (x : Pkt) : List Byte :=
  let pad := fun (bs : List Byte) => padTo bs (pad8 bs.length)
  match x with
  | .mrd tag host len => leBytes 8 (1 * 2 ^ 60 + tag * 2 ^ 50 + len * 2 ^ 37) ++ leBytes 8 host
  | .mwr host bs _ => leBytes 8 (2 * 2 ^ 60 + bs.length * 2 ^ 51) ++ leBytes 8 host ++ pad bs
  | .cpl st tag off bs => leBytes 8 (3 * 2 ^ 60 + st * 2 ^ 57 + 2 ^ 56 + tag * 2 ^ 46 + bs.length * 2 ^ 37 + off * 2 ^ 25) ++ pad bs
  | .msg q bs => leBytes 8 (6 * 2 ^ 60 + (q % 4) * 2 ^ 58) ++ pad bs
  | .mgt bs => leBytes 8 (7 * 2 ^ 60 + bs.length * 2 ^ 51) ++ pad bs

/-- The virtual channel of an outbound packet (Table 11.8). -/
def Pkt.vc (x : Pkt) : Nat :=
  match x with
  | .mwr _ _ _ | .msg _ _ => 0
  | .mrd _ _ _ => 1
  | .cpl _ _ _ _ => 2
  | .mgt _ => 3

/-- The credits that the adapter advertised on a VC. -/
def State.farCredit (s : State) (vc : Nat) : Nat :=
  match vc with
  | 0 => s.get Reg.AK_CRED_0_VC0
  | 1 => s.get Reg.AK_CRED_0_VC1
  | 2 => s.get Reg.AK_CRED_1_VC2
  | _ => s.get Reg.AK_CRED_1_VC3

/-- Whether `n` units may be sent on a VC (R289). (DEDUCED, log 1105.) -/
def State.hasCredit (s : State) (vc n : Nat) : Bool :=
  s.farCredit vc == 0xFFFF || (s.ak.sent.getD vc 0 + creditMod - s.ak.freed.getD vc 0) % creditMod + n ≤ s.farCredit vc

/-- The first packet of a queue that may be sent, and the others (R292): in order on its VC, a CPL behind every earlier MWR.
(DEDUCED, log 1109; DEDUCED, log 1110.) -/
def State.pickPacket (s : State) (blocked : List Nat) : List Pkt → Option (Pkt × List Pkt)
  | [] => none
  | x :: xs =>
    if !blocked.contains x.vc && s.hasCredit x.vc (x.bytes.length / 8) then some (x, xs)
    else
      let more := if x.vc = 0 then [0, 2] else [x.vc]
      match s.pickPacket (more ++ blocked) xs with
      | some (y, ys) => some (y, x :: ys)
      | none => none

/-- The state of a payload that is filled. -/
structure Filling where
  s : State
  buf : List Byte
  pkts : List Pkt
  deriving DecidableEq, Repr

/-- Fills a payload with packets, at most `n`; what does not fit goes on in the next flit. -/
def Filling.add (x : Filling) : Nat → Filling
  | 0 => x
  | n + 1 =>
    if 240 ≤ x.buf.length then x
    else match x.s.pickPacket [] x.s.ak.queue with
      | none => x
      | some (p, q) =>
        let bs := p.bytes
        let s := { x.s with ak := { x.s.ak with queue := q, sent := addUnits x.s.ak.sent p.vc (bs.length / 8) } }
        let all := x.buf ++ bs
        if 240 < all.length then
          ⟨{ s with ak := { s.ak with rest := all.drop 240, restPkt := some p } }, all.take 240, x.pkts⟩
        else Filling.add ⟨s, all, x.pkts ++ [p]⟩ n

/-- The next PAYLOAD flit, if there is something to send: FPS, payload and the packets that it completes. -/
def State.nextPayload (s : State) : Option (State × Nat × List Byte × List Pkt) :=
  let rest := s.ak.rest
  if rest.isEmpty && (s.pickPacket [] s.ak.queue).isNone then none
  else if 240 < rest.length then
    some ({ s with ak := { s.ak with rest := rest.drop 240 } }, 31, rest.take 240, [])
  else
    let done := s.ak.restPkt.toList
    let x := Filling.add ⟨{ s with ak := { s.ak with rest := [], restPkt := none } }, rest, done⟩ 31
    some (x.s, if rest.length = 240 then 31 else rest.length / 8, padTo x.buf 240, x.pkts)

/-! ### A flit leaves (R283–R285) -/

/-- Sends flit `i` of the replay buffer again. -/
def State.emitReplay (s : State) (i : Nat) : State :=
  match s.ak.unacked[i]? with
  | none => ({ s with ak := { s.ak with replayAt := none } }).emitIdle
  | some f =>
    let (s, inj) := s.takeInj Reg.AK_INJ_RB
    let s := s.when inj fun s => s.fault .AK_RB_CORR true
    let next := if i + 1 < s.ak.unacked.length then some (i + 1) else none
    ({ s with ak := { s.ak with replayAt := next } }).emitFlit f.kind f.fps f.seq f.payload

/-- A receiver asks for an equaliser step of an inbound lane: at most one request per lane every 10 µs (R281). -/
def State.askEq (s : State) (q : EqAsk) : State :=
  let late := match s.ak.eqReqs.find? fun r => r.lane == q.lane with
    | some r => r.at_ + 10000 ≤ s.now
    | none => true
  if !s.inMap.contains q.lane || (q.tap != 1 && q.tap != 2) || !late then s
  else
    let num := s.ak.eqNext % 256
    let r : EqReq := ⟨num, q.lane, q.tap, q.up, s.now, true⟩
    let s := { s with ak := { s.ak with eqNext := (num + 1) % 256, eqReqs := r :: s.ak.eqReqs.filter fun x => x.lane != q.lane } }
    s.akLink [2#8, BitVec.ofNat 8 q.lane, BitVec.ofNat 8 q.tap, if q.up then 1#8 else 255#8, BitVec.ofNat 8 num]

/-- Whether INIT waits: it is the first flit of ACTIVE, whatever the replay buffer holds (R283). -/
def State.initWaits (s : State) : Bool := s.ak.links.head? == some initPayload

/-- The replay that may go on: a flit that carries packets waits for the adapter's INIT (R283). (DEDUCED, log 1115.) -/
def State.replayNow (s : State) : Option Nat :=
  if s.initWaits then none
  else match s.ak.replayAt with
    | none => none
    | some i => if s.ak.rxInit || (s.ak.unacked[i]?.map fun f => f.kind) != some 1 then some i else none

/-- The next outbound flit: INIT on entry to ACTIVE; a replay; the IDLE flits that end an idle exchange; IDLE while the replay buffer is full; LINK;
PAYLOAD; IDLE. While a replay waits nothing new is sent ahead of it. -/
def State.flitOut (s : State) (eq : Option EqAsk) : State :=
  if s.get Reg.AK_STATUS_STATE ≠ 6 then s
  else
    let s := s.drain
    let s := match eq with
      | some q => s.askEq q
      | none => s
    match s.replayNow, s.ak.idleLeft, s.ak.links with
    | some i, _, _ => s.emitReplay i
    | none, n + 1, _ =>
      let s := ({ s with ak := { s.ak with idleLeft := n } }).emitIdle
      if n = 0 then s.akEnter 7 else s
    | none, 0, links =>
      if (replayBuffer ≤ s.ak.unacked.length || s.ak.replayAt.isSome) && !s.initWaits then s.emitIdle
      else match links with
        | p :: ps => ({ s with ak := { s.ak with links := ps } }).emitNew 2 31 p []
        | [] =>
          if !s.ak.rxInit || s.ak.idleSent then s.emitIdle
          else match s.nextPayload with
            | some (s, fps, p, pkts) => s.emitNew 1 fps p pkts
            | none => s.emitIdle

/-- AK_FLIT_SEND (R285). -/
def execAkFlitSend (eq : Option EqAsk) (s : State) : Host.Outcome State Fault Refusal := done (s.fresh.flitOut eq)

/-! ### Timeouts and idle (R286, R287, R296, R297) -/

/-- REPLAY_TO expires: on an awaited inbound number NAK is sent again; on the oldest unacknowledged flit a replay begins. -/
def State.replayTimeout (s : State) (rx : Bool) : State :=
  if !s.akLinked then s
  else if rx then (if s.ak.failed.isSome then { s with ak := { s.ak with nak := true } } else s)
  else if s.ak.unacked.isEmpty || s.ak.replayAt.isSome then s
  else { s with ak := { s.ak with replayAt := some 0, unacked := wantReplay s.ak.unacked } }

/-- REPLAY_TIMEOUT (R287). -/
def execReplayTimeout (rx : Bool) (s : State) : Host.Outcome State Fault Refusal := done (s.fresh.replayTimeout rx)

/-- Whether the conditions of R296 hold. (DEDUCED, log 1109.) -/
def State.idleDue (s : State) : Bool :=
  s.is Reg.AK_CTRL_IDLE_EN && s.get Reg.AK_STATUS_STATE == 6 && s.ak.rxInit && s.dma.reqs.isEmpty && s.nextChan.isNone &&
    s.ak.queue.isEmpty && s.ak.links.isEmpty && s.ak.rest.isEmpty && s.ak.unacked.isEmpty && s.ak.part.isEmpty && s.ak.failed.isNone &&
    !s.ak.ackDue && !s.ak.idleSent && s.ak.idleLeft == 0

/-- AK_IDLE_REQUEST (R296): IDLE_ENTER. -/
def execAkIdleRequest (s : State) : Host.Outcome State Fault Refusal :=
  let s := s.fresh
  done (if s.idleDue then ({ s with ak := { s.ak with idleSent := true } }).akLink [4#8] else s)

/-- AK_IDLE_EXIT (R297): 128 TS blocks with STATE START on every lane; the block numbering of R278 restarts at 0. -/
def execAkIdleExit (s : State) : Host.Outcome State Fault Refusal :=
  let s := s.fresh
  done (if s.get Reg.AK_STATUS_STATE = 7 then (({ s with ak := { s.ak with flits := 0 } }).akStart 128).setAkState 6 else s)

end Sys2Proof.Machine
end

