-- ==== Sys2Proof/Machine/Kindling.lean ====
section
/-! DEFINITION. Kindling (chapter 17): the boot from flash or from the Kindling image, the configuration list with its directives, and
completion. -/
namespace Sys2Proof.Machine

/-! ### Sources of a package (R420–R422) -/

/-- The size of a flash slot. (DEDUCED, log 1701.) -/
def slotBytes : Nat := 0x1000000

/-- Reads the package in flash slot `i` (0 A, 1 B). -/
def State.flashRead (s : State) (i off n : Nat) : List Byte := loadBytes s.flash.cells (i * slotBytes + off) n

/-- The bytes of the Kindling image in buffer `h`. -/
def State.imageRead (s : State) (h off n : Nat) : List Byte := s.planeBytes h 0 off n

/-- Where item `t` of a package with header `hd` stands in a Kindling image: items 1 to 4 follow the header in order (R422). -/
def imageOffset (hd : List Byte) (t : Nat) : Nat :=
  hd.length + sumNat ((rangeFrom 1 (t - 1)).map fun u => match headerFind hd u with
    | some (_, n, _, _) => n
    | none => 0)

/-- The buffer of the Kindling image that the boot ROM may use (R422): EMB_SCRATCH_0 names it, the handle table was restored, and it is
SEALED. -/
def State.kindlingImage (s : State) : Option Nat :=
  let w := s.get (Reg.EMB_SCRATCH_DATA 0)
  let h := w % 1024
  if (s.kin.cause == 1 || s.kin.cause == 3) && bit w 31 && s.hmReady && (s.handle h).st == .sealed then some h else none

/-- Whether the image passes: the header and the hashes of items 1 to 4 (R422, R467). (DEDUCED, log 1701.) -/
def State.imageOk (s : State) (h : Nat) : Bool :=
  let hd := readHeader (s.imageRead h)
  headerLayout hd slotBytes && headerSigned hd && s.get Reg.SEC_STATUS_ROLLBACK ≤ headerVersion hd &&
    [1, 2, 3, 4].all fun t => match headerFind hd t with
      | some (_, n, _, i) => sha256 (s.imageRead h (imageOffset hd t) n) == itemHash hd i
      | none => false

/-- Item `t` of a header goes from a source into service SRAM. (DEDUCED, log 1702.) -/
def State.loadItem (s : State) (hd : List Byte) (t : Nat) (rd : Nat → Nat → List Byte) (off : Option Nat) : State :=
  match headerFind hd t with
  | some (o, n, d, _) => s.sramStore d (rd (off.getD o) n)
  | none => s

/-! ### Ends -/

/-- Kindling stops with PHASE FAILED (R420, R424). (DEDUCED, log 1703.) -/
def State.kinFail (s : State) : State := { s with kin := { s.kin with phase := 5, ended := true, wait := .none } }

/-- A first read that failed and passed when it was repeated (R420). (DEDUCED, log 1702.) -/
def State.flashRetry (s : State) (bad : List Nat) (ts : List Nat) : State :=
  s.when (ts.any fun t => bad.contains t) fun s => s.fault .KIN_FLASH_RETRY

/-! ### Boot (R418, R420, R422) -/

/-- A stored network setting takes effect (R371, R465). -/
def State.useSetting (s : State) (key v : Nat) : State :=
  match key with
  | 1 => s.put Reg.OD_CTRL_NODE v
  | 2 => s.put Reg.OD_CTRL_ID29 v
  | 3 => s.put Reg.OD_ID29_BASE v
  | 4 => s.put Reg.OD_ID_STATE_ID v
  | 5 => s.put Reg.OD_ID_PROOF_ID v
  | 6 => s.put Reg.OD_CTRL_CLASSIC_READ v
  | 49 => s.put Reg.OD_AUTH_CFG_SLOT_S0 v
  | 50 => s.put Reg.OD_AUTH_CFG_SLOT_S1 v
  | 51 => s.put Reg.OD_AUTH_CFG_SLOT_S2 v
  | 52 => s.put Reg.OD_AUTH_CFG_SLOT_TX v
  | _ =>
    let a := 0x20C00100 + 0x40 * (key / 16 - 1) + 4 * (key % 16 - 1)
    match regAt a with
    | some (row, _) => s.storeRow a row v
    | none => s

/-- The list begins: the stored settings take effect (R371, R424). -/
def State.beginList (s : State) : State :=
  let s := s.flash.net.foldl (fun s (e : Nat × Option Nat) => match e.2 with
    | some v => s.useSetting e.1 v
    | none => s) s
  { s with flash := { s.flash with netPending := false, mapPending := false }, kin := { s.kin with phase := 1, pos := 0, wait := .none } }

/-- The package of a flash slot is in use: item 1 is loaded by the boot ROM and item 2 by the safety pair, which checks it. -/
def State.bootSlot (s : State) (i : Nat) (bad : List Nat) : State :=
  let hd := readHeader (s.flashRead i)
  let s := (s.flashRetry bad [0, 1]).loadItem hd 1 (s.flashRead i) none
  let s := { s with kin := { s.kin with header := hd, source := i } }
  if itemMatches (s.flashRead i) hd 2 then ((s.flashRetry bad [2]).loadItem hd 2 (s.flashRead i) none).beginList else s.kinFail

/-- The boot (R420, R422): the Kindling image where it serves, else slot A, else slot B, else recovery (R468). (DEDUCED, log 1703.) -/
def State.boot (s : State) (bad : List Nat) : State :=
  let fromFlash := fun s : State =>
    let roll := s.get Reg.SEC_STATUS_ROLLBACK
    if packageCheck (s.flashRead 0) slotBytes roll = 1 then s.bootSlot 0 bad
    else if packageCheck (s.flashRead 1) slotBytes roll = 1 then s.bootSlot 1 bad
    else s.kinFail.put Reg.SEC_RECOVER_ACTIVE 1
  match s.kindlingImage with
  | none => fromFlash s
  | some h =>
    if !s.imageOk h then fromFlash s
    else
      let hd := readHeader (s.imageRead h)
      let rd := s.imageRead h
      let s := [1, 2, 3, 4].foldl (fun s t => s.loadItem hd t rd (some (imageOffset hd t))) s
      let s := { s with kin := { s.kin with header := hd, source := 2 } }
      (s.freeHandle 2 h).1.beginList

/-! ### The list (R424) -/

/-- The word of entry `i` of the list: 0 ADDR, 1 VALUE. -/
def State.kinWord (s : State) (i j : Nat) : Nat := s.sramWord (0x10C00000 + 8 * i + 4 * j)

/-- The number of entries of item 2. -/
def State.kinCount (s : State) : Nat :=
  match headerFind s.kin.header 2 with
  | some (_, n, _, _) => n / 8
  | none => 0

/-- The list goes on with a later entry. (DEDUCED, log 1706.) -/
def State.kinNext (s : State) (n : Nat) : State := { s with kin := { s.kin with pos := s.kin.pos + n, wait := .none } }

/-- The list waits. (DEDUCED, log 1706.) -/
def State.kinWait (s : State) (w : KinWait) : State := { s with kin := { s.kin with wait := w } }

/-- The slot that holds the package in use: the one booted from, or after a Kindling image the one with the same header. -/
def State.packageSlot (s : State) : Nat :=
  if s.kin.source < 2 then s.kin.source else if readHeader (s.flashRead 0) == s.kin.header then 0 else 1

/-- No Beacon entry is enabled after item 3 failed; the pipes that the enabled entries name are not started (R428). (DEDUCED, log 1705.) -/
def State.barBeacon (s : State) : State :=
  let on := allEntries.filter fun e => s.is (Reg.BE_CFG_EN e)
  let s := { s with kin := { s.kin with barred := s.kin.barred ++ on.map fun e => s.get (Reg.BE_CFG_PIPE e) } }
  forAll on (fun e s => s.put (Reg.BE_CFG_EN e) 0) s

/-- ASSETS: items 3 and 4 from flash, unless they came from the Kindling image; a lasting failure is KIN_ASSET (R428). -/
def State.kinAssets (s : State) (bad : List Nat) : State :=
  if s.kin.source = 2 then s
  else
    let rd := s.flashRead s.kin.source
    let hd := s.kin.header
    let ok3 := itemMatches rd hd 3
    let ok4 := itemMatches rd hd 4
    let s := if ok3 then (s.flashRetry bad [3]).loadItem hd 3 rd none
      else (({ s with kin := { s.kin with bad3 := true } }).fault .KIN_ASSET).barBeacon
    if ok4 then (s.flashRetry bad [4]).loadItem hd 4 rd none
    else ({ s with kin := { s.kin with bad4 := true } }).fault .KIN_ASSET

/-- ALLOC: a handle through port 2. A buffer that the restore kept under the same handle with the same planes serves as it is (R423).
(DEDUCED, log 1704.) -/
def State.kinAlloc (s : State) (h : Nat) (sizes : List Nat) : State :=
  let x := s.handle h
  let s := { s with kin := { s.kin with allocs := s.kin.allocs ++ [(h, sizes)] } }
  if x.alloc && x.owner == ownFirmware && x.sizes == sizes then s.kinNext 4
  else
    let (t, code) := s.allocHandle 2 h sizes
    if code = hpOK then t.kinNext 4 else s.kinFail

/-- DRAW: one redraw into a buffer that is not SEALED yet. (DEDUCED, log 1704.) -/
def State.kinDraw (s : State) (h : Nat) : State :=
  if s.kin.bad4 || (s.handle h).st == .sealed then s.kinNext 1
  else if !(s.handle h).alloc || s.bc.redraw.isSome then s.kinFail
  else (s.clusterDraw h s.clusterPipe (s.get Reg.CLU_TARGET_SLOT) []).kinWait (.draw h)

/-- START: GO of port 2. After item 3 failed the pipes of Beacon entries are left out (R428). -/
def State.kinStart (s : State) : State :=
  let ps := s.get (Reg.CP_PIPES_PIPES 2)
  let keep := (maskBits 12 ps).filter fun p => !s.kin.barred.contains p
  let s := { s with kin := { s.kin with phase := 3 } }
  if keep.isEmpty && ps != 0 then s.kinNext 1
  else if s.is (Reg.CP_RESULT_BUSY 2) then s
  else match regAt (Reg.a_CP_CTRL 2) with
    | some (row, _) =>
      let s := s.put (Reg.CP_PIPES_PIPES 2) (sumNat (keep.map fun p => 2 ^ p))
      (s.writeCpCtrl 2 row ((s.reg (Reg.a_CP_CTRL 2)).toNat % 16 ||| 1)).kinWait .start
    | none => s

/-- Whether an entry may not be addressed by the list: the AKNUM, CLOCK and SECURITY blocks (R424). (DEDUCED, log 1705.) -/
def kinBarred (a : Nat) : Bool :=
  (0x20500000 ≤ a && a < 0x20520000) || (0x20700000 ≤ a && a < 0x20710000) || (0x20D00000 ≤ a && a < 0x20D10000)

/-- One entry of the list. (DEDUCED, log 1704.) -/
def State.kinEntry (s : State) (bad : List Nat) : State :=
  let i := s.kin.pos
  let v := s.kinWord i 1
  if s.kinCount ≤ i then { s with kin := { s.kin with ended := true } }
  else match s.kinWord i 0 with
    | 0 => { s with kin := { s.kin with ended := true } }
    | 1 => if s.hmReady then s.kinAlloc (v % 1024) (allocSizes (s.kinWord (i + 1) 1) (s.kinWord (i + 2) 1) (s.kinWord (i + 3) 1)) else s
    | 2 => (({ s with kin := { s.kin with phase := max s.kin.phase 2 } }).kinAssets bad).kinNext 1
    | 3 =>
      let s := s.beaconApply
      if s.get Reg.BC_STATUS_APPLY_RESULT ≠ 0 then s.kinFail else if s.bc.applyPipes.isEmpty then s.kinNext 1 else s.kinWait .apply
    | 4 => if s.hmReady then s.kinDraw (v % 1024) else s
    | 5 => s.kinStart
    | 6 =>
      let (t, r) := s.assignUnit (v % 32) (bits v 9 8)
      if v % 32 < 17 ∧ r = ownDone then t.kinNext 1 else s.kinFail
    | a =>
      if a < 0x100 || kinBarred a then s.kinFail
      else
        let s := s.wordWrite .sp a (BitVec.ofNat 32 v)
        (s.when s.kin.bad3 State.barBeacon).kinNext 1

/-- What the list waits for is looked at. -/
def State.kinCheck (s : State) (bad : List Nat) : State :=
  match s.kin.wait with
  | .none => s.kinEntry bad
  | .apply => if s.bc.applyPipes.isEmpty then s.kinNext 1 else s
  | .draw h =>
    if (s.handle h).st = .sealed then s.kinNext 1 else if s.bc.redraw.isSome then s else s.kinFail
  | .start =>
    if s.is (Reg.CP_RESULT_BUSY 2) then s
    else if s.get (Reg.CP_RESULT_CODE 2) ≠ 0 then s.kinFail
    else
      let ps := (maskBits 12 (s.get (Reg.CP_PIPES_PIPES 2))).filter fun p => s.mode p != .stopped && !s.kin.pipes.contains p
      ({ s with kin := { s.kin with pipes := s.kin.pipes ++ ps } }).kinNext 1

/-- A step of Kindling: the boot, one entry, or a look at what the list waits for. `bad` lists the items (0 the header) whose first read from
flash failed and whose second did not. (DEDUCED, log 18.) -/
def State.kinStep (s : State) (bad : List Nat) : State :=
  if !s.emb.main || s.kin.halted || s.is Reg.FC_STATUS_PAIR_HELD || s.kin.ended then s
  else if s.kin.phase = 0 then s.boot bad
  else s.kinCheck bad

/-- KINDLING_CONFIG (R424). -/
def execKindlingConfig (bad : List Nat) (s : State) : Host.Outcome State Fault Refusal := done (s.fresh.kinStep bad)

/-! ### Completion (R427, R429, R430, R433, R467) -/

/-- Item 5 (R430, R466): verified firmware releases MC2 and MC3. (DEDUCED, log 1707.) -/
def State.serviceCores (s : State) : State :=
  match headerFind s.kin.header 5 with
  | none => s
  | some (o, n, d, _) =>
    let bs := s.flashRead s.packageSlot o n
    if !s.item5Ok bs then s.fault .KIN_ASSET
    else
      let s := s.sramStore d bs
      let s := (s.setTgt 2 { s.tgt 2 with held := false }).setTgt 3 { s.tgt 3 with held := false }
      { s with fc := { s.fc with heldMc2 := false, heldMc3 := false } }

/-- The safe state that a warm Kindling kept ends with the first frame (R427, R433). (DEDUCED, log 1708.) -/
def State.endSafe (s : State) : State :=
  if s.kin.cause = 3 && s.is Reg.FC_STATUS_SAFE then
    forAll allPipes (fun p s => s.portSafeEnd p 1) ((s.put Reg.FC_STATUS_SAFE 0).put Reg.AK_STATUS_FATAL_TX 0)
  else s

/-- Kindling is done (R429): the list has ended and every pipe that it started counts frames. -/
def State.kinDone (s : State) : State :=
  if !s.emb.main || s.kin.halted || s.is Reg.FC_STATUS_PAIR_HELD || !s.kin.ended || s.kin.phase == 0 || 4 ≤ s.kin.phase ||
      s.kin.pipes.any (fun p => !s.counting p) then s
  else
    let time := (s.emberTimer + 2 ^ 32 - s.kin.startTick) % 2 ^ 32
    let loss := s.kin.pgoodLoss
    let s := ({ s with kin := { s.kin with phase := 4, time, pgoodLoss := false } }).endSafe
    let s := s.when loss fun s => s.pwrFault .PWR_PGOOD_LOSS 7
    let v := min 64 (headerVersion s.kin.header)
    let s := s.when (s.get Reg.SEC_STATUS_ROLLBACK < v) fun s => s.put Reg.SEC_STATUS_ROLLBACK v
    s.serviceCores.faultLines

/-- KINDLING_DONE (R429). -/
def execKindlingDone (s : State) : Host.Outcome State Fault Refusal := done s.fresh.kinDone

end Sys2Proof.Machine
end

