-- ==== Sys2Proof/Machine/Reports.lean ====
section
/-! DEFINITION. A checker reports a fault (R437). The outcome that the row names for its own unit (a fence, a discarded packet, a held core, the
fields that record the fault) is applied here, at the place that the operands name. -/
namespace Sys2Proof.Machine

/-- The packet that flit `i` of the replay buffer begins and a later flit, or the next one to be sent, completes. -/
def State.spanning (s : State) (i : Nat) : Option Pkt :=
  let later := s.ak.unacked.drop (i + 1)
  match later with
  | [] => s.ak.restPkt
  | f :: _ => if f.fps = 0 then none else (later.flatMap (fun g => g.pkts) ++ s.ak.restPkt.toList).head?

/-- The DMA channel whose TO_HOST data a packet carries. -/
def Pkt.owner (x : Pkt) : Option Nat :=
  match x with
  | .mwr _ _ own => own
  | _ => none

/-- A word of flit `i` of the replay buffer is uncorrectable (Table 11.11): the flit is lost, every TO_HOST descriptor with data in it fails
its attempt with cause 1, and a full training follows. It is logged as KIND 7. -/
def State.replayLost (s : State) (i : Nat) (inj : Bool) : State :=
  match s.ak.unacked[i]? with
  | none => s.akFull.fault .AK_RB_UNCORR inj
  | some f =>
    let lost := f.pkts ++ (s.spanning i).toList
    let s := (lost.filterMap Pkt.owner).eraseDups.foldl (fun s c => s.failAttempt c 1) s
    let s := s.akLog 7 0 0 f.seq
    let unacked := s.ak.unacked.map fun g => { g with pkts := g.pkts.filter fun x => !lost.contains x }
    let restPkt := s.ak.restPkt.filter fun x => !lost.contains x
    ({ s with ak := { s.ak with unacked, restPkt } }).akFull.fault .AK_RB_UNCORR inj

/-- A word of a packet that waits in the receive buffer is uncorrectable (Table 11.11, R292): the `i`-th such packet is discarded. -/
def State.waitingLost (s : State) (i : Nat) : State :=
  match s.ak.inq[i]? with
  | none => s.fault .AK_RXB_UNCORR
  | some x => (({ s with ak := { s.ak with inq := s.ak.inq.eraseIdx i } }).freeUnits (pktVc x.w) x.units).receiveLost x.w x.seq false

/-- Whether PLL `i` serves a pipe that runs, which a failure of the PLL then stops (R338). -/
def State.pixRuns (s : State) (i : Nat) : Bool := i < 12 && s.mode i != .stopped

/-- The outcome of a clock row for PLL `i` (Table 13.3). -/
def State.clkReport (s : State) (f : FaultId) (i : Nat) : State :=
  match f with
  | .CLK_PIX_FAIL => if s.pixRuns i then s.pixFail i f 2 false else s.clkFault f 2 i false
  | .CLK_GUARD_PIX => if s.pixRuns i then s.pixFail i f 3 false else s.clkFault f 3 i false
  | .CLK_CG_RELOCK => s.retrainPorts false
  | .CLK_CG_FAIL => s.clkFault f 5 14 false
  | .CLK_CORE_LOSS => s.clkFault f 6 12 false
  | .CLK_HM_LOSS => s.clkFault f 7 13 false
  | .CLK_GUARD_INT => s.clkFault f 8 i false
  | .CLK_REF_LOSS => if s.clk.refLost then s.clkFault f 9 0 false else s.refLoss
  | _ => s.clkFault f 1 i false

/-- The outcome of a Cagan row for port `p` (Table 12.8). -/
def State.portReport (s : State) (f : FaultId) (p : Nat) : State :=
  if 12 ≤ p then s.fault f
  else match f with
    | .CG_LINK_DOWN => s.cgLinkDown p false
    | .CG_LINE_THR => (s.fault f).cgRetrain p false
    | .CG_BC_LOSS => (s.fault f).cgRetrain p false
    | .CG_BC_CRC => s.bcBad p false
    | .CG_CAPS_MISMATCH => if s.get (Reg.CG_STATUS_STATE p) = 2 then (s.put (Reg.CG_STATUS_CAPS_BAD p) 1).faultHeld f else s.fault f
    | .CG_FIFO_UNCORR => (s.setPort p { s.port p with badLine := true }).fault f
    | _ => s.fault f

/-- The outcome of an Aknum row (Table 11.11): `u` is the lane, the flit of the replay buffer, the packet of the receive buffer, or the KIND of a
protocol error, whose packet type and VC are `v` and `w`. -/
def State.akReport (s : State) (f : FaultId) (u v w : Nat) : State :=
  match f with
  | .AK_REPLAY => s.replayed false
  | .AK_REPLAY_FAIL => if s.akLinked then s.replayFailed false false else s.fault f
  | .AK_LANE_FENCE => if u < 20 ∧ s.laneFenced u = false then s.dropLane u false else s.fault f
  | .AK_PROTOCOL => s.akProtocol u v w 0
  | .AK_RB_UNCORR => s.replayLost u false
  | .AK_RXB_UNCORR => s.waitingLost u
  | .AK_CLK_LOSS => if s.get Reg.AK_STATUS_STATE = 0 || !s.is Reg.AK_STATUS_INCK_LOCK then s.fault f else s.clkLoss false
  | .AK_LINK_DOWN => s.linkDown
  | _ => s.fault f

/-- The outcome of a row of the object dictionary and of CAN (Table 15.13): `u` is the bus, or the index of an object. -/
def State.odReport (s : State) (f : FaultId) (u v : Nat) : State :=
  match f with
  | .OD_XFER_RETRY => s.odFault f 1 u
  | .OD_XFER => s.odFault f 2 u
  | .CAN_BUSOFF_RETRY => s.odFault f 3 u
  | .CAN_BUSOFF => s.odFault f 4 u
  | .CAN_RAM_CORR => s.odFault f 5 u
  | .CAN_RAM_UNCORR => s.odFault f 6 u
  | .MGMT_DATA_SKEW => (s.count Reg.OD_SKEW_COUNT 1).odFault f 7 u
  | .OD_STORE_PAR =>
    let s := if s.od.badObjs.contains u then s else { s with od := { s.od with badObjs := u :: s.od.badObjs } }
    s.odFault f 8 v
  | _ => s.fault f

/-- A report of checker `f`. `u`, `v` and `w` name the place: the unit, and within it the part. (DEDUCED, log 1801.) -/
def State.report (s : State) (f : FaultId) (u v w : Nat) : State :=
  match f with
  | .SVC_SRAM_UNCORR => if u = 2 ∨ u = 3 then s.sramUncorr 1 u false else s.sramUncorr 2 0 false
  | .SC_WDT => if u = 2 ∨ u = 3 then s.scExpire u false else s.fault f
  | .HM_CH_FENCE => if u < 8 then s.fenceChannel u false false else s.fault f
  | .HM_CH_CTRL => if u < 8 then s.fenceChannel u true false else s.fault f
  | .PIPE_EMIT_LATE => (s.when (u < 12) fun s => (s.put (Reg.TG_STATUS_EMIT_LATE u) 1).count (Reg.TG_STATUS_LATE_LINES u) 1).fault f
  | .PIPE_CL_PARITY => if u < 12 ∧ v < 3 then s.colourFault u v false else s.fault f
  | .SC_LB_UNCORR => if u < 12 ∧ v < 8 then s.lineBufferFault u v (w % 65536) (w / 65536) false else s.fault f
  | .BEACON_GLYPH => (s.when (u < 64) fun s => (s.put (Reg.TT_STATE_GLYPH_BAD u) 1).put (Reg.TT_STATE_PROOF u) 2).fault f
  | .BEACON_E2E => if u < 4 ∧ v < 12 then s.e2eFailed u v false else s.fault f
  | .DEC_CACHE_REREAD => s.decFault f 1 u false
  | .DEC_CACHE_CORR => s.decFault f 2 u false
  | .DEC_HASH => s.decFault f 3 u false
  | .DEC_TIMEOUT_RETRY => s.decFault f 4 u false
  | .DEC_TIMEOUT => s.decFence.decFault f 5 u false
  | .DEC_STATE_PAR => s.decFence.decFault f 6 u false
  | .ENC_SRAM_CORR => s.encFault f 1 u false
  | .ENC_SRAM_REREAD => s.encFault f 2 u false
  | .ENC_TIMEOUT_RETRY => s.encFault f 3 u false
  | .ENC_TIMEOUT => s.encFence.encFault f 4 u false
  | .ENC_STATE_PAR => s.encFence.encFault f 5 u false
  | .AK_REPLAY | .AK_REPLAY_FAIL | .AK_LANE_FENCE | .AK_PROTOCOL | .AK_RB_UNCORR | .AK_RXB_UNCORR | .AK_CLK_LOSS | .AK_LINK_DOWN => s.akReport f u v w
  | .CG_LINK_DOWN | .CG_LINE_THR | .CG_BC_LOSS | .CG_BC_CRC | .CG_CAPS_MISMATCH | .CG_FIFO_UNCORR => s.portReport f u
  | .CLK_PIX_RELOCK | .CLK_PIX_FAIL | .CLK_GUARD_PIX | .CLK_CG_RELOCK | .CLK_CG_FAIL | .CLK_CORE_LOSS | .CLK_HM_LOSS | .CLK_GUARD_INT
  | .CLK_REF_LOSS => s.clkReport f u
  | .INTC_CFG_PAR => if u < 256 then (s.cfgPar u false).tick else s.fault f
  | .INTC_STACK_PAR => if 2 ≤ u ∧ u < 8 then s.stackPar u false else s.fault f
  | .INTC_REC_UNCORR => (s.when (u < 256) fun s => s.dropRecord u).fault f
  | .OD_XFER_RETRY | .OD_XFER | .CAN_BUSOFF_RETRY | .CAN_BUSOFF | .CAN_RAM_CORR | .CAN_RAM_UNCORR | .MGMT_DATA_SKEW | .OD_STORE_PAR =>
    s.odReport f u v
  | .TH_SENSOR => s.pwrFault f 1
  | .TH_CRIT => s.pwrFault f 2
  | .AVS_BUS_RETRY => s.pwrFault f 3
  | .AVS_BUS => ({ s with pwr := { s.pwr with avsStopped := true } }).pwrFault f 4
  | .AVS_MARGIN => s.pwrFault f 5
  | .ARB_PAR => s.pwrFault f 6
  | .PWR_PGOOD_LOSS => s.pwrFault f 7
  | _ => s.fault f

/-- FAULT_REPORT (R437): the collector runs in the main domain. (DEDUCED, log 1801.) -/
def execFaultReport (f : FaultId) (u v w : Nat) (s : State) : Host.Outcome State Fault Refusal :=
  let s := s.fresh
  done (if s.emb.main then s.report f u v w else s)

end Sys2Proof.Machine
end

