-- ==== Sys2Proof/Machine/Dispatch.lean ====
section
/-! DEFINITION. The dispatch: one arm for every command of the table, in its order. -/
namespace Sys2Proof.Machine

/-- The effect of a command on everything but the queue. -/
def exec (instr : Instr) (s : State) : Host.Outcome State Fault Refusal :=
  match instr with
  | .registerWrite o a v => Sys2Proof.Machine.execRegisterWrite o a v s
  | .loRegisterRead o a => Sys2Proof.Machine.execLoRegisterRead o a s
  | .globalLockSet o => Sys2Proof.Machine.execGlobalLockSet o s
  | .commitGo o n v => Sys2Proof.Machine.execCommitGo o n v s
  | .admission n => Sys2Proof.Machine.execAdmission n s
  | .frameBoundary p e d => Sys2Proof.Machine.execFrameBoundary p e d s
  | .idleGrantTimer => Sys2Proof.Machine.execIdleGrantTimer s
  | .commitLine p => Sys2Proof.Machine.execCommitLine p s
  | .staleLimit p k => Sys2Proof.Machine.execStaleLimit p k s
  | .beaconLine p => Sys2Proof.Machine.execBeaconLine p s
  | .prefetchStart p => Sys2Proof.Machine.execPrefetchStart p s
  | .lineEmit p reached full => Sys2Proof.Machine.execLineEmit p reached full s
  | .witnessClose p => Sys2Proof.Machine.execWitnessClose p s
  | .shedRestore o v => Sys2Proof.Machine.execShedRestore o v s
  | .autoRestoreStep => Sys2Proof.Machine.execAutoRestoreStep s
  | .fsyncEdge dt since => Sys2Proof.Machine.execFsyncEdge dt since s
  | .fsyncLost => Sys2Proof.Machine.execFsyncLost s
  | .hearthWindowWrite o a bs e => Sys2Proof.Machine.execHearthWindowWrite o a bs e s
  | .hearthWindowRead o a n e => Sys2Proof.Machine.execHearthWindowRead o a n e s
  | .alloc o n => Sys2Proof.Machine.execAlloc o n s
  | .free o n => Sys2Proof.Machine.execFree o n s
  | .reset o n => Sys2Proof.Machine.execReset o n s
  | .trim o n => Sys2Proof.Machine.execTrim o n s
  | .query o n => Sys2Proof.Machine.execQuery o n s
  | .handleResultLatch n => Sys2Proof.Machine.execHandleResultLatch n s
  | .hearthRead r a e => Sys2Proof.Machine.execHearthRead r a e s
  | .eccReread r a e => Sys2Proof.Machine.execEccReread r a e s
  | .eccWriteback a => Sys2Proof.Machine.execEccWriteback a s
  | .hearthWriteAck i e => Sys2Proof.Machine.execHearthWriteAck i e s
  | .scrubRead e => Sys2Proof.Machine.execScrubRead e s
  | .eccInj o v => Sys2Proof.Machine.execEccInj o v s
  | .injPar o hi v => Sys2Proof.Machine.execInjPar o hi v s
  | .channelFence c par => Sys2Proof.Machine.execChannelFence c par s
  | .evacCellMove c e => Sys2Proof.Machine.execEvacCellMove c e s
  | .fenceClear o v => Sys2Proof.Machine.execFenceClear o v s
  | .channelZeroInitDone c => Sys2Proof.Machine.execChannelZeroInitDone c s
  | .hearthColdInitDone => Sys2Proof.Machine.execHearthColdInitDone s
  | .statWindowEnd => Sys2Proof.Machine.execStatWindowEnd s
  | .statClear o v => Sys2Proof.Machine.execStatClear o v s
  | .slotFetch p k y ahead e => Sys2Proof.Machine.execSlotFetch p k y ahead e s
  | .scCoefDataWrite o p v => Sys2Proof.Machine.execScCoefDataWrite o p v s
  | .scCoefReset o p v => Sys2Proof.Machine.execScCoefReset o p v s
  | .clLutDataWrite o p v => Sys2Proof.Machine.execClLutDataWrite o p v s
  | .clLutReset o p v => Sys2Proof.Machine.execClLutReset o p v s
  | .wbArm o p v => Sys2Proof.Machine.execWbArm o p v s
  | .wbDone p => Sys2Proof.Machine.execWbDone p s
  | .beaconApply o v => Sys2Proof.Machine.execBeaconApply o v s
  | .telltaleReqWrite o i v => Sys2Proof.Machine.execTelltaleReqWrite o i v s
  | .telltaleTimeout i => Sys2Proof.Machine.execTelltaleTimeout i s
  | .e2eFailedClear o i v => Sys2Proof.Machine.execE2eFailedClear o i v s
  | .bcInj o v => Sys2Proof.Machine.execBcInj o v s
  | .clusterRedraw bad => Sys2Proof.Machine.execClusterRedraw bad s
  | .clusterSealed => Sys2Proof.Machine.execClusterSealed s
  | .clusterRedrawLate => Sys2Proof.Machine.execClusterRedrawLate s
  | .tPwrOnElapsed p => Sys2Proof.Machine.execTPwrOnElapsed p s
  | .rasterRestart p => Sys2Proof.Machine.execRasterRestart p s
  | .backlightOn p => Sys2Proof.Machine.execBacklightOn p s
  | .tBlOffElapsed p => Sys2Proof.Machine.execTBlOffElapsed p s
  | .tPwrOffElapsed p => Sys2Proof.Machine.execTPwrOffElapsed p s
  | .pwmPeriodStart p => Sys2Proof.Machine.execPwmPeriodStart p s
  | .pnlOutWrite o p v => Sys2Proof.Machine.execPnlOutWrite o p v s
  | .doorbell o c v => Sys2Proof.Machine.execDoorbell o c v s
  | .reload o c v => Sys2Proof.Machine.execReload o c v s
  | .pause o c v => Sys2Proof.Machine.execPause o c v s
  | .abort o c v => Sys2Proof.Machine.execAbort o c v s
  | .abortDrainDone c => Sys2Proof.Machine.execAbortDrainDone c s
  | .descriptorReadDone c => Sys2Proof.Machine.execDescriptorReadDone c s
  | .descriptorCurrent c => Sys2Proof.Machine.execDescriptorCurrent c s
  | .dmaReadIssue e => Sys2Proof.Machine.execDmaReadIssue e s
  | .cplTimeout tag => Sys2Proof.Machine.execCplTimeout tag s
  | .heldTagRelease tag => Sys2Proof.Machine.execHeldTagRelease tag s
  | .descriptorComplete c stg => Sys2Proof.Machine.execDescriptorComplete c stg s
  | .dmaLate c => Sys2Proof.Machine.execDmaLate c s
  | .dmaInj o v => Sys2Proof.Machine.execDmaInj o v s
  | .decOpen o i => Sys2Proof.Machine.execDecOpen o i s
  | .decClose o i => Sys2Proof.Machine.execDecClose o i s
  | .decFlush o i => Sys2Proof.Machine.execDecFlush o i s
  | .decReset o i => Sys2Proof.Machine.execDecReset o i s
  | .dsResultLatch i => Sys2Proof.Machine.execDsResultLatch i s
  | .decPictureStart i f => Sys2Proof.Machine.execDecPictureStart i f s
  | .decPictureDone lost cache rd e => Sys2Proof.Machine.execDecPictureDone lost cache rd e s
  | .decOutput i e => Sys2Proof.Machine.execDecOutput i e s
  | .decOut i => Sys2Proof.Machine.execDecOut i s
  | .decWatchdog lost => Sys2Proof.Machine.execDecWatchdog lost s
  | .decUnfence o v => Sys2Proof.Machine.execDecUnfence o v s
  | .decInj o v => Sys2Proof.Machine.execDecInj o v s
  | .encOpen o i => Sys2Proof.Machine.execEncOpen o i s
  | .encClose o i => Sys2Proof.Machine.execEncClose o i s
  | .forceIdr o i => Sys2Proof.Machine.execForceIdr o i s
  | .esResultLatch i => Sys2Proof.Machine.execEsResultLatch i s
  | .encPictureStart => Sys2Proof.Machine.execEncPictureStart s
  | .encPictureDone cs slice m k e => Sys2Proof.Machine.execEncPictureDone cs slice m k e s
  | .encWatchdog => Sys2Proof.Machine.execEncWatchdog s
  | .encUnfence o v => Sys2Proof.Machine.execEncUnfence o v s
  | .encInj o v => Sys2Proof.Machine.execEncInj o v s
  | .akTrainAdvance acc margins eq => Sys2Proof.Machine.execAkTrainAdvance acc margins eq s
  | .akTrainLimit missed margins eq => Sys2Proof.Machine.execAkTrainLimit missed margins eq s
  | .fullTrain o v => Sys2Proof.Machine.execFullTrain o v s
  | .retrain o v => Sys2Proof.Machine.execRetrain o v s
  | .akRetryTimer => Sys2Proof.Machine.execAkRetryTimer s
  | .akFlitReceive bs viol rx e skew => Sys2Proof.Machine.execAkFlitReceive bs viol rx e skew s
  | .akFlitSend eq => Sys2Proof.Machine.execAkFlitSend eq s
  | .replayTimeout rx => Sys2Proof.Machine.execReplayTimeout rx s
  | .akIdleRequest => Sys2Proof.Machine.execAkIdleRequest s
  | .akIdleExit => Sys2Proof.Machine.execAkIdleExit s
  | .akLaneFence l => Sys2Proof.Machine.execAkLaneFence l s
  | .lnFenceClear o l v => Sys2Proof.Machine.execLnFenceClear o l v s
  | .akClkLoss => Sys2Proof.Machine.execAkClkLoss s
  | .akInj o v => Sys2Proof.Machine.execAkInj o v s
  | .cgTrainAdvance p => Sys2Proof.Machine.execCgTrainAdvance p s
  | .cgTrainLimit p => Sys2Proof.Machine.execCgTrainLimit p s
  | .cgFullTrain o p v => Sys2Proof.Machine.execCgFullTrain o p v s
  | .cgRetrain p => Sys2Proof.Machine.execCgRetrain p s
  | .caps p seq bs crc => Sys2Proof.Machine.execCaps p seq bs crc s
  | .status p seq bs crc => Sys2Proof.Machine.execStatus p seq bs crc s
  | .crcReport p seq bs crc => Sys2Proof.Machine.execCrcReport p seq bs crc s
  | .holdAck p seq bs crc => Sys2Proof.Machine.execHoldAck p seq bs crc s
  | .holdNak p seq bs crc => Sys2Proof.Machine.execHoldNak p seq bs crc s
  | .cgEqReq p seq bs crc => Sys2Proof.Machine.execCgEqReq p seq bs crc s
  | .heldLost p seq bs crc => Sys2Proof.Machine.execHeldLost p seq bs crc s
  | .cgBcLoss p => Sys2Proof.Machine.execCgBcLoss p s
  | .cgLineThr p => Sys2Proof.Machine.execCgLineThr p s
  | .cgInj o p v => Sys2Proof.Machine.execCgInj o p v s
  | .pllLockDone i => Sys2Proof.Machine.execPllLockDone i s
  | .pllLockFail i => Sys2Proof.Machine.execPllLockFail i s
  | .pllLossOfLock i => Sys2Proof.Machine.execPllLossOfLock i s
  | .freqGuardTrip i => Sys2Proof.Machine.execFreqGuardTrip i s
  | .clkRefLoss => Sys2Proof.Machine.execClkRefLoss s
  | .pllRestart o i v => Sys2Proof.Machine.execPllRestart o i v s
  | .clkInj o v => Sys2Proof.Machine.execClkInj o v s
  | .lockmonHoldExpiry => Sys2Proof.Machine.execLockmonHoldExpiry s
  | .sourceInputChange n b code unit arg => Sys2Proof.Machine.execSourceInputChange n b code unit arg s
  | .srcPendWrite o n v => Sys2Proof.Machine.execSrcPendWrite o n v s
  | .srcUnpendWrite o n v => Sys2Proof.Machine.execSrcUnpendWrite o n v s
  | .srcCfgWrite o n v => Sys2Proof.Machine.execSrcCfgWrite o n v s
  | .intcAcknowledge t n => Sys2Proof.Machine.execIntcAcknowledge t n s
  | .tgtClaimRead o t => Sys2Proof.Machine.execTgtClaimRead o t s
  | .tgtEoi o t v => Sys2Proof.Machine.execTgtEoi o t v s
  | .hostMsgCommit q => Sys2Proof.Machine.execHostMsgCommit q s
  | .hqAck o t v => Sys2Proof.Machine.execHqAck o t v s
  | .moderationExpiry t g => Sys2Proof.Machine.execModerationExpiry t g s
  | .coreIdleChange t idle held => Sys2Proof.Machine.execCoreIdleChange t idle held s
  | .recD2Read o => Sys2Proof.Machine.execRecD2Read o s
  | .recStatRead o => Sys2Proof.Machine.execRecStatRead o s
  | .mboxRing o v => Sys2Proof.Machine.execMboxRing o v s
  | .intcInj o v => Sys2Proof.Machine.execIntcInj o v s
  | .read fr skew => Sys2Proof.Machine.execRead fr skew s
  | .write fr e => Sys2Proof.Machine.execWrite fr e s
  | .classicRead fr skew => Sys2Proof.Machine.execClassicRead fr skew s
  | .segReadInit fr skew => Sys2Proof.Machine.execSegReadInit fr skew s
  | .segWriteInit fr => Sys2Proof.Machine.execSegWriteInit fr s
  | .segData fr => Sys2Proof.Machine.execSegData fr s
  | .segAck fr => Sys2Proof.Machine.execSegAck fr s
  | .segEnd fr e => Sys2Proof.Machine.execSegEnd fr e s
  | .odAbort fr => Sys2Proof.Machine.execOdAbort fr s
  | .segTimeout b => Sys2Proof.Machine.execSegTimeout b s
  | .stateFrame fr => Sys2Proof.Machine.execStateFrame fr s
  | .sfTimeout => Sys2Proof.Machine.execSfTimeout s
  | .proofFrame => Sys2Proof.Machine.execProofFrame s
  | .claim o u => Sys2Proof.Machine.execClaim o u s
  | .ownRelease o u => Sys2Proof.Machine.execOwnRelease o u s
  | .assign o u w => Sys2Proof.Machine.execAssign o u w s
  | .mgmtDataSkew => Sys2Proof.Machine.execMgmtDataSkew s
  | .canBusoff n => Sys2Proof.Machine.execCanBusoff n s
  | .busoffRecovery n => Sys2Proof.Machine.execBusoffRecovery n s
  | .odInj o v => Sys2Proof.Machine.execOdInj o v s
  | .smoulderRequest o => Sys2Proof.Machine.execSmoulderRequest o s
  | .emberRequest o => Sys2Proof.Machine.execEmberRequest o s
  | .powerStateReached => Sys2Proof.Machine.execPowerStateReached s
  | .pgoodStuck => Sys2Proof.Machine.execPgoodStuck s
  | .wake m => Sys2Proof.Machine.execWake m s
  | .pgoodRise => Sys2Proof.Machine.execPgoodRise s
  | .mainResetRelease bad => Sys2Proof.Machine.execMainResetRelease bad s
  | .pgoodLost => Sys2Proof.Machine.execPgoodLost s
  | .resetNAssert => Sys2Proof.Machine.execResetNAssert s
  | .resetNRelease => Sys2Proof.Machine.execResetNRelease s
  | .pwrBudgetWrite o v => Sys2Proof.Machine.execPwrBudgetWrite o v s
  | .thSensorRead ts => Sys2Proof.Machine.execThSensorRead ts s
  | .avsPeriod m r1 r2 => Sys2Proof.Machine.execAvsPeriod m r1 r2 s
  | .pwrInj o v => Sys2Proof.Machine.execPwrInj o v s
  | .kindlingConfig bad => Sys2Proof.Machine.execKindlingConfig bad s
  | .kindlingDone => Sys2Proof.Machine.execKindlingDone s
  | .faultReport f u v w => Sys2Proof.Machine.execFaultReport f u v w s
  | .faultQuietExpiry f => Sys2Proof.Machine.execFaultQuietExpiry f s
  | .fcStatClear o g v => Sys2Proof.Machine.execFcStatClear o g v s
  | .fcClear o v => Sys2Proof.Machine.execFcClear o v s
  | .fcKick o v => Sys2Proof.Machine.execFcKick o v s
  | .glowHalfPeriod => Sys2Proof.Machine.execGlowHalfPeriod s
  | .fcSckick o v => Sys2Proof.Machine.execFcSckick o v s
  | .scWdt c => Sys2Proof.Machine.execScWdt c s
  | .fcFirstClear o v => Sys2Proof.Machine.execFcFirstClear o v s
  | .fcInj o v => Sys2Proof.Machine.execFcInj o v s
  | .lifecycleRequest o v => Sys2Proof.Machine.execLifecycleRequest o v s
  | .chalReq o => Sys2Proof.Machine.execChalReq o s
  | .submit o => Sys2Proof.Machine.execSubmit o s
  | .close o => Sys2Proof.Machine.execClose o s
  | .program o n => Sys2Proof.Machine.execProgram o n s
  | .revoke o n => Sys2Proof.Machine.execRevoke o n s
  | .programCpk o n => Sys2Proof.Machine.execProgramCpk o n s
  | .programPwd o => Sys2Proof.Machine.execProgramPwd o s
  | .otpProgramDone ok => Sys2Proof.Machine.execOtpProgramDone ok s
  | .recoverGo o => Sys2Proof.Machine.execRecoverGo o s
  | .emberPowerOn => Sys2Proof.Machine.execEmberPowerOn s
  | .emberSupplyLoss => Sys2Proof.Machine.execEmberSupplyLoss s
  | .cgBcCrc p bs => Sys2Proof.Machine.execCgBcCrc p bs s
  | .canBusError n tx rx => Sys2Proof.Machine.execCanBusError n tx rx s
  | .cgDetectRetry p => Sys2Proof.Machine.execCgDetectRetry p s
  | .clusterSignalTimeout n => Sys2Proof.Machine.execClusterSignalTimeout n s
  | .crystalStable => Sys2Proof.Machine.execCrystalStable s
  | .coreHalt c b => Sys2Proof.Machine.execCoreHalt c b s
  | .recoverDone ok => Sys2Proof.Machine.execRecoverDone ok s

end Sys2Proof.Machine
end

