-- ==== Sys2Proof/Safety.lean ====
section
/-! DEFINITION. What counts as a safe run, in the terms the statements use: output pins, the safe state, writes that nothing refuses, and
commands that complete. -/
namespace Sys2Proof.Machine

/-- The output pins are at the levels that the state drives (R336, R444, R446). -/
def State.PinsRight (s : State) : Prop := s.pins = s.pinLevels

/-- The device is in the safe state (R447). -/
def State.safeState (s : State) : Bool := s.is Reg.FC_STATUS_SAFE

/-- No rule refuses a write of `v` by requester `o` to the register at `a`, nor any field of it: the main domain is out of reset and the
register is reached (R397, R459), the safe state lets it pass (R448), the writer rules admit the requester (R11, R456), and no field is
locked (R478) or of class S in a running block (R477). -/
def State.accepts (s : State) (o : Origin) (a : Nat) (v : Word) : Bool :=
  match regAt a with
  | none => false
  | some (row, is) =>
    s.reaches o row.name && !(s.safeState && isHostPath o && !safeWritable row.name is) && s.writerOk o a row.name is &&
      row.fields.all fun f => (s.fieldRefusal row.name is f (bits (s.reg a).toNat f.hi f.lo) (bits v.toNat f.hi f.lo)).isNone

/-- Command `c` completes: it answers a next state with property `P`. -/
def Completes (c : Instr) (s : State) (P : State → Prop) : Prop := ∃ t, exec c s = .next t ∧ P t

/-- Fault `f` has its LATCHED and ACTIVE bits set (R440). -/
abbrev State.reported (s : State) (f : FaultId) : Prop :=
  bit (s.get (Reg.FC_STAT_LATCHED (faultGroup f.code))) (faultRow f.code - 1) = true ∧
    bit (s.get (Reg.FC_STAT_ACTIVE (faultGroup f.code))) (faultRow f.code - 1) = true

/-- The rows whose report names no outcome and no field of its own unit beside the collector (Tables 18.2 ff.); for the others FAULT_REPORT
carries the outcome out at the place that its operands name. (DEDUCED, log 1801.) -/
def FaultId.alone (f : FaultId) : Bool :=
  match f with
  | .SVC_SRAM_UNCORR | .SC_WDT | .HM_CH_FENCE | .HM_CH_CTRL | .PIPE_EMIT_LATE | .PIPE_CL_PARITY | .SC_LB_UNCORR | .BEACON_GLYPH | .BEACON_E2E
  | .DEC_CACHE_REREAD | .DEC_CACHE_CORR | .DEC_HASH | .DEC_TIMEOUT_RETRY | .DEC_TIMEOUT | .DEC_STATE_PAR | .ENC_SRAM_CORR | .ENC_SRAM_REREAD
  | .ENC_TIMEOUT_RETRY | .ENC_TIMEOUT | .ENC_STATE_PAR | .AK_REPLAY | .AK_REPLAY_FAIL | .AK_LANE_FENCE | .AK_PROTOCOL | .AK_RB_UNCORR
  | .AK_RXB_UNCORR | .AK_CLK_LOSS | .AK_LINK_DOWN | .CG_LINK_DOWN | .CG_LINE_THR | .CG_BC_LOSS | .CG_BC_CRC | .CG_CAPS_MISMATCH
  | .CG_FIFO_UNCORR | .CLK_PIX_RELOCK | .CLK_PIX_FAIL | .CLK_GUARD_PIX | .CLK_CG_RELOCK | .CLK_CG_FAIL | .CLK_CORE_LOSS | .CLK_HM_LOSS
  | .CLK_GUARD_INT | .CLK_REF_LOSS | .INTC_CFG_PAR | .INTC_STACK_PAR | .INTC_REC_UNCORR | .OD_XFER_RETRY | .OD_XFER | .CAN_BUSOFF_RETRY
  | .CAN_BUSOFF | .CAN_RAM_CORR | .CAN_RAM_UNCORR | .MGMT_DATA_SKEW | .OD_STORE_PAR | .TH_SENSOR | .TH_CRIT | .AVS_BUS_RETRY | .AVS_BUS
  | .AVS_MARGIN | .ARB_PAR | .PWR_PGOOD_LOSS => false
  | _ => true

/-- A report of fault `f` does not bring the safe state: its class is CE, or CC in a group that is not escalated (R439, R447). -/
def State.mild (s : State) (f : FaultId) : Bool :=
  f.cls == .ce || (f.cls == .cc && !bit (s.get Reg.FC_CFG_ESCALATE) (faultGroup f.code - 1))

/-- The registers whose accepted write does more than store its fields (R475–R479), or is judged by a rule of its own. -/
def commandRegs : List RegName :=
  [.GLB_LOCK, .ORB_CTRL, .BANK_CFG, .BE_HOLD_START, .BE_HOLD_LEN, .BC_INJ, .CG_INJ, .CLK_INJ, .DEC_INJ, .DMA_INJ, .ENC_INJ, .OD_INJ,
    .SHED_CTRL, .CP_CTRL, .HM_STATUS, .FENCE_CFG, .FENCE_INJ_HI, .ECC_INJ, .STAT_CTRL, .HP_CMD, .PNL_CFG, .PNL_OUT, .CL_LUT_DATA,
    .CL_LUT_RESET, .WB_CTRL, .SC_COEF_DATA, .SC_COEF_RESET, .BC_CTRL, .BE_E2E, .TT_STATE, .CLU_CTRL, .CH_CTRL, .CH_DB_HI, .DEC_CTRL,
    .DS_CMD, .ENC_CTRL, .ES_CMD, .AK_CTRL, .AK_INJ, .LN_STATUS, .CG_CTRL, .PLL_CTRL, .INTC_INJ, .TGT_EOI, .HQ_ACK, .FC_CFG, .FC_IRQ_EN,
    .FC_KICK, .FC_SCKICK, .FC_CLEAR, .FC_FIRST, .FC_INJ, .FC_STAT, .PWR_STATE, .PWR_BUDGET, .PWR_INJ, .OWN, .SEC_LC, .SEC_DBG_CTRL,
    .SEC_KEY_CMD, .SEC_DBG_RESP, .SEC_KEY_DATA, .SEC_CPK_DATA, .SEC_RECOVER_LEN, .SEC_RECOVER, .SRC_PEND, .SRC_UNPEND, .SRC_CFG,
    .MBOX_RING]

/-- The next token grant meets no injection and leaves the budget in force as it is (R406–R410). -/
def State.grantQuiet (s : State) : Bool :=
  !s.is Reg.PWR_INJ_ARB && s.get Reg.PWR_STATUS_IN_FORCE == min (s.get Reg.PWR_BUDGET_TOKENS) s.nextTl

/-- A byte of the service SRAM. -/
def State.sramByte (s : State) (a : Nat) : Byte := SMap.get memDefault s.sram a

/-- Every byte of Hearth and of the service SRAM reads in `t` as in `s`. -/
def MemoryKept (s t : State) : Prop := ∀ a, t.hmByte a = s.hmByte a ∧ t.sramByte a = s.sramByte a

/-- The state in which a command of decoder session `i` is carried out: its write is taken, and BUSY shows (R232). -/
def State.decTaken (s : State) (i : Nat) : State :=
  ((s.bumpGen unitDecoder).put (Reg.DS_RESULT_BUSY i) 1).put (Reg.DS_RESULT_VALID i) 0

/-- No byte changes but in the cells `cs` (R60, R238, R257). -/
def OthersKept (cs : List Nat) (s t : State) : Prop :=
  ∀ a, t.sramByte a = s.sramByte a ∧ (cs.contains (a / 65536) = false → t.hmByte a = s.hmByte a)

/-- The cells of decoder session `i` (R238). -/
def State.decOwn (s : State) (i : Nat) : List Nat := SMap.get [] s.hm.codecCells i

/-- The cells of encoder session `i` (R257). -/
def State.encOwn (s : State) (i : Nat) : List Nat := SMap.get [] s.hm.codecCells (32 + i)

/-- The state in which a command of encoder session `i` is carried out: its write is taken, and BUSY shows (R255). -/
def State.encTaken (s : State) (i : Nat) : State :=
  ((s.bumpGen unitEncoder).put (Reg.ES_RESULT_BUSY i) 1).put (Reg.ES_RESULT_VALID i) 0

/-- The reservation of decoder session `i`, were it open, keeps checks 3 to 6: `none`, else the first failing check (R233). -/
def State.decAdmission (s : State) (i : Nat) : Option AdmResult :=
  let t := ((s.decTaken i).put (Reg.DS_STATUS_STATE i) 1).refreshDec
  (t.figures t.orbit.sheds (t.world [])).check 0

/-- Port `p` retrained less than 100 ms ago (R312). -/
def State.retrainedLately (s : State) (p : Nat) : Bool :=
  match (s.port p).lastRetrain with
  | some u => s.now < u + 100 * msNs
  | none => false

/-- A frame reaches the object protocol at once: the engine runs, its controller sends, nothing waits in front of it, its identifier is that
of requests, and no injection of the block is armed (R370, R371, R393). -/
def State.serves (s : State) (fr : CanFrame) : Bool :=
  s.odRuns && fr.bus < 2 && s.canSends fr.bus && s.od.skewed.isNone && fr.id == s.requestId && fr.id != s.stateId &&
    s.get Reg.OD_INJ_RAM + s.get Reg.OD_INJ_STORE + s.get Reg.OD_INJ_SKEW + s.get Reg.OD_INJ_XFER == 0

/-- An FD frame of the object protocol as controller `b` sends it (R371, R372). -/
def State.answer (s : State) (b : Nat) (bs : List Byte) (brs : Bool) : Out := .canFrame b s.responseId true (padTo bs (fdSize bs.length)) brs

/-- An abort frame of the object protocol that answers request `q` (R373). -/
def State.abortAnswer (s : State) (q : OdReq) (code : Nat) : Out := s.answer q.bus (odFrame 0x07 q (leBytes 4 code)) q.brs

end Sys2Proof.Machine
end

