-- ==== Sys2Proof/Certificates/Slice0/Obligations.lean ====
section
/-! DEFINITION. The statements for the provers. -/

open Sys2Proof Sys2Proof.Machine

/-- For every command c and state s, step of s with c at the front of its queue is exec of c on s with the queue's rest. On an empty queue
step answers the state with its time advanced by one FABRIC_CLK period of 1 ns, everything else unchanged. First in, first out, and the
idle step, are the model's choice (log 1): the table has no row for the passing of time. -/
def Obligations.StepRunsFrontCommand : Prop :=
  (∀ (c : Instr) (rest : List Instr) (s : State),
      step { s with pending := c :: rest } = exec c { s with pending := rest }) ∧
  (∀ (s : State),
      s.pending = [] →
      step s = .next { s with now := s.now + 1 })

/-- In State.reset every pipe is STOPPED, every DMA channel IDLE with empty queues (R225), every codec session CLOSED, every interrupt source
inactive with an empty FIFO and not pending but for source 190, every target's stack empty (R363), MC2 and MC3 are held (R419), the Aknum
link is in DETECT or earlier with state 0, no fault is latched, the device is not in the safe state, Glow is low and armed by no kick
(R444), FAULT_N is low (R446). That the state is the instant of release of the main domain is the model's choice (log 3). -/
def Obligations.ResetLeavesTheDeviceDark : Prop :=
  (∀ (p : Nat),
      p < 12 →
      State.reset.mode p = .stopped ∧ (State.reset.pipe p).pend = []) ∧
  (∀ (c : Nat),
      c < 112 →
      State.reset.get (Reg.CH_STATUS_STATE c) = 0 ∧ (State.reset.chan c).lists = [] ∧ (State.reset.chan c).cur = none) ∧
  (∀ (i : Nat),
      i < 16 →
      State.reset.get (Reg.DS_STATUS_STATE i) = 0 ∧ (i < 12 → State.reset.get (Reg.ES_STATUS_STATE i) = 0)) ∧
  (∀ (n : Nat),
      n ≠ 190 →
      State.reset.src n = {}) ∧
  (∀ (t : Nat),
      (State.reset.tgt t).stack = [] ∧ ((State.reset.tgt t).held = true ↔ t = 2 ∨ t = 3)) ∧
  (∀ (g : Nat),
      1 ≤ g →
      g ≤ 14 →
      State.reset.get (Reg.FC_STAT_LATCHED g) = 0 ∧ State.reset.get (Reg.FC_STAT_ACTIVE g) = 0) ∧
  (State.reset.safeState = false ∧ State.reset.get Reg.AK_STATUS_STATE = 0 ∧ State.reset.fc.armed = false ∧ State.reset.pins = { faultLow := true, glow := false, lockmon := false })

/-- In State.reset the pins FAULT_N, GLOW and LOCKMON are at the levels that the state drives, and the register image and every memory are in
canonical form: addresses strictly rise and no entry equals what an unlisted address reads as. -/
def Obligations.ResetPinsAreRight : Prop :=
  State.reset.PinsRight ∧ SMap.wf regReset State.reset.regs = true ∧ Memory.wf State.reset.sram = true ∧ Memory.wf State.reset.hm.mem = true

/-- For every state whose output pins are at the levels that the state drives and every step that answers a next state, the pins of the next
state are at the levels which that next state drives: FAULT_N during Kindling, in the safe state, after a PGOOD loss and for a latched CC
where FAULTN_CC asks for it; GLOW only outside the safe state with the main domain out of reset; LOCKMON from the lock states. -/
def Obligations.EveryStepKeepsPinsRight : Prop :=
  ∀ (s t : State),
      s.PinsRight →
      step s = .next t →
      t.PinsRight

/-- For every state in which the byte memories of Hearth, of the service SRAM and of the flash are in canonical form (addresses strictly
rising, no entry equal to what an unlisted address reads as), and every step that answers a next state, the memories of the next state are
in canonical form: equal memories stay equal data, whatever command writes, moves, zeroes, restores or loses bytes. What an unlisted byte
reads as is the model's choice (log 5). -/
def Obligations.EveryStepKeepsMemoryCanonical : Prop :=
  ∀ (s t : State),
      Memory.wf s.hm.mem = true →
      Memory.wf s.sram = true →
      Memory.wf s.flash.cells = true →
      step s = .next t →
      Memory.wf t.hm.mem = true ∧ Memory.wf t.sram = true ∧ Memory.wf t.flash.cells = true

/-- While the main domain is out of reset, a report of any checker f at any place completes, and LATCHED and ACTIVE of f are set. Where the
row names no outcome and no field of its own unit (FaultId.alone), the fault log holds the entry of f, without the INJ mark, first, and
never more than 32 entries. Without the main domain the report has no effect. That a report with an outcome also carries out that outcome,
at the place that the operands name, is the model's reading of the rows (log 1801). -/
def Obligations.FaultReportIsLatchedAndLogged : Prop :=
  (∀ (s : State) (f : FaultId) (u v w : Nat),
      s.emb.main = true →
      Completes (.faultReport f u v w) s fun t =>
        t.reported f) ∧
  (∀ (s : State) (f : FaultId) (u v w : Nat),
      s.emb.main = true →
      f.alone = true →
      Completes (.faultReport f u v w) s fun t =>
        t.reported f ∧ (∃ e rest, t.fc.log = e :: rest ∧ e.code = f.code ∧ e.inj = false) ∧ t.fc.log.length ≤ 32) ∧
  (∀ (s : State) (f : FaultId) (u v w : Nat),
      s.emb.main = false →
      exec (.faultReport f u v w) s = .next ({ s with outbox := [] } : State).settled)

/-- While the main domain is out of reset, a report of a row of class FT completes in the safe state: FC_STATUS.SAFE is 1, Glow is low,
FAULT_N is low while the Ember supplies stand and the part is not parked, and every kick after it is ignored. -/
def Obligations.FatalFaultEntersSafeState : Prop :=
  (∀ (s : State) (f : FaultId) (u v w : Nat),
      s.emb.main = true →
      f.cls = .ft →
      Completes (.faultReport f u v w) s fun t =>
        t.safeState = true ∧ t.reported f ∧ t.pins.glow = false ∧ (t.emb.supply = true → t.emb.parked = false → t.pins.faultLow = true)) ∧
  (∀ (s : State) (o : Origin) (v : Word),
      s.safeState = true →
      s.accepts o Reg.a_FC_KICK v = true →
      exec (.fcKick o v) s = .next ({ s with outbox := [] } : State).settled)

/-- For a CE row whose report names no outcome and no field of its own unit (FaultId.alone), FAULT_REPORT completes and changes registers of
the FAULT block, the collector, the interrupt inputs and the pins alone: no register outside the FAULT block changes, and every other part
of the state stays. The safe state is neither entered nor left. -/
def Obligations.CorrectableFaultOnlyRecords : Prop :=
  ∀ (s : State) (f : FaultId) (u v w : Nat),
      s.emb.main = true →
      f.cls = .ce →
      f.alone = true →
      Completes (.faultReport f u v w) s fun t =>
        t.reported f ∧ (∀ g : FRef, g.addr < Reg.a_FC_STATUS ∨ 0x20910000 ≤ g.addr → t.get g = s.get g) ∧ t.safeState = s.safeState ∧
        (∃ r c i p, t = { s with outbox := [], regs := r, fc := c, intc := i, pins := p })

/-- The collector's capture of FC_FIRST: with VALID 0 a report of class CC or FT sets VALID, CODE, CLASS, INJ and ESC as reported and takes
the stamp; with VALID 1 nothing of it changes. It touches no register outside FC_FIRST. -/
def Obligations.FirstFaultIsKept : Prop :=
  (∀ (s : State) (f : FaultId) (ft inj esc : Bool),
      s.get Reg.FC_FIRST_VALID = 0 →
      (s.keepFirst f ft inj esc).get Reg.FC_FIRST_VALID = 1 ∧ (s.keepFirst f ft inj esc).get Reg.FC_FIRST_CODE = f.code ∧
      (s.keepFirst f ft inj esc).get Reg.FC_FIRST_CLASS = (if ft then 3 else 2) ∧ (s.keepFirst f ft inj esc).get Reg.FC_FIRST_INJ = b2n inj ∧
      (s.keepFirst f ft inj esc).get Reg.FC_FIRST_ESC = b2n esc ∧ (s.keepFirst f ft inj esc).fc.firstStamp = s.orbit.stamp ∧
      ∀ a, a ≠ Reg.a_FC_FIRST → (s.keepFirst f ft inj esc).reg a = s.reg a) ∧
  (∀ (s : State) (f : FaultId) (ft inj esc : Bool),
      s.get Reg.FC_FIRST_VALID = 1 →
      s.keepFirst f ft inj esc = s)

/-- FAULT_QUIET_EXPIRY: once QUIET orbits have passed since the last report of f and no condition of f holds, ACTIVE of f reads 0 and every
other register stays; before that, or while the condition holds, nothing changes. FC_STAT_CLEAR: after an accepted write, each LATCHED bit
of the group keeps its value where its ACTIVE bit is 1, where its fault is treated as FT, or where the write holds 0, and reads 0
elsewhere. FC_FIRST_CLEAR with bit 31 set clears VALID and changes no other register. -/
def Obligations.QuietAndClearingOfFaultBits : Prop :=
  (∀ (s : State) (f : FaultId),
      s.fc.conds.contains f.code = false →
      SMap.get 0 s.fc.lastReport f.code + s.quiet ≤ s.orbit.orbits →
      Completes (.faultQuietExpiry f) s fun t =>
        bit (t.get (Reg.FC_STAT_ACTIVE (faultGroup f.code))) (faultRow f.code - 1) = false ∧
        ∀ a, a ≠ Reg.a_FC_STAT (faultGroup f.code) → t.reg a = s.reg a) ∧
  (∀ (s : State) (f : FaultId),
      s.fc.conds.contains f.code = true ∨ s.orbit.orbits < SMap.get 0 s.fc.lastReport f.code + s.quiet →
      exec (.faultQuietExpiry f) s = .next ({ s with outbox := [] } : State).settled) ∧
  (∀ (s : State) (o : Origin) (g : Nat) (v : Word) (b : Nat),
      1 ≤ g →
      g ≤ 14 →
      b < 16 →
      s.accepts o (Reg.a_FC_STAT g) v = true →
      Completes (.fcStatClear o g v) s fun t =>
        bit (t.get (Reg.FC_STAT_LATCHED g)) b = (bit (s.get (Reg.FC_STAT_LATCHED g)) b &&
          (!bit v.toNat b || bit (s.get (Reg.FC_STAT_ACTIVE g)) b || bit (s.ftMask g) b))) ∧
  (∀ (s : State) (o : Origin) (v : Word),
      s.accepts o Reg.a_FC_FIRST v = true →
      bit v.toNat 31 = true →
      Completes (.fcFirstClear o v) s fun t =>
        t.get Reg.FC_FIRST_VALID = 0 ∧ t.fc = s.fc ∧ (∀ a, a ≠ Reg.a_FC_FIRST → t.reg a = s.reg a) ∧ t.hm = s.hm ∧ t.pipes = s.pipes ∧ t.sram = s.sram)

/-- While the safety pair runs outside the safe state, with no injection armed: a write of the expected key in a half period without a kick
arms the check, notes the kick and expects the other key, and changes nothing else; once armed, a wrong key or a second kick raises SP_WDT
and the device is in the safe state. GLOW_HALF_PERIOD with a kick toggles Glow and starts the next half period, changing nothing else;
without a kick it raises SP_WDT. Before the first accepted kick the half period has no effect and Glow is low on the pin only as it
stands. -/
def Obligations.GlowFollowsTheKicks : Prop :=
  (∀ (s : State) (o : Origin) (v : Word),
      s.accepts o Reg.a_FC_KICK v = true →
      s.safeState = false →
      s.pairRuns = true →
      s.is Reg.FC_INJ_KICK = false →
      s.fc.armed = true → s.fc.kicked = false →
      bits v.toNat 15 0 = (if s.fc.expectSecond then 0xA55A else 0x5AA5) →
      exec (.fcKick o v) s = .next ({ s with outbox := [], fc := { s.fc with armed := true, kicked := true, expectSecond := !s.fc.expectSecond } } : State).settled) ∧
  (∀ (s : State) (o : Origin) (v : Word),
      s.accepts o Reg.a_FC_KICK v = true →
      s.safeState = false →
      s.pairRuns = true →
      s.is Reg.FC_INJ_KICK = false →
      s.fc.armed = true →
      s.fc.kicked = true ∨ bits v.toNat 15 0 ≠ (if s.fc.expectSecond then 0xA55A else 0x5AA5) →
      Completes (.fcKick o v) s fun t =>
        t.reported .SP_WDT ∧ t.safeState = true ∧ t.pins.glow = false) ∧
  (∀ (s : State),
      s.safeState = false →
      s.fc.armed = true →
      s.fc.kicked = true →
      exec .glowHalfPeriod s = .next ({ s with outbox := [], fc := { s.fc with glow := !s.fc.glow, kicked := false } } : State).settled) ∧
  (∀ (s : State),
      s.safeState = false →
      s.fc.armed = true →
      s.fc.kicked = true →
      Completes (.glowHalfPeriod) s fun t =>
        t.pins.glow = (s.emb.main && !s.fc.glow)) ∧
  (∀ (s : State),
      s.safeState = false →
      s.fc.armed = true →
      s.fc.kicked = false →
      Completes (.glowHalfPeriod) s fun t =>
        t.reported .SP_WDT ∧ t.safeState = true ∧ t.pins.glow = false) ∧
  (∀ (s : State),
      s.fc.armed = false ∨ s.safeState = true →
      exec .glowHalfPeriod s = .next ({ s with outbox := [] } : State).settled)

/-- While FC_WDT.SC_MS is not 0 and core c (MC2 or MC3) is not held, with no injection armed: the end of a period without a kick of c raises
SC_WDT and holds c in reset; with a kick it only uses up the kick. While SC_MS is 0 the row has no effect. An accepted FC_SCKICK of MC2
with bit 0 alone, or of MC3 with bit 1 alone, notes the kick of that core and changes nothing else; a core that sets the other's bit
raises ACC_REFUSED. -/
def Obligations.ServiceCoreWatchdogRaisesScWdt : Prop :=
  (∀ (s : State) (c : Nat),
      c = 2 ∨ c = 3 →
      s.get Reg.FC_WDT_SC_MS ≠ 0 →
      s.scHeld c = false →
      s.is Reg.FC_INJ_SCWDT = false →
      (if c = 2 then s.fc.kickedMc2 else s.fc.kickedMc3) = false →
      Completes (.scWdt c) s fun t =>
        t.reported .SC_WDT ∧ t.scHeld c = true ∧ (t.tgt c).stack = []) ∧
  (∀ (s : State) (c : Nat),
      c = 2 ∨ c = 3 →
      s.get Reg.FC_WDT_SC_MS ≠ 0 →
      s.scHeld c = false →
      s.is Reg.FC_INJ_SCWDT = false →
      (if c = 2 then s.fc.kickedMc2 else s.fc.kickedMc3) = true →
      exec (.scWdt c) s = .next (({ s with outbox := [] } : State).scSetKick c false).settled) ∧
  (∀ (s : State) (c : Nat),
      s.get Reg.FC_WDT_SC_MS = 0 →
      exec (.scWdt c) s = .next ({ s with outbox := [] } : State).settled) ∧
  (∀ (s : State) (v : Word),
      s.accepts .mc2 Reg.a_FC_SCKICK v = true →
      bit v.toNat 0 = true →
      bit v.toNat 1 = false →
      exec (.fcSckick .mc2 v) s = .next ({ s with outbox := [], fc := { s.fc with kickedMc2 := true } } : State).settled) ∧
  (∀ (s : State) (v : Word),
      s.accepts .mc3 Reg.a_FC_SCKICK v = true →
      bit v.toNat 0 = false →
      bit v.toNat 1 = true →
      exec (.fcSckick .mc3 v) s = .next ({ s with outbox := [], fc := { s.fc with kickedMc3 := true } } : State).settled) ∧
  (∀ (s : State) (v : Word),
      s.accepts .mc2 Reg.a_FC_SCKICK v = true →
      bit v.toNat 1 = true →
      Completes (.fcSckick .mc2 v) s fun t =>
        t.reported .ACC_REFUSED)

/-- An accepted write of FC_CLEAR: with 0x5AFE, SAFE 1, HARD 0 and no ACTIVE bit of a fault treated as FT, the warm Kindling of R433 starts:
its CAUSE is 3, the main domain is in reset and FAULT_N is low while the Ember supplies stand. With 0x5AFE and any of these conditions
unmet, CLEAR_REFUSED is set and every other register stays. Any other value has no effect. A write of FC_INJ that arms KICK leaves the
injection armed. CORE_HALT with debug access open halts core 0, 2 or 3, or lets it run, and changes nothing else. -/
def Obligations.FatalFaultIsClearedByWarmKindling : Prop :=
  (∀ (s : State) (o : Origin) (v : Word),
      s.accepts o Reg.a_FC_CLEAR v = true →
      bits v.toNat 15 0 = 0x5AFE →
      s.ftClearable = true →
      Completes (.fcClear o v) s fun t =>
        t.emb.main = false ∧ t.kin.cause = 3 ∧ t.pins.glow = false ∧ (t.emb.supply = true → t.emb.parked = false → t.pins.faultLow = true)) ∧
  (∀ (s : State) (o : Origin) (v : Word),
      s.accepts o Reg.a_FC_CLEAR v = true →
      bits v.toNat 15 0 = 0x5AFE →
      s.ftClearable = false →
      exec (.fcClear o v) s = .next (({ s with outbox := [] } : State).put Reg.FC_STATUS_CLEAR_REFUSED 1).settled) ∧
  (∀ (s : State) (o : Origin) (v : Word),
      s.accepts o Reg.a_FC_CLEAR v = true →
      bits v.toNat 15 0 ≠ 0x5AFE →
      exec (.fcClear o v) s = .next ({ s with outbox := [] } : State).settled) ∧
  (∀ (s : State) (o : Origin) (v : Word),
      s.accepts o Reg.a_FC_INJ v = true →
      v = 4#32 →
      s.reg Reg.a_FC_INJ = 0#32 →
      Completes (.fcInj o v) s fun t =>
        t.is Reg.FC_INJ_KICK = true ∧ t.fc = s.fc ∧ ∀ a, a ≠ Reg.a_FC_INJ → t.reg a = s.reg a) ∧
  (∀ (s : State) (c : Nat) (b : Bool),
      s.debugOpen = true →
      s.emb.main = true →
      c = 0 ∨ c = 2 ∨ c = 3 →
      exec (.coreHalt c b) s = .next ({ s with outbox := [], fc := { s.fc with halted := if b then c :: s.fc.halted.filter (fun x => x != c) else s.fc.halted.filter fun x => x != c } } : State).settled)

/-- For every register whose write only stores (commandRegs lists the others, whose writes have an effect of their own, stated with the
commands of that effect), every requester that the rules admit and every value that no clamp of its description changes: each RW and RWL
field reads back the value written, every other register but the owner registers (whose GEN counts the write) stays, and so do Hearth,
SRAM, the collector and the interrupt inputs. Of the registers whose write also acts on a pipe at once (ORBIT CTRL, BANK_CFG,
BE_HOLD_START and BE_HOLD_LEN), each RW and RWL field reads back the value written as well. -/
def Obligations.RegisterWriteStoresItsFields : Prop :=
  (∀ (s : State) (o : Origin) (a : Nat) (v : Word) (row : RegRow) (is : List Nat) (f : FieldRow),
      s.windowOpen o = true →
      a % 4 = 0 →
      regAt a = some (row, is) →
      row.name ∉ commandRegs →
      clampWord row.name v.toNat = v.toNat →
      s.shadowHeld a = false →
      s.accepts o a v = true →
      f ∈ row.fields →
      f.acc = .rw ∨ f.acc = .rwl →
      Completes (.registerWrite o a v) s fun t =>
        t.get ⟨a, f.hi, f.lo⟩ = bits v.toNat f.hi f.lo ∧ (∀ b, b ≠ a → (∀ u, b ≠ Reg.a_OWN u) → t.reg b = s.reg b) ∧
        t.hm = s.hm ∧ t.sram = s.sram ∧ t.fc = s.fc ∧ t.intc = s.intc) ∧
  (∀ (s : State) (o : Origin) (a : Nat) (v : Word) (row : RegRow) (is : List Nat) (f : FieldRow),
      s.windowOpen o = true →
      a % 4 = 0 →
      regAt a = some (row, is) →
      row.name ∈ [RegName.ORB_CTRL, .BANK_CFG, .BE_HOLD_START, .BE_HOLD_LEN] →
      s.shadowHeld a = false →
      s.accepts o a v = true →
      f ∈ row.fields →
      f.acc = .rw ∨ f.acc = .rwl →
      Completes (.registerWrite o a v) s fun t =>
        t.get ⟨a, f.hi, f.lo⟩ = bits v.toNat f.hi f.lo)

/-- A write of a storing register by a requester whom the writer rules of its block do not admit raises ACC_REFUSED and changes no register
outside the FAULT block, while group 1 is not escalated. With GLOBAL LOCK.CFG set, a write by an admitted requester that would change an
RWL field raises ACC_REFUSED, and the field keeps its value, whoever writes. In the safe state a write of the HOST path to a register that
it may not write then is discarded without a fault. -/
def Obligations.RefusedWriteChangesNoRegister : Prop :=
  (∀ (s : State) (o : Origin) (a : Nat) (v : Word) (row : RegRow) (is : List Nat),
      s.windowOpen o = true →
      a % 4 = 0 →
      regAt a = some (row, is) →
      row.name ∉ commandRegs →
      s.shadowHeld a = false →
      s.reaches o row.name = true →
      s.safeState = false →
      s.writerOk o a row.name is = false →
      bit (s.get Reg.FC_CFG_ESCALATE) 0 = false →
      Completes (.registerWrite o a v) s fun t =>
        t.reported .ACC_REFUSED ∧ t.safeState = false ∧ ∀ g : FRef, g.addr < Reg.a_FC_STATUS ∨ 0x20910000 ≤ g.addr → t.get g = s.get g) ∧
  (∀ (s : State) (o : Origin) (a : Nat) (v : Word) (row : RegRow) (is : List Nat) (f : FieldRow),
      s.windowOpen o = true →
      a % 4 = 0 →
      regAt a = some (row, is) →
      row.name ∉ commandRegs →
      clampWord row.name v.toNat = v.toNat →
      s.shadowHeld a = false →
      s.reaches o row.name = true →
      s.safeState = false →
      s.writerOk o a row.name is = true →
      s.is Reg.GLB_LOCK_CFG = true →
      f ∈ row.fields →
      f.acc = .rwl →
      bits v.toNat f.hi f.lo ≠ s.get ⟨a, f.hi, f.lo⟩ →
      bit (s.get Reg.FC_CFG_ESCALATE) 0 = false →
      Completes (.registerWrite o a v) s fun t =>
        t.reported .ACC_REFUSED ∧ t.get ⟨a, f.hi, f.lo⟩ = s.get ⟨a, f.hi, f.lo⟩) ∧
  (∀ (s : State) (o : Origin) (a : Nat) (v : Word) (row : RegRow) (is : List Nat),
      s.safeState = true →
      isHostPath o = true →
      a % 4 = 0 →
      regAt a = some (row, is) →
      row.name ∉ commandRegs →
      s.shadowHeld a = false →
      exec (.registerWrite o a v) s = .next ({ s with outbox := [] } : State).settled)

/-- A write of an aligned word to a region of the service SRAM that access control opens to the requester, outside the safe state: the four
bytes at its address hold the word, the least significant byte lowest (the byte order is the model's reading, log 9); every other byte of
SRAM and of Hearth, and every register, stays. A write to a region closed to the requester stores nothing and raises ACC_REFUSED.
GLOBAL_LOCK_SET by an admitted requester sets LOCK.CFG and no other register changes. -/
def Obligations.SramWriteStoresFourBytes : Prop :=
  (∀ (s : State) (o : Origin) (r : MemRegion) (a : Nat) (v : Word),
      s.windowOpen o = true →
      a % 4 = 0 →
      memRegion a = some r →
      s.memWritable o r = true →
      s.safeState = false →
      Completes (.registerWrite o a v) s fun t =>
        (∀ b, t.sramByte b = if a ≤ b ∧ b < a + 4 then BitVec.ofNat 8 (v.toNat / 256 ^ (b - a)) else s.sramByte b) ∧ (∀ b, t.hmByte b = s.hmByte b) ∧ ∀ b, t.reg b = s.reg b) ∧
  (∀ (s : State) (o : Origin) (r : MemRegion) (a : Nat) (v : Word),
      s.windowOpen o = true →
      a % 4 = 0 →
      memRegion a = some r →
      s.memWritable o r = false →
      s.safeState = false →
      bit (s.get Reg.FC_CFG_ESCALATE) 0 = false →
      Completes (.registerWrite o a v) s fun t =>
        t.reported .ACC_REFUSED ∧ MemoryKept s t) ∧
  (∀ (s : State) (o : Origin),
      s.accepts o Reg.a_GLB_LOCK 1#32 = true →
      Completes (.globalLockSet o) s fun t =>
        t.is Reg.GLB_LOCK_CFG = true ∧ ∀ a, a ≠ Reg.a_GLB_LOCK → t.reg a = s.reg a)

/-- A read of a register by a requester that reaches it answers the register's value. For a register without a side effect on a read, every
register, memory byte, interrupt source and pipe stays. A read of STAMP_LO answers the low 32 bits of the orbit stamp, and from then on
STAMP_HI reads for this requester the high bits of that stamp. A requester that does not reach the register is refused and nothing
changes. -/
def Obligations.LoReadLatchesItsHiPartner : Prop :=
  (∀ (s : State) (o : Origin) (a : Nat) (row : RegRow) (is : List Nat),
      s.emb.main = true →
      a % 4 = 0 →
      regAt a = some (row, is) →
      s.reaches o row.name = true →
      Completes (.loRegisterRead o a) s fun t =>
        t.outbox = [.data o a (leBytes 4 (s.readValue o a row is).toNat)]) ∧
  (∀ (s : State) (o : Origin) (a : Nat) (row : RegRow) (is : List Nat),
      s.emb.main = true →
      a % 4 = 0 →
      regAt a = some (row, is) →
      s.reaches o row.name = true →
      row.name ∉ [RegName.REC_D2, .REC_STAT, .TGT_CLAIM, .CL_LUT_DATA] →
      Completes (.loRegisterRead o a) s fun t =>
        t.regs = s.regs ∧ MemoryKept s t ∧ t.intc = s.intc ∧ t.pipes = s.pipes ∧ t.fc = s.fc) ∧
  (∀ (s : State) (o : Origin) (row : RegRow),
      s.emb.main = true →
      o ≠ .debug →
      (regAt Reg.a_STAMP_HI).map Prod.fst = some row →
      Completes (.loRegisterRead o Reg.a_STAMP_LO) s fun t =>
        t.outbox = [.data o Reg.a_STAMP_LO (leBytes 4 (s.orbit.stamp % 2 ^ 32))] ∧
        t.readValue o Reg.a_STAMP_HI row [] = BitVec.ofNat 32 (s.orbit.stamp / 2 ^ 32)) ∧
  (∀ (s : State) (o : Origin) (a : Nat) (row : RegRow) (is : List Nat),
      s.emb.main = true →
      a % 4 = 0 →
      regAt a = some (row, is) →
      s.reaches o row.name = false →
      exec (.loRegisterRead o a) s = .next (({ s with outbox := [] } : State).emit (.refused o a)).settled)

/-- An accepted write of CP_CTRL_n with GO while the port is not BUSY sets BUSY, clears VALID and captures PIPES, target, tag and flags; while
BUSY it only sets OVERRUN. ADMISSION of the captured commit clears BUSY and GO, sets VALID and CODE; in the safe state ports 0 and 1
answer REJ_OWNER (8) with CP_DETAIL 3, an empty CP_PIPES answers REJ_FORMAT (1) with detail 0x0A, and then no pipe's pending commits or
shown state change; nor do they with TEST_ONLY; an accepted commit appends one pending entry with its tag to every member pipe but a
stopped pipe that the commit leaves stopped, whose shown state becomes its shadow state at once. The injection FC_INJ.ADM is not armed: a
commit judged with it armed reports ADM_DUP. -/
def Obligations.CommitIsCapturedAndJudged : Prop :=
  (∀ (s : State) (o : Origin) (n : Nat) (v : Word),
      n < 3 →
      s.accepts o (Reg.a_CP_CTRL n) v = true →
      bit v.toNat 0 = true →
      s.is (Reg.CP_RESULT_BUSY n) = false →
      Completes (.commitGo o n v) s fun t =>
        t.get (Reg.CP_RESULT_BUSY n) = 1 ∧ t.get (Reg.CP_RESULT_VALID n) = 0 ∧ t.pipes = s.pipes ∧ t.hm = s.hm ∧
        t.orbit.go = s.orbit.go ++ [(n, { pipes := s.get (Reg.CP_PIPES_PIPES n), target := s.get (Reg.CP_TARGET_LO_TARGET n) + 2 ^ 32 * s.get (Reg.CP_TARGET_HI_TARGET n), tag := s.get (Reg.CP_TAG_TAG n), allOrHold := bit v.toNat 1, lateOk := bit v.toNat 2, testOnly := bit v.toNat 3 })]) ∧
  (∀ (s : State) (o : Origin) (n : Nat) (v : Word),
      n < 3 →
      s.accepts o (Reg.a_CP_CTRL n) v = true →
      bit v.toNat 0 = true →
      s.is (Reg.CP_RESULT_BUSY n) = true →
      exec (.commitGo o n v) s = .next (({ s with outbox := [] } : State).put (Reg.CP_RESULT_OVERRUN n) 1).settled) ∧
  (∀ (s : State) (n : Nat) (g : GoCap),
      n < 3 →
      s.orbit.go.find? (fun e => e.1 == n) = some (n, g) →
      s.is Reg.FC_INJ_ADM = false →
      Completes (.admission n) s fun t =>
        t.get (Reg.CP_RESULT_BUSY n) = 0 ∧ t.get (Reg.CP_RESULT_VALID n) = 1 ∧ t.get (Reg.CP_RESULT_CODE n) = (s.judgeGo n g (s.memberImgs g)).code % 16 ∧ t.get (Reg.CP_CTRL_GO n) = 0 ∧
        (t.orbit.go.all fun e => e.1 != n) = true) ∧
  (∀ (s : State) (n : Nat) (g : GoCap),
      n < 3 →
      s.orbit.go.find? (fun e => e.1 == n) = some (n, g) →
      s.is Reg.FC_INJ_ADM = false →
      s.safeState = true →
      n < 2 →
      Completes (.admission n) s fun t =>
        t.get (Reg.CP_RESULT_CODE n) = 8 ∧ t.get (Reg.CP_DETAIL_DETAIL n) = 3 ∧ (∀ p, (t.pipe p).pend = (s.pipe p).pend ∧ (t.pipe p).shown = (s.pipe p).shown)) ∧
  (∀ (s : State) (n : Nat) (g : GoCap),
      n < 3 →
      s.orbit.go.find? (fun e => e.1 == n) = some (n, g) →
      s.is Reg.FC_INJ_ADM = false →
      s.safeState = false ∨ n = 2 →
      maskBits 12 g.pipes = [] →
      Completes (.admission n) s fun t =>
        t.get (Reg.CP_RESULT_CODE n) = 1 ∧ t.get (Reg.CP_DETAIL_DETAIL n) = 10 ∧ (∀ p, (t.pipe p).pend = (s.pipe p).pend ∧ (t.pipe p).shown = (s.pipe p).shown)) ∧
  (∀ (s : State) (n : Nat) (g : GoCap),
      n < 3 →
      s.orbit.go.find? (fun e => e.1 == n) = some (n, g) →
      s.is Reg.FC_INJ_ADM = false →
      g.testOnly = true →
      Completes (.admission n) s fun t =>
        (∀ p, (t.pipe p).pend = (s.pipe p).pend ∧ (t.pipe p).shown = (s.pipe p).shown) ∧ t.orbit.sheds = s.orbit.sheds ∧ t.orbit.commits = s.orbit.commits) ∧
  (∀ (s : State) (n : Nat) (g : GoCap) (p : Nat),
      n < 3 →
      s.orbit.go.find? (fun e => e.1 == n) = some (n, g) →
      s.is Reg.FC_INJ_ADM = false →
      g.testOnly = false →
      (s.judgeGo n g (s.memberImgs g)).code = 0 →
      p < 12 →
      bit g.pipes p = true →
      (s.idleStopped p && imgGet (shadowImg s.regs p) (Reg.TG_CTRL_RUN p) == 0) = false →
      Completes (.admission n) s fun t =>
        ∃ c, (t.pipe p).pend = (s.pipe p).pend ++ [c] ∧ c.tag = g.tag ∧ c.port = n ∧ c.allOrHold = g.allOrHold ∧ c.img = shadowImg s.regs p) ∧
  (∀ (s : State) (n : Nat) (g : GoCap) (p : Nat),
      n < 3 →
      s.orbit.go.find? (fun e => e.1 == n) = some (n, g) →
      s.is Reg.FC_INJ_ADM = false →
      g.testOnly = false →
      (s.judgeGo n g (s.memberImgs g)).code = 0 →
      p < 12 →
      bit g.pipes p = true →
      s.idleStopped p = true →
      imgGet (shadowImg s.regs p) (Reg.TG_CTRL_RUN p) = 0 →
      Completes (.admission n) s fun t =>
        (t.pipe p).pend = [] ∧ (t.pipe p).shown = shadowImg s.regs p ∧ t.mode p = .stopped)

/-- The steps in force are those of layers that some evaluated state still names. AUTO_RESTORE_STEP with AUTO_RESTORE set, no restore yet in
this orbit, capacity regained for RESTORE_DELAY orbits and figures that fit with the last step undone: that step is undone, the other
steps in force stay, and no second restore happens in this orbit. With AUTO_RESTORE 0 it has no effect. SHED_RESTORE with RESTORE stores
its settings and then undoes one step under the same check, whatever AUTO_RESTORE says; without RESTORE it only stores its settings.
IDLE_GRANT_TIMER without a master raster grants and counts one orbit for QUIET, the stamp as it was; with one it has no effect. Where the
grant finds no injection and the budget in force unchanged, no pipe changes. -/
def Obligations.ShedStepsAreUndoneOneAtATime : Prop :=
  (∀ (s : State) (r : ShedRec) (rest : List ShedRec),
      s.is Reg.SHED_CTRL_AUTO_RESTORE = true →
      s.orbit.restored = false →
      s.regained = true →
      s.get Reg.SHED_CTRL_RESTORE_DELAY ≤ s.orbit.stable →
      (s.pruneSheds (occs (s.world []))).orbit.shedOrder = r :: rest →
      ((s.pruneSheds (occs (s.world []))).figures (SMap.set 0 (s.pruneSheds (occs (s.world []))).orbit.sheds r.layer (r.step - 1)) (s.world [])).fits = true →
      Completes (.autoRestoreStep) s fun t =>
        stepOf t.orbit.sheds r.layer = r.step - 1 ∧ t.orbit.shedOrder = rest ∧ t.orbit.restored = true ∧ (∀ l, l ≠ r.layer → stepOf t.orbit.sheds l = stepOf (s.pruneSheds (occs (s.world []))).orbit.sheds l) ∧
        t.regs = s.regs ∧ t.hm = s.hm) ∧
  (∀ (s : State),
      s.is Reg.SHED_CTRL_AUTO_RESTORE = false →
      exec .autoRestoreStep s = .next ({ s with outbox := [] } : State).settled) ∧
  (∀ (s : State) (o : Origin) (v : Word),
      s.accepts o Reg.a_SHED_CTRL v = true →
      Completes (.shedRestore o v) s fun t =>
        ∃ u : State, t = (if bit v.toNat 16 then u.undoShed else u).settled ∧ u.get Reg.SHED_CTRL_AUTO_RESTORE = bits v.toNat 0 0 ∧ u.get Reg.SHED_CTRL_RESTORE_DELAY = bits v.toNat 15 8 ∧
        u.orbit = s.orbit ∧ u.pipes = s.pipes ∧ u.hm = s.hm ∧ ∀ a, a ≠ Reg.a_SHED_CTRL → u.reg a = s.reg a) ∧
  (∀ (s : State),
      s.masterRuns = false →
      Completes (.idleGrantTimer) s fun t =>
        t.orbit.orbits = s.orbit.orbits + 1 ∧ t.orbit.stamp = s.orbit.stamp ∧ t.get Reg.PWR_STATUS_THERMAL_LIMIT = s.nextTl) ∧
  (∀ (s : State),
      s.masterRuns = false →
      s.is Reg.PWR_INJ_ARB = false →
      s.get Reg.PWR_STATUS_IN_FORCE = min (s.get Reg.PWR_BUDGET_TOKENS) s.nextTl →
      Completes (.idleGrantTimer) s fun t =>
        t.pipes = s.pipes ∧ t.get Reg.PWR_GRANT_ENC ≤ 8) ∧
  (∀ (s : State),
      s.masterRuns = true →
      exec .idleGrantTimer s = .next ({ s with outbox := [] } : State).settled)

/-- With FSYNC_IN selected as the master and present: an edge inside the acceptance window advances the orbit stamp by one, modulo 2^48, and
becomes the measured period; an edge outside it only adds to FSYNC_STATUS.STRAY, saturating. While FSYNC_IN is lost, an edge in the window
that is not yet the RETURN-th in a row is only counted, one outside it starts the count again, and the RETURN-th sets PRESENT and clears
COASTING. FSYNC_LOST clears PRESENT, sets COASTING, adds to LOSSES, leaves the stamp and starts the count of returning edges again. A
coasting master counts frames at FRAME_BOUNDARY of raster 15. Without FSYNC_IN as the master, or without its presence for FSYNC_LOST, the
rows have no effect. -/
def Obligations.FsyncEdgesDriveTheMaster : Prop :=
  (∀ (s : State) (dt since : Nat),
      s.masterSrc = 15 →
      s.is Reg.FSYNC_STATUS_PRESENT = true →
      s.fsyncInWindow dt = true →
      Completes (.fsyncEdge dt since) s fun t =>
        t.orbit.stamp = (s.orbit.stamp + 1) % 2 ^ 48 ∧ t.orbit.fsPeriod = dt ∧ t.orbit.orbits = s.orbit.orbits + 1) ∧
  (∀ (s : State) (dt since : Nat),
      s.masterSrc = 15 →
      s.is Reg.FSYNC_STATUS_PRESENT = true →
      s.fsyncInWindow dt = false →
      exec (.fsyncEdge dt since) s = .next (({ s with outbox := [] } : State).put Reg.FSYNC_STATUS_STRAY (min 255 (s.get Reg.FSYNC_STATUS_STRAY + 1))).settled) ∧
  (∀ (s : State) (dt since : Nat),
      s.masterSrc = 15 →
      s.is Reg.FSYNC_STATUS_PRESENT = false →
      s.fsyncInWindow dt = false ∨ s.orbit.fsReturn + 1 < max 1 (s.get Reg.FSYNC_CFG_RETURN) →
      exec (.fsyncEdge dt since) s = .next ({ s with outbox := [], orbit := { s.orbit with fsReturn := if s.fsyncInWindow dt then s.orbit.fsReturn + 1 else 0 } } : State).settled) ∧
  (∀ (s : State) (dt since : Nat),
      s.masterSrc = 15 →
      s.is Reg.FSYNC_STATUS_PRESENT = false →
      s.fsyncInWindow dt = true →
      s.get Reg.FSYNC_CFG_RETURN ≤ s.orbit.fsReturn + 1 →
      Completes (.fsyncEdge dt since) s fun t =>
        t.is Reg.FSYNC_STATUS_PRESENT = true ∧ t.is Reg.FSYNC_STATUS_COASTING = false ∧ t.orbit.fsReturn = 0 ∧ t.orbit.fsPeriod = dt) ∧
  (∀ (s : State) (dt since : Nat),
      s.masterSrc ≠ 15 →
      exec (.fsyncEdge dt since) s = .next ({ s with outbox := [] } : State).settled) ∧
  (∀ (s : State),
      s.masterSrc = 15 →
      s.is Reg.FSYNC_STATUS_PRESENT = true →
      Completes (.fsyncLost) s fun t =>
        t.is Reg.FSYNC_STATUS_PRESENT = false ∧ t.is Reg.FSYNC_STATUS_COASTING = true ∧ t.get Reg.FSYNC_STATUS_LOSSES = min 65535 (s.get Reg.FSYNC_STATUS_LOSSES + 1) ∧
        t.orbit = { s.orbit with fsReturn := 0 } ∧ t.pipes = s.pipes) ∧
  (∀ (s : State),
      s.masterSrc ≠ 15 ∨ s.is Reg.FSYNC_STATUS_PRESENT = false →
      exec (.fsyncLost) s = .next ({ s with outbox := [] } : State).settled) ∧
  (∀ (s : State) (e d : Int),
      s.masterSrc = 15 →
      s.is Reg.FSYNC_STATUS_COASTING = true →
      Completes (.frameBoundary 15 e d) s fun t =>
        t.orbit.stamp = (s.orbit.stamp + 1) % 2 ^ 48 ∧ t.orbit.orbits = s.orbit.orbits + 1)

/-- After the last line of a frame (line V_total - 1) of a pipe that runs, in Banked or outside it, with nothing latched for the next frame:
PIPE_POS.FRAME advances by one modulo 2^16, the raster is at line 0, the commit line, the Beacon line and the prefetch start lie ahead,
the shown layer state stays, and the frame takes the orbit stamp, which a boundary of the master pipe advances by one modulo 2^48 and any
other boundary leaves. With a state latched at the commit line that keeps the pipe running at its pixel clock, that state is shown. Before
the end of the last line, and on a stopped pipe, the row has no effect. -/
def Obligations.FrameBoundaryStartsTheNextFrame : Prop :=
  (∀ (s : State) (p : Nat) (e d : Int),
      p < 12 →
      s.mode p = .running ∨ s.mode p = .bankEntry ∨ s.mode p = .banked ∨ s.mode p = .bankExit →
      s.frameOver p = true →
      (s.pipe p).next = none →
      Completes (.frameBoundary p e d) s fun t =>
        t.get (Reg.PIPE_POS_FRAME p) = (s.get (Reg.PIPE_POS_FRAME p) + 1) % 2 ^ 16 ∧ (t.pipe p).nextLine = 0 ∧ (t.pipe p).commitDone = false ∧
        (t.pipe p).beaconDone = false ∧ (t.pipe p).prefetched = false ∧ (t.pipe p).frameStamp = t.orbit.stamp ∧ (t.pipe p).shown = (s.pipe p).shown ∧
        t.orbit.stamp = (if s.masterSrc = p then (s.orbit.stamp + 1) % 2 ^ 48 else s.orbit.stamp)) ∧
  (∀ (s : State) (p : Nat) (e d : Int) (n : NextState),
      p < 12 →
      s.mode p = .running →
      s.frameOver p = true →
      (s.pipe p).next = some n →
      imgGet n.img (Reg.TG_CTRL_RUN p) = 1 →
      clockChanges (s.pipe p).shown n.img p (s.pipe p).fNum (s.pipe p).fDen n.fNum n.fDen = false →
      Completes (.frameBoundary p e d) s fun t =>
        (t.pipe p).shown = n.img ∧ (t.pipe p).next = none ∧ (t.pipe p).nextLine = 0 ∧ t.get (Reg.PIPE_POS_FRAME p) = (s.get (Reg.PIPE_POS_FRAME p) + 1) % 2 ^ 16) ∧
  (∀ (s : State) (p : Nat) (e d : Int),
      p < 12 →
      s.counting p = true →
      s.frameOver p = false →
      exec (.frameBoundary p e d) s = .next ({ s with outbox := [] } : State).settled) ∧
  (∀ (s : State) (p : Nat) (e d : Int),
      p < 12 →
      s.mode p = .stopped →
      exec (.frameBoundary p e d) s = .next ({ s with outbox := [] } : State).settled)

/-- At the end of the commit line of a counting pipe (line V_total - COMMIT_LEAD, limited as R17 says) the check of the frame is made: the
shown layer state and the orbit stamp stay. On a running pipe with no Beacon change and no state waiting for the next frame, and with one
due HOLD-LAYER commit that keeps the pipe running and whose slots are all ready: the commit's layer state and tag wait for the next frame
and the commit leaves the pending queue. At any other line, and a second time in one frame, the row has no effect. A held slot of a
counting pipe that has waited STALE_LIMIT frames takes its action for the next frame and no other slot does. At the end of the Beacon line
of a counting pipe (line V_total - BEACON_LEAD) the tell-tales of the coming frame are latched: none where the coming frame has no Beacon,
and otherwise with the configuration that the tell-tale registers hold now; the shown state and the pending commits stay; at any other
line, and a second time in one frame, the row has no effect. At the end of the line before line V_total - 16 of a counting pipe the coming
frame may be fetched; on a pipe that does not leave Banked nothing else changes. -/
def Obligations.CommitLineFixesTheNextFrame : Prop :=
  (∀ (s : State) (p : Nat),
      p < 12 →
      s.counting p = true →
      (s.pipe p).commitDone = false →
      s.atEndOf p (s.commitLineNow p) = true →
      Completes (.commitLine p) s fun t =>
        (t.pipe p).commitDone = true ∧ (t.pipe p).shown = (s.pipe p).shown ∧ t.orbit.stamp = s.orbit.stamp) ∧
  (∀ (s : State) (p : Nat) (c : Pend),
      p < 12 →
      s.mode p = .running →
      (s.pipe p).commitDone = false →
      s.atEndOf p (s.commitLineNow p) = true →
      (s.pipe p).next = none →
      s.bc.applyPipes.contains p = false →
      s.dueCommits p = [c] →
      c.allOrHold = false →
      s.unready p c.img = [] →
      imgGet c.img (Reg.TG_CTRL_RUN p) = 1 →
      c.released = 0 →
      Completes (.commitLine p) s fun t =>
        (∃ n, (t.pipe p).next = some n ∧ n.tag = some c.tag ∧ n.img = c.img ∧ n.held = []) ∧ (t.pipe p).commitDone = true ∧
        (∀ x, x ∈ (t.pipe p).pend → x.id ≠ c.id)) ∧
  (∀ (s : State) (p : Nat),
      p < 12 →
      (s.pipe p).commitDone = true ∨ s.atEndOf p (s.commitLineNow p) = false →
      exec (.commitLine p) s = .next ({ s with outbox := [] } : State).settled) ∧
  (∀ (s : State) (p k : Nat) (w : List (Nat × Word)),
      p < 12 →
      k < 8 →
      s.counting p = true →
      (s.pipe p).keepNext.held.find? (fun e => e.1 == k) = some (k, w) →
      ((s.pipe p).slot k).held = true →
      (s.pipe p).keepNext.stale.contains k = false →
      (declOf (withSlot (s.pipe p).shown p k w) p k).staleLimit ≠ 0 →
      (declOf (withSlot (s.pipe p).shown p k w) p k).staleLimit ≤ ((s.pipe p).slot k).heldFrames →
      Completes (.staleLimit p k) s fun t =>
        ∃ n, (t.pipe p).next = some n ∧ n.stale = (s.pipe p).keepNext.stale ++ [k] ∧ n.img = withSlot (s.pipe p).keepNext.img p k w ∧ n.held = (s.pipe p).keepNext.held) ∧
  (∀ (s : State) (p : Nat),
      p < 12 →
      s.counting p = true →
      (s.pipe p).beaconDone = false →
      s.atEndOf p (s.beaconLineNow p) = true →
      Completes (.beaconLine p) s fun t =>
        (t.pipe p).beaconDone = true ∧ (t.pipe p).shown = (s.pipe p).shown ∧ (t.pipe p).pend = (s.pipe p).pend ∧
        (((s.pipe p).bcnNext.getD (s.pipe p).bcn).isNone = true → (t.pipe p).ttNext = [] ∧ (t.pipe p).ttImgNext = none) ∧
        (((s.pipe p).bcnNext.getD (s.pipe p).bcn).isSome = true → (t.pipe p).ttImgNext = some (s.regs.filter fun e => ttCfgAddr e.1))) ∧
  (∀ (s : State) (p : Nat),
      p < 12 →
      (s.pipe p).beaconDone = true ∨ s.atEndOf p (s.beaconLineNow p) = false →
      exec (.beaconLine p) s = .next ({ s with outbox := [] } : State).settled) ∧
  (∀ (s : State) (p : Nat),
      p < 12 →
      s.counting p = true →
      (s.pipe p).nextLine + 16 = s.frameLines p →
      Completes (.prefetchStart p) s fun t =>
        (t.pipe p).prefetched = true ∧ (t.pipe p).shown = (s.pipe p).shown ∧ MemoryKept s t) ∧
  (∀ (s : State) (p : Nat),
      p < 12 →
      s.counting p = true →
      s.mode p ≠ .bankExit →
      (s.pipe p).nextLine + 16 = s.frameLines p →
      exec (.prefetchStart p) s = .next (({ s with outbox := [] } : State).modPipe p fun x => { x with prefetched := true }).settled)

/-- LINE_EMIT of a counting pipe advances its raster by exactly one line and leaves its shown layer state; past the last line of the frame it
has no effect. An active line outside Banked shows its number in PIPE_POS.LINE. A blanking line changes no byte of Hearth or SRAM.
WITNESS_CLOSE moves every capture whose lines are all taken, of a running session that records the pipe, out of the capture; where the
captures of the pipe hold whole pairs of lines, the capture with its stamp is the last of the frames of its session that wait to be coded,
its session is in the coding order, and the pipes and the registers stay. -/
def Obligations.LinesAreEmittedInOrder : Prop :=
  (∀ (s : State) (p reached : Nat) (full : Bool),
      p < 12 →
      s.counting p = true →
      (s.pipe p).nextLine < s.frameLines p →
      Completes (.lineEmit p reached full) s fun t =>
        (t.pipe p).nextLine = (s.pipe p).nextLine + 1 ∧ (t.pipe p).shown = (s.pipe p).shown) ∧
  (∀ (s : State) (p reached : Nat) (full : Bool),
      p < 12 →
      s.counting p = true →
      (timingOf (s.pipe p).shown p).vAct ≤ (s.pipe p).nextLine →
      (s.pipe p).nextLine < s.frameLines p →
      Completes (.lineEmit p reached full) s fun t =>
        MemoryKept s t) ∧
  (∀ (s : State) (p reached : Nat) (full : Bool),
      p < 12 →
      s.counting p = true →
      s.mode p ≠ .banked →
      s.mode p ≠ .bankExit →
      (s.pipe p).nextLine < (timingOf (s.pipe p).shown p).vAct →
      (s.pipe p).nextLine < s.frameLines p →
      (s.pipe p).nextLine < 2 ^ 13 →
      Completes (.lineEmit p reached full) s fun t =>
        t.get (Reg.PIPE_POS_LINE p) = (s.pipe p).nextLine) ∧
  (∀ (s : State) (p reached : Nat) (full : Bool),
      p < 12 →
      s.frameLines p ≤ (s.pipe p).nextLine →
      exec (.lineEmit p reached full) s = .next ({ s with outbox := [] } : State).settled) ∧
  (∀ (s : State) (p i : Nat) (c : CapFrame),
      p < 12 →
      i ∈ s.sessionsOn p →
      (s.eses i).cap = some c →
      c.slot = none ∨ c.h ≤ c.lines →
      Completes (.witnessClose p) s fun t =>
        (t.eses i).cap = none) ∧
  (∀ (s : State) (p i : Nat) (c : CapFrame),
      p < 12 →
      i ∈ s.sessionsOn p →
      (s.eses i).cap = some c →
      c.slot = none ∨ c.h ≤ c.lines →
      ∀ j ∈ s.sessionsOn p, ((s.eses j).cap.all fun d => d.half.isEmpty) = true →
      Completes (.witnessClose p) s fun t =>
        (t.eses i).cap = none ∧ (∃ d, (t.eses i).frames = (s.eses i).frames ++ [d] ∧ d.stamp = c.stamp ∧ d.seq = c.seq) ∧ i ∈ t.enc.order ∧ t.pipes = s.pipes ∧ t.regs = s.regs)

/-- T_PWR_ON_ELAPSED on a starting pipe in step 1 starts the pixel PLL's lock and port training from DETECT. RASTER_RESTART on a starting pipe
whose PLL has locked and whose port has trained, or on a relocking pipe whose PLL has locked, restarts the raster and clears TG_VADJ.
BACKLIGHT_ON when its frame has come starts the PWM and, in SEQ mode, asserts the backlight. T_BL_OFF_ELAPSED on a stopping pipe in step 1
stops the PLL and takes the port to electrical idle. T_PWR_OFF_ELAPSED on a stopping pipe in step 2 makes it STOPPED with the panel power
off in SEQ mode: with its stop commit the only one pending, that commit's state is active and nothing is pending; stopped by a clock
failure the pipe keeps its committed state. PWM_PERIOD_START loads the duty, and never below BL_PWM_MIN on a pipe with Beacon. In any
other step these rows have no effect. -/
def Obligations.StartAndStopFollowTheSequence : Prop :=
  (∀ (s : State) (p : Nat),
      p < 12 →
      s.mode p = .starting →
      (s.pipe p).seqStep = 1 →
      Completes (.tPwrOnElapsed p) s fun t =>
        (t.pipe p).seqStep = 2 ∧ t.get (Reg.PLL_STATUS_STATE p) = 1 ∧ t.get (Reg.CG_STATUS_STATE p) = 1 ∧ t.mode p = .starting ∧ (t.pipe p).pllOk = false) ∧
  (∀ (s : State) (p : Nat),
      p < 12 →
      s.mode p ≠ .starting ∨ (s.pipe p).seqStep ≠ 1 →
      exec (.tPwrOnElapsed p) s = .next ({ s with outbox := [] } : State).settled) ∧
  (∀ (s : State) (p : Nat),
      p < 12 →
      (s.pipe p).seqStep = 2 →
      s.mode p = .starting ∧ (s.pipe p).pllOk = true ∧ (s.pipe p).trainOk = true ∨ s.mode p = .relock ∧ (s.pipe p).pllOk = true →
      Completes (.rasterRestart p) s fun t =>
        (t.pipe p).seqStep = 3 ∧ t.get (Reg.TG_VADJ_LINES p) = 0 ∧ t.get (Reg.TG_VADJ_REMAINDER p) = 0 ∧ t.mode p = s.mode p ∧ t.orbit = s.orbit) ∧
  (∀ (s : State) (p : Nat),
      p < 12 →
      (s.pipe p).seqStep ≠ 2 →
      exec (.rasterRestart p) s = .next ({ s with outbox := [] } : State).settled) ∧
  (∀ (s : State) (p : Nat),
      p < 12 →
      (s.pipe p).blOnIn = some 0 →
      s.safeState = false ∨ s.is (Reg.PNL_CFG_SAFE_BL p) = false →
      Completes (.backlightOn p) s fun t =>
        (s.get (Reg.PNL_CFG_BL_MODE p) = 0 → t.get (Reg.PNL_OUT_BL_PIN p) = 1) ∧ (t.pipe p).pwmOn = true ∧ (t.pipe p).blOnIn = none ∧ t.mode p = s.mode p) ∧
  (∀ (s : State) (p : Nat),
      p < 12 →
      (s.pipe p).blOnIn ≠ some 0 →
      exec (.backlightOn p) s = .next ({ s with outbox := [] } : State).settled) ∧
  (∀ (s : State) (p : Nat),
      p < 12 →
      s.mode p = .stopping →
      (s.pipe p).seqStep = 1 →
      Completes (.tBlOffElapsed p) s fun t =>
        t.get (Reg.PLL_STATUS_STATE p) = 0 ∧ t.get (Reg.CG_STATUS_STATE p) = 0 ∧ t.get (Reg.CG_STATUS_BC_LOCK p) = 0 ∧ (t.pipe p).seqStep = 2 ∧ t.mode p = .stopping) ∧
  (∀ (s : State) (p : Nat),
      p < 12 →
      s.mode p = .stopping →
      (s.pipe p).seqStep = 2 →
      (s.pll p).failed = true →
      s.get (Reg.PNL_CFG_PWR_MODE p) = 0 →
      Completes (.tPwrOffElapsed p) s fun t =>
        t.mode p = .stopped ∧ (t.pipe p).pwrPin = false ∧ t.get (Reg.PNL_OUT_PWR_PIN p) = 0 ∧ (t.pipe p).shown = (s.pipe p).shown) ∧
  (∀ (s : State) (p : Nat) (c : Pend),
      p < 12 →
      s.mode p = .stopping →
      (s.pipe p).seqStep = 2 →
      (s.pll p).failed = false →
      (s.pipe p).pend = [c] →
      imgGet c.img (Reg.TG_CTRL_RUN p) = 0 →
      Completes (.tPwrOffElapsed p) s fun t =>
        t.mode p = .stopped ∧ (t.pipe p).shown = c.img ∧ (t.pipe p).pend = [] ∧ (s.get (Reg.PNL_CFG_PWR_MODE p) = 0 → (t.pipe p).pwrPin = false)) ∧
  (∀ (s : State) (p : Nat),
      p < 12 →
      s.mode p ≠ .stopping ∨ (s.pipe p).seqStep ≠ 2 →
      exec (.tPwrOffElapsed p) s = .next ({ s with outbox := [] } : State).settled) ∧
  (∀ (s : State) (p : Nat),
      p < 12 →
      s.mode p ≠ .stopping ∨ (s.pipe p).seqStep ≠ 1 →
      exec (.tBlOffElapsed p) s = .next ({ s with outbox := [] } : State).settled) ∧
  (∀ (s : State) (p : Nat),
      p < 12 →
      (s.pipe p).pwmOn = true →
      Completes (.pwmPeriodStart p) s fun t =>
        (t.pipe p).pwmDuty = (if s.beaconOn p then max (s.get (Reg.BL_PWM_DUTY_DUTY p)) (s.get (Reg.BL_PWM_MIN_DUTY p)) else s.get (Reg.BL_PWM_DUTY_DUTY p)) ∧ t.regs = s.regs) ∧
  (∀ (s : State) (o : Origin) (p : Nat) (v : Word),
      p < 12 →
      s.accepts o (Reg.a_PNL_OUT p) v = true →
      s.get (Reg.PNL_CFG_PWR_MODE p) = 1 →
      s.get (Reg.PNL_CFG_BL_MODE p) = 0 →
      o = .sp ∨ s.pnlGuard p v.toNat = false →
      Completes (.pnlOutWrite o p v) s fun t =>
        (t.pipe p).pwrPin = bit v.toNat 0 ∧ t.get (Reg.PNL_OUT_PWR_LVL p) = bits v.toNat 0 0 ∧ (t.pipe p).blPin = (s.pipe p).blPin) ∧
  (∀ (s : State) (o : Origin) (p : Nat) (v : Word),
      p < 12 →
      s.accepts o (Reg.a_PNL_OUT p) v = true →
      o ≠ .sp →
      s.pnlGuard p v.toNat = true →
      bit (s.get Reg.FC_CFG_ESCALATE) 0 = false →
      Completes (.pnlOutWrite o p v) s fun t =>
        t.reported .ACC_REFUSED ∧ (t.pipe p).pwrPin = (s.pipe p).pwrPin ∧ t.get (Reg.PNL_OUT_PWR_LVL p) = s.get (Reg.PNL_OUT_PWR_LVL p))

/-- HEARTH_WINDOW_WRITE by an admitted requester, in the safe state not by the HOST path, with Hearth READY, whose cells are all free and in
unfenced channels and whose partly covered words are correct: exactly the addressed bytes take the written values; every other byte of
Hearth and SRAM stays. Whatever a write meets, no byte outside its range and no byte of a cell that a handle, a codec session or the
metadata holds or of a fenced channel changes, and a write that reaches such a cell sets RAW_WR_DROP. HEARTH_WINDOW_READ of words that
hold no uncorrectable pattern answers the addressed bytes and changes no byte; a read that reaches an unreadable channel answers an error
and 0. Before READY and in self-refresh an access is held and changes no byte. A requester that access control keeps out of the window is
refused. -/
def Obligations.HearthWindowReachesFreeCells : Prop :=
  (∀ (s : State) (o : Origin) (a : Nat) (bs : List Byte),
      s.windowOpen o = true →
      a + bs.length ≤ 2 ^ 28 →
      bs ≠ [] →
      s.safeState = false ∨ isHostPath o = false →
      s.hmHeld = false →
      (cellSplits a bs.length).all (fun r => !s.windowDrops (r.1 / 65536)) = true →
      ((cellSplits a bs.length).flatMap fun r => partialAt r.1 r.2).all (fun w => !s.forcedDouble w) = true →
      Completes (.hearthWindowWrite o a bs .clean) s fun t =>
        (∀ b, t.hmByte b = if a ≤ b ∧ b < a + bs.length then bs.getD (b - a) 0#8 else s.hmByte b) ∧ (∀ b, t.sramByte b = s.sramByte b) ∧ t.regs = s.regs) ∧
  (∀ (s : State) (o : Origin) (a : Nat) (bs : List Byte) (e : ReadEvent),
      s.windowOpen o = true →
      a + bs.length ≤ 2 ^ 28 →
      bs ≠ [] →
      s.safeState = false ∨ isHostPath o = false →
      s.hmHeld = false →
      Completes (.hearthWindowWrite o a bs e) s fun t =>
        (∀ b, b < a ∨ a + bs.length ≤ b ∨ s.windowDrops (b / 65536) = true → t.hmByte b = s.hmByte b) ∧
        ((cellSplits a bs.length).any (fun r => s.windowDrops (r.1 / 65536)) = true → t.is Reg.HM_STATUS_RAW_WR_DROP = true)) ∧
  (∀ (s : State) (o : Origin) (a : Nat) (bs : List Byte) (e : ReadEvent),
      s.windowOpen o = true →
      a + bs.length ≤ 2 ^ 28 →
      bs ≠ [] →
      s.safeState = false ∨ isHostPath o = false →
      s.hmHeld = true →
      Completes (.hearthWindowWrite o a bs e) s fun t =>
        t.hm.heldAcc = s.hm.heldAcc ++ [.access o a (some bs) bs.length none] ∧ MemoryKept s t ∧ t.regs = s.regs) ∧
  (∀ (s : State) (o : Origin) (a n : Nat),
      s.windowOpen o = true →
      a + n ≤ 2 ^ 28 →
      n ≠ 0 →
      s.hmHeld = false →
      (wordsOf a n).all (fun w => !s.forcedDouble w) = true →
      Completes (.hearthWindowRead o a n .clean) s fun t =>
        t.outbox = [.data o a (loadBytes s.hm.mem a n)] ∧ MemoryKept s t ∧ t.regs = s.regs) ∧
  (∀ (s : State) (o : Origin) (a n : Nat) (e : ReadEvent),
      s.windowOpen o = true →
      a + n ≤ 2 ^ 28 →
      n ≠ 0 →
      s.hmHeld = false →
      (cellSplits a n).any (fun r => s.unreadable (chanOfAddr r.1)) = true →
      exec (.hearthWindowRead o a n e) s = .next ((({ s with outbox := [] } : State).emit (.error o a)).emit (.data o a (List.replicate n 0#8))).settled) ∧
  (∀ (s : State) (o : Origin) (a n : Nat) (e : ReadEvent),
      s.windowOpen o = true →
      a + n ≤ 2 ^ 28 →
      n ≠ 0 →
      s.hmHeld = true →
      Completes (.hearthWindowRead o a n e) s fun t =>
        t.hm.heldAcc = s.hm.heldAcc ++ [.access o a none n none] ∧ MemoryKept s t ∧ t.regs = s.regs ∧ t.outbox = []) ∧
  (∀ (s : State) (o : Origin) (a n : Nat) (e : ReadEvent),
      s.windowOpen o = false →
      exec (.hearthWindowRead o a n e) s = .next (({ s with outbox := [] } : State).emit (.refused o a)).settled)

/-- The acknowledgement of the i-th write in flight takes it out of flight. A write of whole words within one cell of a FILLING buffer, in a
readable channel, stores its bytes from the physical address of its offset; that of a writeback does so where the buffer is not pinned.
Whatever the write meets, no byte of a cell that the buffer does not hold changes. A write of a DMA channel or a decoder session to a
pinned buffer that is not FILLING changes no byte and, for a DMA channel, flags PINNED_WRITE. A writeback whose buffer is pinned abandons
its frame: PINNED_WRITE is set, no write of the frame is left in flight and no byte changes. -/
def Obligations.WritesByHandleStayInTheirBuffer : Prop :=
  (∀ (s : State) (i : Nat) (w : HmWrite) (a : Nat),
      s.hm.writes[i]? = some w →
      (s.handle w.handle).st = .filling →
      w.writer < 160 ∨ s.pinned w.handle = false →
      w.stale = false →
      w.off % 32 = 0 →
      w.bytes.length % 32 = 0 →
      w.bytes ≠ [] →
      w.off % 65536 + w.bytes.length ≤ 65536 →
      (s.handle w.handle).addr w.plane w.off = some a →
      s.unreadable (chanOfAddr a) = false →
      Completes (.hearthWriteAck i .clean) s fun t =>
        (∀ b, t.hmByte b = if a ≤ b ∧ b < a + w.bytes.length then w.bytes.getD (b - a) 0#8 else s.hmByte b) ∧ t.hm.writes = s.hm.writes.eraseIdx i ∧ t.sram = s.sram ∧ t.regs = s.regs) ∧
  (∀ (s : State) (i : Nat) (w : HmWrite) (e : ReadEvent),
      s.hm.writes[i]? = some w →
      Completes (.hearthWriteAck i e) s fun t =>
        ∀ b, (s.handle w.handle).cells.flatten.contains (b / 65536) = false → t.hmByte b = s.hmByte b) ∧
  (∀ (s : State) (i : Nat) (w : HmWrite) (e : ReadEvent),
      s.hm.writes[i]? = some w →
      s.pinned w.handle = true →
      (s.handle w.handle).st ≠ .filling →
      w.writer < 144 →
      Completes (.hearthWriteAck i e) s fun t =>
        MemoryKept s t ∧ (w.writer < 112 → t.get (Reg.CH_STATUS_PINNED_WRITE w.writer) = 1) ∧ t.hm.writes = s.hm.writes.eraseIdx i) ∧
  (∀ (s : State) (i : Nat) (w : HmWrite) (p par : Nat) (e : ReadEvent),
      s.hm.writes[i]? = some w →
      p < 12 →
      par < 2 →
      w.writer = wbWriter p par →
      s.pinned w.handle = true →
      Completes (.hearthWriteAck i e) s fun t =>
        MemoryKept s t ∧ t.get (Reg.WB_STATUS_PINNED_WRITE p) = 1 ∧ t.inFlight w.writer = false)

/-- On a port that is not BUSY, with Hearth READY: ALLOC of a free handle whose planes fit gives it to the port, EMPTY, with the sizes and
cells found; FREE of an unpinned handle of the port with no writer frees it; RESET of an unpinned FAULTED or RELEASED buffer makes it
EMPTY; TRIM of an unpinned SEALED buffer shortens plane 1; QUERY shows the plane sizes. No other handle changes, and the result code 0
waits to be latched. A FREE by a port that does not own the handle answers 4 and changes no handle. A command written while BUSY only sets
OVERRUN. The latch shows CODE, sets VALID, clears BUSY and sets source 179 + n pending. -/
def Obligations.HandleCommandsFollowTable : Prop :=
  (∀ (s : State) (o : Origin) (n : Nat) (cells : List (List Nat)),
      n < 3 →
      s.accepts o (Reg.a_HP_CMD n) 1#32 = true →
      s.is (Reg.HP_RESULT_BUSY n) = false →
      s.hmHeld = false →
      (s.handle (s.get (Reg.HP_SEL_HANDLE n))).alloc = false →
      s.get (Reg.HP_SIZE0_BYTES n) ≠ 0 →
      (allocSizes (s.get (Reg.HP_SIZE0_BYTES n)) (s.get (Reg.HP_SIZE1_BYTES n)) (s.get (Reg.HP_SIZE2_BYTES n))).all (fun z => z ≤ 64 * 1024 * 1024) = true →
      s.heldCells.length + sumNat ((allocSizes (s.get (Reg.HP_SIZE0_BYTES n)) (s.get (Reg.HP_SIZE1_BYTES n)) (s.get (Reg.HP_SIZE2_BYTES n))).map fun z => cdiv z 65536) ≤ s.freeLimit →
      s.placePlanes s.heldCells (allocSizes (s.get (Reg.HP_SIZE0_BYTES n)) (s.get (Reg.HP_SIZE1_BYTES n)) (s.get (Reg.HP_SIZE2_BYTES n))) = some cells →
      Completes (.alloc o n) s fun t =>
        (t.handle (s.get (Reg.HP_SEL_HANDLE n))).alloc = true ∧ (t.handle (s.get (Reg.HP_SEL_HANDLE n))).owner = n + 1 ∧ (t.handle (s.get (Reg.HP_SEL_HANDLE n))).st = .empty ∧ (t.handle (s.get (Reg.HP_SEL_HANDLE n))).cells = cells ∧
        (∀ x, x ≠ s.get (Reg.HP_SEL_HANDLE n) → t.handle x = s.handle x) ∧ t.is (Reg.HP_RESULT_BUSY n) = true ∧ (n, ⟨1, s.get (Reg.HP_SEL_HANDLE n), 0, true⟩) ∈ t.hm.busy) ∧
  (∀ (s : State) (o : Origin) (n : Nat),
      n < 3 →
      s.accepts o (Reg.a_HP_CMD n) 2#32 = true →
      s.is (Reg.HP_RESULT_BUSY n) = false →
      s.hmHeld = false →
      (s.handle (s.get (Reg.HP_SEL_HANDLE n))).alloc = true →
      (s.handle (s.get (Reg.HP_SEL_HANDLE n))).owner = n + 1 →
      s.pinned (s.get (Reg.HP_SEL_HANDLE n)) = false →
      s.busyDma (s.get (Reg.HP_SEL_HANDLE n)) = false →
      Completes (.free o n) s fun t =>
        t.handle (s.get (Reg.HP_SEL_HANDLE n)) = {} ∧ (∀ x, x ≠ s.get (Reg.HP_SEL_HANDLE n) → t.handle x = s.handle x) ∧ t.is (Reg.HP_RESULT_BUSY n) = true ∧ (n, ⟨2, s.get (Reg.HP_SEL_HANDLE n), 0, true⟩) ∈ t.hm.busy) ∧
  (∀ (s : State) (o : Origin) (n : Nat),
      n < 3 →
      s.accepts o (Reg.a_HP_CMD n) 2#32 = true →
      s.is (Reg.HP_RESULT_BUSY n) = false →
      s.hmHeld = false →
      (s.handle (s.get (Reg.HP_SEL_HANDLE n))).alloc = true →
      (s.handle (s.get (Reg.HP_SEL_HANDLE n))).owner ≠ n + 1 →
      Completes (.free o n) s fun t =>
        t.hm.handles = s.hm.handles ∧ t.is (Reg.HP_RESULT_BUSY n) = true ∧ (n, ⟨2, s.get (Reg.HP_SEL_HANDLE n), 4, true⟩) ∈ t.hm.busy) ∧
  (∀ (s : State) (o : Origin) (n : Nat),
      n < 3 →
      s.accepts o (Reg.a_HP_CMD n) 3#32 = true →
      s.is (Reg.HP_RESULT_BUSY n) = false →
      s.hmHeld = false →
      (s.handle (s.get (Reg.HP_SEL_HANDLE n))).alloc = true →
      (s.handle (s.get (Reg.HP_SEL_HANDLE n))).owner = n + 1 →
      s.pinned (s.get (Reg.HP_SEL_HANDLE n)) = false →
      (s.handle (s.get (Reg.HP_SEL_HANDLE n))).st = .faulted ∨ (s.handle (s.get (Reg.HP_SEL_HANDLE n))).st = .released →
      Completes (.reset o n) s fun t =>
        t.handle (s.get (Reg.HP_SEL_HANDLE n)) = { s.handle (s.get (Reg.HP_SEL_HANDLE n)) with st := .empty } ∧ (∀ x, x ≠ s.get (Reg.HP_SEL_HANDLE n) → t.handle x = s.handle x) ∧ t.is (Reg.HP_RESULT_BUSY n) = true ∧ (n, ⟨3, s.get (Reg.HP_SEL_HANDLE n), 0, true⟩) ∈ t.hm.busy) ∧
  (∀ (s : State) (o : Origin) (n : Nat) (z : Nat) (cs : List Nat),
      n < 3 →
      s.accepts o (Reg.a_HP_CMD n) 4#32 = true →
      s.is (Reg.HP_RESULT_BUSY n) = false →
      s.hmHeld = false →
      (s.handle (s.get (Reg.HP_SEL_HANDLE n))).alloc = true →
      (s.handle (s.get (Reg.HP_SEL_HANDLE n))).owner = n + 1 →
      (s.handle (s.get (Reg.HP_SEL_HANDLE n))).st = .sealed →
      s.pinned (s.get (Reg.HP_SEL_HANDLE n)) = false →
      (s.handle (s.get (Reg.HP_SEL_HANDLE n))).sizes[1]? = some z →
      (s.handle (s.get (Reg.HP_SEL_HANDLE n))).cells[1]? = some cs →
      s.get (Reg.HP_SIZE1_BYTES n) ≤ z →
      Completes (.trim o n) s fun t =>
        (t.handle (s.get (Reg.HP_SEL_HANDLE n))).sizes[1]? = some (s.get (Reg.HP_SIZE1_BYTES n)) ∧ (t.handle (s.get (Reg.HP_SEL_HANDLE n))).cells[1]? = some (cs.take (cdiv (s.get (Reg.HP_SIZE1_BYTES n)) 65536)) ∧
        (t.handle (s.get (Reg.HP_SEL_HANDLE n))).st = .sealed ∧ (∀ x, x ≠ s.get (Reg.HP_SEL_HANDLE n) → t.handle x = s.handle x) ∧ t.is (Reg.HP_RESULT_BUSY n) = true ∧ (n, ⟨4, s.get (Reg.HP_SEL_HANDLE n), 0, true⟩) ∈ t.hm.busy) ∧
  (∀ (s : State) (o : Origin) (n : Nat),
      n < 3 →
      s.accepts o (Reg.a_HP_CMD n) 5#32 = true →
      s.is (Reg.HP_RESULT_BUSY n) = false →
      s.hmHeld = false →
      (s.handle (s.get (Reg.HP_SEL_HANDLE n))).alloc = true →
      (s.handle (s.get (Reg.HP_SEL_HANDLE n))).sizes.all (fun z => z < 2 ^ 27) = true →
      Completes (.query o n) s fun t =>
        t.get (Reg.HP_SIZE0_BYTES n) = ((s.handle (s.get (Reg.HP_SEL_HANDLE n))).sizes[0]?).getD 0 ∧ t.get (Reg.HP_SIZE1_BYTES n) = ((s.handle (s.get (Reg.HP_SEL_HANDLE n))).sizes[1]?).getD 0 ∧ t.hm.handles = s.hm.handles ∧ t.is (Reg.HP_RESULT_BUSY n) = true ∧ (n, ⟨5, s.get (Reg.HP_SEL_HANDLE n), 0, true⟩) ∈ t.hm.busy) ∧
  (∀ (s : State) (o : Origin) (n : Nat),
      n < 3 →
      s.accepts o (Reg.a_HP_CMD n) 1#32 = true →
      s.is (Reg.HP_RESULT_BUSY n) = true →
      exec (.alloc o n) s = .next (({ s with outbox := [] } : State).put (Reg.HP_RESULT_OVERRUN n) 1).settled) ∧
  (∀ (s : State) (n : Nat) (c : HpCmd),
      n < 3 →
      s.hm.busy.find? (fun e => e.1 == n) = some (n, c) →
      c.ran = true →
      c.code < 16 →
      Completes (.handleResultLatch n) s fun t =>
        t.get (Reg.HP_RESULT_CODE n) = c.code ∧ t.is (Reg.HP_RESULT_VALID n) = true ∧ t.is (Reg.HP_RESULT_BUSY n) = false ∧ (t.src (179 + n)).pend = true ∧
        t.hm.handles = s.hm.handles)

/-- HEARTH_READ of a clean word delivers its 32 bytes and changes no byte; a single-bit error delivers the word, awaits the write-back and
raises HM_ECC_CORR; an uncorrectable first read delivers nothing and awaits its re-read. ECC_REREAD that meets the word clean or corrected
raises HM_ECC_REREAD and delivers it; one that meets it uncorrectable raises HM_ECC_UNCORR. ECC_WRITEBACK ends the wait of its word and
leaves every byte as it was. SCRUB_READ of a clean word changes no byte and passes to the next word. ECC_INJ and INJ_PAR arm their
channels' injections and change no byte. -/
def Obligations.ReadErrorsFollowTheClasses : Prop :=
  (∀ (s : State) (r : Reader) (a : Nat),
      a % 32 = 0 →
      a < 2 ^ 28 →
      s.hmHeld = false →
      s.forcedDouble a = false →
      Completes (.hearthRead r a .clean) s fun t =>
        t.outbox = [.hmWord a (loadBytes s.hm.mem a 32)] ∧ MemoryKept s t ∧ t.regs = s.regs ∧ t.fc = s.fc) ∧
  (∀ (s : State) (r : Reader) (a : Nat) (pos : Nat),
      a % 32 = 0 →
      a < 2 ^ 28 →
      s.hmHeld = false →
      s.forcedDouble a = false →
      Completes (.hearthRead r a (.single pos)) s fun t =>
        .hmWord a (loadBytes s.hm.mem a 32) ∈ t.outbox ∧ t.reported .HM_ECC_CORR ∧ t.hm.pendingWb = a :: s.hm.pendingWb ∧ MemoryKept s t) ∧
  (∀ (s : State) (r : Reader) (a : Nat),
      a % 32 = 0 →
      a < 2 ^ 28 →
      s.hmHeld = false →
      Completes (.hearthRead r a .double) s fun t =>
        t.outbox = [] ∧ t.hm.rereads.length = s.hm.rereads.length + 1 ∧ MemoryKept s t ∧ t.regs = s.regs) ∧
  (∀ (s : State) (r : Reader) (a : Nat) (x : Reread),
      a % 32 = 0 →
      s.hm.rereads.find? (fun y => y.r == r && y.a == a) = some x →
      s.hm.badWords.contains a = false →
      s.unreadable (chanOfAddr a) = false →
      Completes (.eccReread r a .clean) s fun t =>
        t.reported .HM_ECC_REREAD ∧ .hmWord a (loadBytes s.hm.mem a 32) ∈ t.outbox ∧ MemoryKept s t) ∧
  (∀ (s : State) (r : Reader) (a : Nat) (x : Reread),
      a % 32 = 0 →
      s.hm.rereads.find? (fun y => y.r == r && y.a == a) = some x →
      Completes (.eccReread r a .double) s fun t =>
        t.reported .HM_ECC_UNCORR ∧ MemoryKept s t) ∧
  (∀ (s : State) (a : Nat),
      s.hm.pendingWb.contains a = true →
      Completes (.eccWriteback a) s fun t =>
        t.hm.pendingWb.contains a = false ∧ MemoryKept s t ∧ t.regs = s.regs) ∧
  (∀ (s : State),
      s.get Reg.HM_CTRL_SCRUB_PERIOD ≠ 0 →
      s.hmHeld = false →
      s.hm.scrubAt < 2 ^ 23 →
      s.unreadable (chanOfAddr (s.hm.scrubAt * 32)) = false →
      s.forcedDouble (s.hm.scrubAt * 32) = false →
      Completes (.scrubRead .clean) s fun t =>
        t.hm.scrubAt = (s.hm.scrubAt + 1) % 2 ^ 23 ∧ MemoryKept s t ∧ t.regs = s.regs) ∧
  (∀ (s : State) (o : Origin) (v : Word),
      s.accepts o Reg.a_ECC_INJ v = true →
      bit v.toNat 8 = false →
      Completes (.eccInj o v) s fun t =>
        t.hm.injRead = s.hm.injRead ||| bits v.toNat 7 0 ∧ t.hm.injStore = s.hm.injStore ∧ MemoryKept s t) ∧
  (∀ (s : State) (o : Origin) (v : Word),
      s.accepts o Reg.a_ECC_INJ v = true →
      bit v.toNat 8 = true →
      Completes (.eccInj o v) s fun t =>
        t.hm.injStore = s.hm.injStore ||| bits v.toNat 7 0 ∧ t.hm.injRead = s.hm.injRead ∧ MemoryKept s t) ∧
  (∀ (s : State) (o : Origin) (v : Word),
      s.accepts o Reg.a_FENCE_CFG v = true →
      Completes (.injPar o false v) s fun t =>
        t.hm.injPar = s.hm.injPar ||| bits v.toNat 19 16 ∧ MemoryKept s t) ∧
  (∀ (s : State) (o : Origin) (v : Word),
      s.accepts o Reg.a_FENCE_INJ_HI v = true →
      Completes (.injPar o true v) s fun t =>
        t.hm.injPar = s.hm.injPar ||| (bits v.toNat 3 0 * 16) ∧ MemoryKept s t)

/-- CHANNEL_FENCE of an unfenced channel that leaves fewer than 4 unfenced channels, by parity or by the word threshold: HM_DEGRADED, of class
FT, is reported, the device is in the safe state, and the channel is fenced. -/
def Obligations.FenceBelowFourChannelsIsFatal : Prop :=
  (∀ (s : State) (c : Nat),
      c < 8 →
      s.fenced c = false →
      s.unreadable c = false →
      (s.unfenced.filter (fun x => x != c)).length < 4 →
      Completes (.channelFence c true) s fun t =>
        t.reported .HM_DEGRADED ∧ t.safeState = true ∧ t.fenced c = true ∧ t.pins.glow = false) ∧
  (∀ (s : State) (c : Nat),
      c < 8 →
      s.fenced c = false →
      s.get Reg.FENCE_CFG_THR ≠ 0 →
      s.get Reg.FENCE_CFG_THR ≤ (s.pruneUncorr c).length →
      (s.unfenced.filter (fun x => x != c)).length < 4 →
      Completes (.channelFence c false) s fun t =>
        t.reported .HM_DEGRADED ∧ t.safeState = true ∧ t.fenced c = true ∧ t.pins.glow = false)

/-- CHANNEL_FENCE by the word threshold fences its channel, and by parity also marks it unreadable; no byte changes. EVAC_CELL_MOVE takes no
effect on an unfenced channel; where the fenced channel holds a cell of a buffer and a free cell exists, the free cell takes the place of
that cell in the buffer's list, the content of a buffer that is SEALED or SHOWN goes with it, and nothing is copied for one that is EMPTY,
FILLING or RELEASED. FENCE_CLEAR of an evacuated channel that was quiet for its window, with the LATCHED bit of what fenced it clear,
clears FENCED and starts its zero-initialisation; of any other channel it changes no fence. CHANNEL_ZERO_INIT_DONE clears every byte of
the channel and no other byte. HEARTH_COLD_INIT_DONE before READY, with the main domain out of reset and the Hearth PLL locked, sets READY
and, with no access held, leaves every byte 0; after READY, or before the PLL is locked, it has no effect. STAT_WINDOW_END of a full,
unfrozen window latches the channel counters and restarts them. STAT_CLEAR with CLEAR clears them. -/
def Obligations.FencedChannelsAreEvacuatedAndReturned : Prop :=
  (∀ (s : State) (c : Nat),
      c < 8 →
      s.get Reg.FENCE_CFG_THR ≠ 0 →
      s.fenced c = false →
      s.get Reg.FENCE_CFG_THR ≤ (s.pruneUncorr c).length →
      Completes (.channelFence c false) s fun t =>
        t.fenced c = true ∧ t.reported .HM_CH_FENCE ∧ (∀ b, t.hmByte b = s.hmByte b)) ∧
  (∀ (s : State) (c : Nat),
      c < 8 →
      s.unreadable c = false →
      Completes (.channelFence c true) s fun t =>
        t.fenced c = true ∧ t.unreadable c = true ∧ t.reported .HM_CH_CTRL ∧ (∀ b, t.hmByte b = s.hmByte b)) ∧
  (∀ (s : State) (c : Nat) (e : ReadEvent),
      c < 8 →
      s.fenced c = false →
      exec (.evacCellMove c e) s = .next ({ s with outbox := [] } : State).settled) ∧
  (∀ (s : State) (c hh cell ch new : Nat) (e : ReadEvent),
      c < 8 →
      s.fenced c = true →
      s.nextEvac c = some (hh, cell) →
      (s.handle hh).st = .empty ∨ (s.handle hh).st = .filling ∨ (s.handle hh).st = .released →
      s.startChannel s.heldCells = some ch →
      s.nextCell s.heldCells (cycleFrom s.unfenced ch) = some (ch, new) →
      Completes (.evacCellMove c e) s fun t =>
        t.handle hh = { s.handle hh with cells := (s.handle hh).cells.map fun cs => cs.map fun k => if k = cell then new else k } ∧ (∀ x, x ≠ hh → t.handle x = s.handle x) ∧ MemoryKept s t) ∧
  (∀ (s : State) (c hh cell ch new : Nat),
      c < 8 →
      Memory.wf s.hm.mem = true →
      s.fenced c = true →
      s.nextEvac c = some (hh, cell) →
      (s.handle hh).st = .sealed ∨ (s.handle hh).st = .shown →
      (wordsOf (cell * 65536) 65536).all (fun w => !s.forcedDouble w) = true →
      s.startChannel s.heldCells = some ch →
      s.nextCell s.heldCells (cycleFrom s.unfenced ch) = some (ch, new) →
      Completes (.evacCellMove c .clean) s fun t =>
        t.handle hh = { s.handle hh with cells := (s.handle hh).cells.map fun cs => cs.map fun k => if k = cell then new else k } ∧ (∀ x, x ≠ hh → t.handle x = s.handle x) ∧
        (∀ b, t.hmByte b = if b / 65536 = new then s.hmByte (cell * 65536 + b % 65536) else s.hmByte b)) ∧
  (∀ (s : State) (o : Origin) (v : Word) (c : Nat),
      c < 8 →
      s.accepts o Reg.a_HM_STATUS v = true →
      v = BitVec.ofNat 32 (2 ^ (16 + c)) →
      s.mayUnfence c = true →
      Completes (.fenceClear o v) s fun t =>
        t.fenced c = false ∧ t.unreadable c = false ∧ c ∈ t.hm.zeroing ∧ t.is Reg.HM_STATUS_INIT_BUSY = true ∧ MemoryKept s t) ∧
  (∀ (s : State) (o : Origin) (v : Word) (c : Nat),
      c < 8 →
      s.accepts o Reg.a_HM_STATUS v = true →
      v = BitVec.ofNat 32 (2 ^ (16 + c)) →
      s.mayUnfence c = false →
      exec (.fenceClear o v) s = .next ({ s with outbox := [] } : State).settled) ∧
  (∀ (s : State) (c : Nat),
      c < 8 →
      s.hm.zeroing.contains c = true →
      Completes (.channelZeroInitDone c) s fun t =>
        (∀ b, t.hmByte b = if chanOfAddr b = c then 0#8 else s.hmByte b) ∧ t.hm.zeroing.contains c = false) ∧
  (∀ (s : State),
      s.hmReady = false →
      s.emb.main = true →
      6 ≤ s.get (Reg.PLL_STATUS_STATE 13) →
      Completes (.hearthColdInitDone) s fun t =>
        t.hmReady = true ∧ t.is Reg.HM_STATUS_INIT_BUSY = false ∧ t.hm.heldAcc = []) ∧
  (∀ (s : State),
      s.hmReady = false →
      s.emb.main = true →
      6 ≤ s.get (Reg.PLL_STATUS_STATE 13) →
      s.hm.heldAcc = [] →
      Completes (.hearthColdInitDone) s fun t =>
        (∀ b, t.hmByte b = 0#8) ∧ t.hm.handles = [] ∧ t.sram = s.sram) ∧
  (∀ (s : State),
      s.hmReady = true ∨ s.emb.main = false ∨ s.get (Reg.PLL_STATUS_STATE 13) < 6 →
      exec (.hearthColdInitDone) s = .next ({ s with outbox := [] } : State).settled) ∧
  (∀ (s : State) (c : Nat),
      c < 8 →
      max 1 (s.get Reg.STAT_CTRL_WINDOW) ≤ s.hm.winOrbits →
      s.is Reg.STAT_CTRL_FREEZE = false →
      SMap.get 0 s.hm.rdRun c < 2 ^ 32 →
      Completes (.statWindowEnd) s fun t =>
        t.get (Reg.STAT_RD_WORDS c) = SMap.get 0 s.hm.rdRun c ∧ t.hm.rdRun = [] ∧ t.hm.winOrbits = 0 ∧ t.hm.mem = s.hm.mem) ∧
  (∀ (s : State) (o : Origin) (v : Word) (c : Nat),
      c < 8 →
      s.accepts o Reg.a_STAT_CTRL v = true →
      bit v.toNat 9 = true →
      Completes (.statClear o v) s fun t =>
        t.get (Reg.STAT_RD_WORDS c) = 0 ∧ t.get (Reg.STAT_ERR_UNCORR c) = 0 ∧ t.hm.rdRun = [] ∧ t.hm.mem = s.hm.mem)

/-- An accepted SC_COEF_DATA write to a bank not in use sets exactly the addressed coefficient to the 10-bit two's complement value; for taps
6 and 7 of the vertical set it changes no coefficient. SC_COEF_RESET of banks not in use restores every coefficient of the selected banks
to its default and leaves the others. An accepted CL_LUT_DATA write sets the addressed entry of the addressed component, or of all three
for COMP 3, to the value, limited to 4095 below index 1024 and to 4096 at it. CL_LUT_RESET restores the selected banks not in use to
identity. A write that would change a bank in use changes no coefficient or entry of any pipe and raises CFG_VIOLATION. No other pipe and
no byte of memory changes. -/
def Obligations.TablesInUseAreKept : Prop :=
  (∀ (s : State) (o : Origin) (p : Nat) (v : Word),
      p < 12 →
      s.accepts o (Reg.a_SC_COEF_DATA p) v = true →
      s.get (Reg.SC_COEF_ADDR_DIR p) = 0 ∨ s.get (Reg.SC_COEF_ADDR_TAP p) < 6 →
      bit (s.banksInUse p) (s.get (Reg.SC_COEF_ADDR_BANK p)) = false →
      Completes (.scCoefDataWrite o p v) s fun t =>
        (t.pipe p).coefAt (s.get (Reg.SC_COEF_ADDR_BANK p)) (s.get (Reg.SC_COEF_ADDR_DIR p)) (s.get (Reg.SC_COEF_ADDR_PHASE p)) (s.get (Reg.SC_COEF_ADDR_TAP p)) = sext (bits v.toNat 9 0) 10 ∧
        (∀ b d q k, d < 2 → q < 64 → k < 8 → (b ≠ s.get (Reg.SC_COEF_ADDR_BANK p) ∨ d ≠ s.get (Reg.SC_COEF_ADDR_DIR p) ∨ q ≠ s.get (Reg.SC_COEF_ADDR_PHASE p) ∨ k ≠ s.get (Reg.SC_COEF_ADDR_TAP p)) → (t.pipe p).coefAt b d q k = (s.pipe p).coefAt b d q k) ∧
        (∀ q, q ≠ p → t.pipe q = s.pipe q) ∧ t.hm = s.hm ∧ ∀ a, a ≠ Reg.a_SC_COEF_ADDR p → (∀ u, a ≠ Reg.a_OWN u) → t.reg a = s.reg a) ∧
  (∀ (s : State) (o : Origin) (p : Nat) (v : Word),
      p < 12 →
      s.accepts o (Reg.a_SC_COEF_DATA p) v = true →
      s.get (Reg.SC_COEF_ADDR_DIR p) = 1 →
      6 ≤ s.get (Reg.SC_COEF_ADDR_TAP p) →
      Completes (.scCoefDataWrite o p v) s fun t =>
        t.pipes = s.pipes ∧ t.hm = s.hm ∧ ∀ a, a ≠ Reg.a_SC_COEF_ADDR p → (∀ u, a ≠ Reg.a_OWN u) → t.reg a = s.reg a) ∧
  (∀ (s : State) (o : Origin) (p : Nat) (v : Word),
      p < 12 →
      s.accepts o (Reg.a_SC_COEF_DATA p) v = true →
      s.get (Reg.SC_COEF_ADDR_DIR p) = 0 ∨ s.get (Reg.SC_COEF_ADDR_TAP p) < 6 →
      bit (s.banksInUse p) (s.get (Reg.SC_COEF_ADDR_BANK p)) = true →
      (s.pipe p).coefAt (s.get (Reg.SC_COEF_ADDR_BANK p)) (s.get (Reg.SC_COEF_ADDR_DIR p)) (s.get (Reg.SC_COEF_ADDR_PHASE p)) (s.get (Reg.SC_COEF_ADDR_TAP p)) ≠ sext (bits v.toNat 9 0) 10 →
      Completes (.scCoefDataWrite o p v) s fun t =>
        t.reported .CFG_VIOLATION ∧ (∀ q, (t.pipe q).coef = (s.pipe q).coef ∧ (t.pipe q).lut = (s.pipe q).lut) ∧ MemoryKept s t) ∧
  (∀ (s : State) (o : Origin) (p : Nat) (v : Word),
      p < 12 →
      s.accepts o (Reg.a_SC_COEF_RESET p) v = true →
      bits v.toNat 3 0 &&& s.banksInUse p = 0 →
      Completes (.scCoefReset o p v) s fun t =>
        (∀ b d q k, b < 4 → d < 2 → q < 64 → k < 8 → (t.pipe p).coefAt b d q k = if bit v.toNat b then coefDefault b d q k else (s.pipe p).coefAt b d q k) ∧
        (∀ q, q ≠ p → t.pipe q = s.pipe q) ∧ t.hm = s.hm ∧ ∀ a, (∀ u, a ≠ Reg.a_OWN u) → t.reg a = s.reg a) ∧
  (∀ (s : State) (o : Origin) (p : Nat) (v : Word) (c : Nat),
      p < 12 →
      s.accepts o (Reg.a_CL_LUT_DATA p) v = true →
      bit (s.lutsInUse p) (s.get (Reg.CL_LUT_ADDR_BANK p)) = false →
      c < 3 →
      s.get (Reg.CL_LUT_ADDR_COMP p) = 3 ∨ s.get (Reg.CL_LUT_ADDR_COMP p) = c →
      Completes (.clLutDataWrite o p v) s fun t =>
        (t.pipe p).lutAt (s.get (Reg.CL_LUT_ADDR_BANK p)) (s.get (Reg.CL_LUT_ADDR_TABLE p)) c (s.lutIndex p) = min (bits v.toNat 12 0) (if s.lutIndex p = 1024 then 4096 else 4095) ∧
        (∀ b d q j, d < 2 → q < 3 → j ≤ 1024 → (b ≠ s.get (Reg.CL_LUT_ADDR_BANK p) ∨ d ≠ s.get (Reg.CL_LUT_ADDR_TABLE p) ∨ (s.get (Reg.CL_LUT_ADDR_COMP p) ≠ 3 ∧ q ≠ s.get (Reg.CL_LUT_ADDR_COMP p)) ∨ j ≠ s.lutIndex p) → (t.pipe p).lutAt b d q j = (s.pipe p).lutAt b d q j) ∧
        (∀ q, q ≠ p → t.pipe q = s.pipe q) ∧ t.hm = s.hm ∧ ∀ a, a ≠ Reg.a_CL_LUT_ADDR p → (∀ u, a ≠ Reg.a_OWN u) → t.reg a = s.reg a) ∧
  (∀ (s : State) (o : Origin) (p : Nat) (v : Word),
      p < 12 →
      s.accepts o (Reg.a_CL_LUT_RESET p) v = true →
      bits v.toNat 1 0 &&& s.lutsInUse p = 0 →
      Completes (.clLutReset o p v) s fun t =>
        (∀ b d q j, b < 2 → d < 2 → q < 3 → j ≤ 1024 → (t.pipe p).lutAt b d q j = if bit v.toNat b then 4 * j else (s.pipe p).lutAt b d q j) ∧
        (∀ q, q ≠ p → t.pipe q = s.pipe q) ∧ t.hm = s.hm ∧ ∀ a, (∀ u, a ≠ Reg.a_OWN u) → t.reg a = s.reg a) ∧
  (∀ (s : State) (o : Origin) (p : Nat) (v : Word),
      p < 12 →
      s.accepts o (Reg.a_CL_LUT_RESET p) v = true →
      bits v.toNat 1 0 &&& s.lutsInUse p ≠ 0 →
      Completes (.clLutReset o p v) s fun t =>
        t.reported .CFG_VIOLATION ∧ (∀ q, q ≠ p → (t.pipe q).lut = (s.pipe q).lut) ∧
        (∀ b d q j, b < 2 → d < 2 → q < 3 → j ≤ 1024 → bit (s.lutsInUse p) b = true → (t.pipe p).lutAt b d q j = (s.pipe p).lutAt b d q j) ∧ MemoryKept s t) ∧
  (∀ (s : State) (o : Origin) (p : Nat) (v : Word) (c : Nat),
      p < 12 →
      s.accepts o (Reg.a_CL_LUT_DATA p) v = true →
      bit (s.lutsInUse p) (s.get (Reg.CL_LUT_ADDR_BANK p)) = true →
      c < 3 →
      s.get (Reg.CL_LUT_ADDR_COMP p) = 3 ∨ s.get (Reg.CL_LUT_ADDR_COMP p) = c →
      (s.pipe p).lutAt (s.get (Reg.CL_LUT_ADDR_BANK p)) (s.get (Reg.CL_LUT_ADDR_TABLE p)) c (s.lutIndex p) ≠ min (bits v.toNat 12 0) (if s.lutIndex p = 1024 then 4096 else 4095) →
      Completes (.clLutDataWrite o p v) s fun t =>
        t.reported .CFG_VIOLATION ∧ (∀ q, (t.pipe q).coef = (s.pipe q).coef ∧ (t.pipe q).lut = (s.pipe q).lut) ∧ MemoryKept s t) ∧
  (∀ (s : State) (o : Origin) (p : Nat) (v : Word),
      p < 12 →
      s.accepts o (Reg.a_SC_COEF_RESET p) v = true →
      bits v.toNat 3 0 &&& s.banksInUse p ≠ 0 →
      Completes (.scCoefReset o p v) s fun t =>
        t.reported .CFG_VIOLATION ∧ (∀ b d q k, b < 4 → d < 2 → q < 64 → k < 8 → bit (s.banksInUse p) b = true → (t.pipe p).coefAt b d q k = (s.pipe p).coefAt b d q k) ∧
        (∀ q, q ≠ p → (t.pipe q).coef = (s.pipe q).coef) ∧ MemoryKept s t)

/-- SLOT_FETCH changes no byte of memory whatever the read meets. Of a line within the run-ahead that the slot draws from its buffer, not
fetched yet, with the slots above it fetched: when every word reads clean and every block header read is well-formed, the slot's word
counts rise by the words fetched and the words skipped, the line and its words are noted, and no register changes. Of a line that the slot
does not draw from its buffer, or that may not be fetched now, it has no effect. WB_ARM stores WB_CTRL and, with a mode other than OFF,
starts the ring with handle 0; while BUSY it waits and changes no register but the generation. WB_DONE of one captured frame whose writes
are acknowledged seals the unpinned buffer that no other writer fills, counts SEALED, shows the stamp and sets DONE; BUSY then tells
whether a frame is being captured. With a write that failed it sets WR_ERR, with the buffer pinned PINNED_WRITE, and seals nothing. -/
def Obligations.SlotsFetchAndWritebackSeals : Prop :=
  (∀ (s : State) (p k y : Nat) (ahead : Bool) (e : ReadEvent),
      p < 12 →
      k < 8 →
      Completes (.slotFetch p k y ahead e) s fun t =>
        MemoryKept s t) ∧
  (∀ (s : State) (p k y : Nat) (ahead : Bool),
      p < 12 →
      k < 8 →
      s.hmReady = true →
      s.mayFetch p y ahead = true →
      s.drawsLine p k y ahead = true →
      s.hasRun p k y ahead = false →
      allSlots.all (fun j => j ≤ k || !s.drawsLine p j y ahead || s.hasRun p j y ahead) = true →
      (s.fetchOf p k ahead (declOf (s.frameImg p ahead) p k) (y - (declOf (s.frameImg p ahead) p k).dy)).words.all (fun a => !s.forcedDouble a) = true →
      (s.fetchOf p k ahead (declOf (s.frameImg p ahead) p k) (y - (declOf (s.frameImg p ahead) p k).dy)).blocks.all (fun b => !((s.is Reg.FC_INJ_GBC && s.get Reg.FC_INJ_PIPE == p) || gbcMalformed (s.gbcHeader (declOf (s.frameImg p ahead) p k) b.1 b.2) (s.plane1 (declOf (s.frameImg p ahead) p k)))) = true →
      Completes (.slotFetch p k y ahead .clean) s fun t =>
        ((t.pipe p).slot k).run = ((s.pipe p).slot k).run ++ [⟨ahead, y, (s.fetchOf p k ahead (declOf (s.frameImg p ahead) p k) (y - (declOf (s.frameImg p ahead) p k).dy)).words⟩] ∧
        ((t.pipe p).slot k).fetch = satAdd ((s.pipe p).slot k).fetch (s.fetchOf p k ahead (declOf (s.frameImg p ahead) p k) (y - (declOf (s.frameImg p ahead) p k).dy)).words.length 0xFFFFFFFF ∧
        ((t.pipe p).slot k).cull = satAdd ((s.pipe p).slot k).cull (s.fetchOf p k ahead (declOf (s.frameImg p ahead) p k) (y - (declOf (s.frameImg p ahead) p k).dy)).skipped.length 0xFFFFFFFF ∧
        (∀ j, j ≠ k → (t.pipe p).slot j = (s.pipe p).slot j) ∧ t.regs = s.regs ∧ t.intc = s.intc ∧ MemoryKept s t) ∧
  (∀ (s : State) (p k y : Nat) (ahead : Bool) (e : ReadEvent),
      p < 12 →
      k < 8 →
      s.drawsLine p k y ahead = false ∨ s.mayFetch p y ahead = false →
      exec (.slotFetch p k y ahead e) s = .next ({ s with outbox := [] } : State).settled) ∧
  (∀ (s : State) (o : Origin) (p : Nat) (v : Word),
      p < 12 →
      s.accepts o (Reg.a_WB_CTRL p) v = true →
      s.is (Reg.WB_STATUS_BUSY p) = false →
      bits v.toNat 1 0 = 1 ∨ bits v.toNat 1 0 = 2 →
      Completes (.wbArm o p v) s fun t =>
        t.get (Reg.WB_CTRL_MODE p) = bits v.toNat 1 0 ∧ t.get (Reg.WB_CTRL_TAP p) = bits v.toNat 5 4 ∧ t.get (Reg.WB_STATUS_NEXT p) = 0 ∧
        (t.pipe p).wb.shots = 1 ∧ (t.pipe p).wb.divCount = 0 ∧ (∀ q, q ≠ p → t.pipe q = s.pipe q) ∧ t.hm = s.hm ∧ ∀ a, a ≠ Reg.a_WB_CTRL p → a ≠ Reg.a_WB_STATUS p → (∀ u, a ≠ Reg.a_OWN u) → t.reg a = s.reg a) ∧
  (∀ (s : State) (o : Origin) (p : Nat) (v : Word),
      p < 12 →
      s.accepts o (Reg.a_WB_CTRL p) v = true →
      s.is (Reg.WB_STATUS_BUSY p) = false →
      bits v.toNat 1 0 = 0 ∨ bits v.toNat 1 0 = 3 →
      Completes (.wbArm o p v) s fun t =>
        t.get (Reg.WB_CTRL_MODE p) = bits v.toNat 1 0 ∧ (t.pipe p).wb.shots = 0 ∧ (∀ q, q ≠ p → t.pipe q = s.pipe q) ∧ t.hm = s.hm ∧ ∀ a, a ≠ Reg.a_WB_CTRL p → (∀ u, a ≠ Reg.a_OWN u) → t.reg a = s.reg a) ∧
  (∀ (s : State) (o : Origin) (p : Nat) (v : Word),
      p < 12 →
      s.accepts o (Reg.a_WB_CTRL p) v = true →
      s.is (Reg.WB_STATUS_BUSY p) = true →
      Completes (.wbArm o p v) s fun t =>
        (∃ w, (t.pipe p).wb.deferred = some w ∧ bits w 1 0 = bits v.toNat 1 0) ∧ t.hm = s.hm ∧ ∀ a, (∀ u, a ≠ Reg.a_OWN u) → t.reg a = s.reg a) ∧
  (∀ (s : State) (p : Nat) (c : WbClose),
      p < 12 →
      (s.pipe p).wb.closing = [c] →
      s.inFlight (wbWriter p c.par) = false →
      s.wroteBad (wbWriter p c.par) = false →
      s.wroteMoved (wbWriter p c.par) = false →
      s.pinned c.handle = false →
      s.hm.writers.all (fun x => x.2 != c.handle || x.1 == wbWriter p c.par) = true →
      Completes (.wbDone p) s fun t =>
        (t.handle c.handle).st = .sealed ∧ (∀ x, x ≠ c.handle → t.handle x = s.handle x) ∧ t.is (Reg.WB_STATUS_DONE p) = true ∧ t.is (Reg.WB_STATUS_BUSY p) = (s.pipe p).wb.capturing ∧
        t.get (Reg.WB_STATUS_SEALED p) = (s.get (Reg.WB_STATUS_SEALED p) + 1) % 65536 ∧ t.get (Reg.WB_STAMP_LO_STAMP p) = c.stamp % 2 ^ 32 ∧
        t.get (Reg.WB_STAMP_HI_STAMP p) = c.stamp / 2 ^ 32 % 2 ^ 16 ∧ (t.pipe p).wb.closing = [] ∧ MemoryKept s t) ∧
  (∀ (s : State) (p : Nat) (c : WbClose),
      p < 12 →
      (s.pipe p).wb.closing = [c] →
      s.inFlight (wbWriter p c.par) = false →
      s.wroteBad (wbWriter p c.par) = true →
      Completes (.wbDone p) s fun t =>
        t.is (Reg.WB_STATUS_WR_ERR p) = true ∧ (t.pipe p).wb.closing = [] ∧ t.hm.handles = s.hm.handles ∧ MemoryKept s t) ∧
  (∀ (s : State) (p : Nat) (c : WbClose),
      p < 12 →
      (s.pipe p).wb.closing = [c] →
      s.inFlight (wbWriter p c.par) = false →
      s.wroteBad (wbWriter p c.par) = false →
      s.wroteMoved (wbWriter p c.par) = false →
      s.pinned c.handle = true →
      Completes (.wbDone p) s fun t =>
        t.is (Reg.WB_STATUS_PINNED_WRITE p) = true ∧ (t.pipe p).wb.closing = [] ∧ t.hm.handles = s.hm.handles ∧ MemoryKept s t) ∧
  (∀ (s : State) (p : Nat),
      p < 12 →
      (s.pipe p).wb.closing.all (fun c => s.inFlight (wbWriter p c.par)) = true →
      exec (.wbDone p) s = .next ({ s with outbox := [] } : State).settled)

/-- A write of 1 to BC_CTRL.APPLY by the safety pair: entries that break R141 answer APPLY_RESULT 1 and nothing else changes; a change that
needs a hold window which does not cover it answers 7 and no entry in force changes; otherwise the answer is 0, every counting pipe that
is affected waits for its commit line with the written entry fields, a stopped pipe takes its entry at once (the model's reading of R425),
no other pipe's entry in force changes, and no byte of memory. -/
def Obligations.BeaconApplyValidatesItsChange : Prop :=
  (∀ (s : State) (o : Origin) (v : Word),
      s.accepts o (Reg.a_BC_CTRL) v = true →
      bit v.toNat 0 = true →
      s.entriesLegal = false →
      Completes (.beaconApply o v) s fun t =>
        t.get Reg.BC_STATUS_APPLY_RESULT = 1 ∧ t.pipes = s.pipes ∧ t.bc = s.bc ∧ t.orbit = s.orbit ∧ ∀ a, a ≠ Reg.a_BC_STATUS → (∀ u, a ≠ Reg.a_OWN u) → t.reg a = s.reg a) ∧
  (∀ (s : State) (o : Origin) (v : Word),
      s.accepts o (Reg.a_BC_CTRL) v = true →
      bit v.toNat 0 = true →
      s.entriesLegal = true →
      (allPipes.filter fun p => s.wantedOn p != s.targetOn p).any (fun p => !s.applyHeld p) = true →
      Completes (.beaconApply o v) s fun t =>
        t.get Reg.BC_STATUS_APPLY_RESULT = 7 ∧ t.pipes = s.pipes ∧ t.bc = s.bc ∧ t.orbit = s.orbit ∧ ∀ a, a ≠ Reg.a_BC_STATUS → (∀ u, a ≠ Reg.a_OWN u) → t.reg a = s.reg a) ∧
  (∀ (s : State) (o : Origin) (v : Word) (p : Nat),
      s.accepts o (Reg.a_BC_CTRL) v = true →
      bit v.toNat 0 = true →
      s.entriesLegal = true →
      (allPipes.filter fun p => s.wantedOn p != s.targetOn p).all (fun p => s.applyHeld p) = true →
      p < 12 →
      Completes (.beaconApply o v) s fun t =>
        t.get Reg.BC_STATUS_APPLY_RESULT = 0 ∧ (s.wantedOn p ≠ s.targetOn p → s.counting p = true → p ∈ t.bc.applyPipes ∧ t.bc.applyImg = allEntries.flatMap s.entryImg) ∧
        (s.wantedOn p ≠ s.targetOn p → s.mode p = .stopped → t.bcn p = s.wantedOn p) ∧ (s.mode p ≠ .stopped → t.bcn p = s.bcn p) ∧ MemoryKept s t) ∧
  (∀ (s : State) (o : Origin) (v : Word),
      s.accepts o (Reg.a_BC_CTRL) v = true →
      bit v.toNat 0 = false →
      Completes (.beaconApply o v) s fun t =>
        t.pipes = s.pipes ∧ t.bc = s.bc ∧ t.orbit = s.orbit ∧ t.hm = s.hm ∧ ∀ a, (∀ u, a ≠ Reg.a_OWN u) → t.reg a = s.reg a)

/-- An accepted write of TT_STATE_i with a request other than NO_REQUEST sets REQ of tell-tale i, restarts its signal age, which ends its
timeout, and captures an ON or BLINK for the next latch; with NO_REQUEST REQ and the age stay. No other tell-tale, no register outside
TT_STATE_i and no byte of memory changes. TELLTALE_TIMEOUT leaves tell-tale i timed out where its TIMEOUT is not 0 and changes nothing
where it is 0. BEACON_INJ arms the written injections and keeps those armed. CLUSTER_SIGNAL_TIMEOUT leaves signal n timed out, its value
kept, where its timeout is not 0 and within the range of ages, and changes nothing where it is 0. -/
def Obligations.TellTalesFollowTheirRequests : Prop :=
  (∀ (s : State) (o : Origin) (i : Nat) (v : Word),
      i < 64 →
      s.accepts o (Reg.a_TT_STATE i) v = true →
      bits v.toNat 1 0 ≠ reqNone →
      Completes (.telltaleReqWrite o i v) s fun t =>
        t.get (Reg.TT_STATE_REQ i) = bits v.toNat 1 0 ∧ (t.tt i).ageAt = some s.now ∧ (t.tt i).age0 = 0 ∧ t.ttTimedOut i = false ∧
        (bits v.toNat 1 0 = reqOn ∨ bits v.toNat 1 0 = reqBlink → (t.tt i).captured = some (bits v.toNat 1 0)) ∧ (∀ j, j ≠ i → t.tt j = s.tt j) ∧
        t.pipes = s.pipes ∧ t.hm = s.hm ∧ t.sram = s.sram ∧ ∀ a, a ≠ Reg.a_TT_STATE i → (∀ u, a ≠ Reg.a_OWN u) → t.reg a = s.reg a) ∧
  (∀ (s : State) (o : Origin) (i : Nat) (v : Word),
      i < 64 →
      s.accepts o (Reg.a_TT_STATE i) v = true →
      bits v.toNat 1 0 = reqNone →
      Completes (.telltaleReqWrite o i v) s fun t =>
        t.get (Reg.TT_STATE_REQ i) = s.get (Reg.TT_STATE_REQ i) ∧ (t.tt i).ageAt = (s.tt i).ageAt ∧ (t.tt i).age0 = (s.tt i).age0 ∧ (t.tt i).captured = (s.tt i).captured ∧
        (∀ j, j ≠ i → t.tt j = s.tt j) ∧ ∀ a, (∀ u, a ≠ Reg.a_OWN u) → t.reg a = s.reg a) ∧
  (∀ (s : State) (i : Nat),
      i < 64 →
      s.get (Reg.TT_MODE_TIMEOUT i) ≠ 0 →
      Completes (.telltaleTimeout i) s fun t =>
        t.ttTimedOut i = true ∧ (t.tt i).captured = (s.tt i).captured ∧ (∀ j, j ≠ i → t.tt j = s.tt j) ∧ t.regs = s.regs ∧ t.hm = s.hm ∧ t.pipes = s.pipes) ∧
  (∀ (s : State) (i : Nat),
      i < 64 →
      s.get (Reg.TT_MODE_TIMEOUT i) = 0 →
      exec (.telltaleTimeout i) s = .next ({ s with outbox := [] } : State).settled) ∧
  (∀ (s : State) (o : Origin) (v : Word),
      s.accepts o (Reg.a_BC_INJ) v = true →
      Completes (.bcInj o v) s fun t =>
        (∀ b, b < 6 → bit (t.reg Reg.a_BC_INJ).toNat b = (bit (s.reg Reg.a_BC_INJ).toNat b || bit v.toNat b)) ∧ t.bc = s.bc ∧ t.hm = s.hm ∧ ∀ a, a ≠ Reg.a_BC_INJ → (∀ u, a ≠ Reg.a_OWN u) → t.reg a = s.reg a) ∧
  (∀ (s : State) (n : Nat),
      1 ≤ n →
      n ≤ 4 →
      (s.sig n).limit n ≠ 0 →
      (s.sig n).limit n < 65535 →
      Completes (.clusterSignalTimeout n) s fun t =>
        t.sigTimedOut n = true ∧ (t.sig n).value = (s.sig n).value ∧ (∀ j, j ≠ n → t.sig j = s.sig j) ∧ t.regs = s.regs ∧ t.hm = s.hm) ∧
  (∀ (s : State) (n : Nat),
      1 ≤ n →
      n ≤ 4 →
      (s.sig n).limit n = 0 →
      exec (.clusterSignalTimeout n) s = .next ({ s with outbox := [] } : State).settled)

/-- A write of 1 to BE_E2E.FAILED of entry i by the safety pair clears FAILED when MATCH_RUN, the number of consecutive MATCH outcomes, has
reached BC_E2E_CFG.QUIET (0 counts as 1) and the entry either holds no port in SAFE or has the LATCHED bit of BEACON_E2E clear (R442), and
leaves FAILED set while MATCH_RUN has not reached it. -/
def Obligations.FailedProofClearsAfterQuietMatches : Prop :=
  (∀ (s : State) (o : Origin) (i : Nat) (v : Word),
      i < 4 →
      s.accepts o (Reg.a_BE_E2E i) v = true →
      bit v.toNat 3 = true →
      s.is (Reg.BE_E2E_FAILED i) = true →
      s.e2eFenced i = false ∨ s.cleared .BEACON_E2E = true →
      max 1 (s.get Reg.BC_E2E_CFG_QUIET) ≤ s.get (Reg.BE_E2E_MATCH_RUN i) →
      Completes (.e2eFailedClear o i v) s fun t =>
        t.is (Reg.BE_E2E_FAILED i) = false ∧ t.hm = s.hm ∧ t.bc = s.bc) ∧
  (∀ (s : State) (o : Origin) (i : Nat) (v : Word),
      i < 4 →
      s.accepts o (Reg.a_BE_E2E i) v = true →
      s.is (Reg.BE_E2E_FAILED i) = true →
      s.get (Reg.BE_E2E_MATCH_RUN i) < max 1 (s.get Reg.BC_E2E_CFG_QUIET) →
      Completes (.e2eFailedClear o i v) s fun t =>
        t.is (Reg.BE_E2E_FAILED i) = true ∧ t.get (Reg.BE_E2E_MATCH_RUN i) = s.get (Reg.BE_E2E_MATCH_RUN i) ∧ t.hm = s.hm ∧ t.bc = s.bc ∧ t.cg = s.cg ∧ t.intc = s.intc ∧ ∀ a, a ≠ Reg.a_BE_E2E i → (∀ u, a ≠ Reg.a_OWN u) → t.reg a = s.reg a)

/-- CLUSTER_REDRAW that would draw, and CLUSTER_SEALED that would commit, with the target pipe owned by another path than FIRMWARE: STOPPED is
set, EN is cleared, the engine is no longer busy, and no commit is submitted: pipes and the state of the commit ports stay as they were. -/
def Obligations.ClusterStopsWithoutItsOwner : Prop :=
  (∀ (s : State) (bad : List Nat),
      s.is Reg.CLU_CTRL_EN = true →
      s.bc.redraw = none →
      max 1 (s.get Reg.CLU_CTRL_DIV) ≤ s.bc.sinceRedraw →
      s.hmReady = true →
      (s.redrawSource == s.bc.lastDrawn) = false →
      s.owner s.clusterPipe ≠ 3 →
      Completes (.clusterRedraw bad) s fun t =>
        t.is Reg.CLU_STATUS_STOPPED = true ∧ t.is Reg.CLU_CTRL_EN = false ∧ t.is Reg.CLU_STATUS_BUSY = false ∧ t.pipes = s.pipes ∧ t.orbit = s.orbit ∧ t.bc.redraw = none ∧ MemoryKept s t) ∧
  (∀ (s : State) (h p k : Nat),
      s.bc.redraw = some (h, p, k) →
      h < 1024 →
      p < 12 →
      k < 8 →
      s.inFlight clusterWriter = false →
      (s.handle h).st = .filling →
      s.wroteBad clusterWriter = false →
      s.wroteMoved clusterWriter = false →
      s.kin.wait ≠ .draw h →
      s.owner p ≠ 3 →
      Completes (.clusterSealed) s fun t =>
        t.is Reg.CLU_STATUS_STOPPED = true ∧ t.is Reg.CLU_CTRL_EN = false ∧ t.is Reg.CLU_STATUS_BUSY = false ∧ t.pipes = s.pipes ∧ t.orbit = s.orbit ∧ t.bc.redraw = none ∧ MemoryKept s t ∧ (t.handle h).st = .sealed)

/-- CLUSTER_REDRAW, enabled and due, with a change to draw and the target owned by FIRMWARE: the redraw goes into the selected buffer for the
target slot, BUSY is set, and what is drawn from is kept; the bytes of memory change only as its queued writes are acknowledged. With the
same source as the last redraw, or not enabled, no redraw begins. CLUSTER_SEALED of a completed redraw with the owner FIRMWARE seals the
buffer, names it in SL_HANDLE of the target slot and ends BUSY and the redraw; the redraw of a DRAW directive of Kindling only seals.
CLUSTER_REDRAW_LATE after DIV orbits sets LATE and abandons the redraw, and earlier, or with no redraw under way, has no effect. -/
def Obligations.ClusterRedrawsSealsAndCommits : Prop :=
  (∀ (s : State) (bad : List Nat),
      s.is Reg.CLU_CTRL_EN = true →
      s.bc.redraw = none →
      max 1 (s.get Reg.CLU_CTRL_DIV) ≤ s.bc.sinceRedraw →
      s.hmReady = true →
      (s.redrawSource == s.bc.lastDrawn) = false →
      s.owner s.clusterPipe = 3 →
      Completes (.clusterRedraw bad) s fun t =>
        t.bc.redraw = some (s.clusterBuffer, s.clusterPipe, s.get Reg.CLU_TARGET_SLOT) ∧ t.is Reg.CLU_STATUS_BUSY = true ∧ MemoryKept s t) ∧
  (∀ (s : State) (bad : List Nat),
      s.is Reg.CLU_CTRL_EN = true →
      s.bc.redraw = none →
      s.hmReady = true →
      (s.redrawSource == s.bc.lastDrawn) = true →
      Completes (.clusterRedraw bad) s fun t =>
        t.bc.redraw = none ∧ t.regs = s.regs ∧ t.hm = s.hm ∧ t.pipes = s.pipes) ∧
  (∀ (s : State) (bad : List Nat),
      s.is Reg.CLU_CTRL_EN = false →
      exec (.clusterRedraw bad) s = .next ({ s with outbox := [] } : State).settled) ∧
  (∀ (s : State) (h p k : Nat),
      s.bc.redraw = some (h, p, k) →
      h < 1024 →
      p < 12 →
      k < 8 →
      s.inFlight clusterWriter = false →
      (s.handle h).st = .filling →
      s.wroteBad clusterWriter = false →
      s.wroteMoved clusterWriter = false →
      s.kin.wait ≠ .draw h →
      s.owner p = 3 →
      Completes (.clusterSealed) s fun t =>
        t.get (Reg.SL_HANDLE_HANDLE p k) = h ∧ (t.handle h).st = .sealed ∧ t.is Reg.CLU_STATUS_BUSY = false ∧ t.bc.redraw = none ∧ MemoryKept s t) ∧
  (∀ (s : State) (h p k : Nat),
      s.bc.redraw = some (h, p, k) →
      h < 1024 →
      p < 12 →
      k < 8 →
      s.inFlight clusterWriter = false →
      (s.handle h).st = .filling →
      s.wroteBad clusterWriter = false →
      s.wroteMoved clusterWriter = false →
      s.kin.wait = .draw h →
      Completes (.clusterSealed) s fun t =>
        (t.handle h).st = .sealed ∧ t.is Reg.CLU_STATUS_BUSY = false ∧ t.bc.redraw = none ∧ t.pipes = s.pipes ∧ t.orbit = s.orbit ∧ t.get (Reg.SL_HANDLE_HANDLE p k) = s.get (Reg.SL_HANDLE_HANDLE p k) ∧ MemoryKept s t) ∧
  (∀ (s : State),
      s.bc.redraw.isSome = true →
      max 1 (s.get Reg.CLU_CTRL_DIV) ≤ s.bc.redrawOrbits →
      Completes (.clusterRedrawLate) s fun t =>
        t.is Reg.CLU_STATUS_LATE = true ∧ t.is Reg.CLU_STATUS_BUSY = false ∧ t.bc.redraw = none ∧ t.bc.lastDrawn = [] ∧ t.hm.handles = s.hm.handles ∧ t.hm.mem = s.hm.mem ∧ (∀ a, a ≠ Reg.a_CLU_STATUS → t.reg a = s.reg a)) ∧
  (∀ (s : State),
      s.bc.redraw = none ∨ s.bc.redrawOrbits < max 1 (s.get Reg.CLU_CTRL_DIV) →
      exec (.clusterRedrawLate) s = .next ({ s with outbox := [] } : State).settled)

/-- A DOORBELL, an accepted write of CH_DB_HI of a channel with fewer than 4 queued lists, those that a RELOAD or a second pass put back not
counted, appends the address of CH_DB_HI and CH_DB_LO; with 4 queued it sets DB_OVERRUN and the list is lost. PAUSE stores CH_CTRL.PAUSE.
RELOAD on a channel with a current descriptor, not aborting, discards the copies that have not become current, puts the lists they came
from back in front and asks for NEXT again. ABORT on a channel that is not IDLE discards prefetched descriptors and queued lists and
drains; on an IDLE channel it does nothing. No other channel, no register of another channel or block, no buffer and no byte of memory
changes. DMA_INJ arms what it writes. -/
def Obligations.DoorbellsAndChannelControl : Prop :=
  (∀ (s : State) (o : Origin) (c : Nat) (v : Word),
      c < 112 →
      s.accepts o (Reg.a_CH_DB_HI c) v = true →
      (s.chan c).lists.length - (s.chan c).again < 4 →
      Completes (.doorbell o c v) s fun t =>
        (t.chan c).lists = (s.chan c).lists ++ [v.toNat * 2 ^ 32 + s.get (Reg.CH_DB_LO_ADDR c) * 64] ∧ (t.chan c).cur = (s.chan c).cur ∧ (t.chan c).pre = (s.chan c).pre ∧
        (∀ x, x ≠ c → t.chan x = s.chan x) ∧ (∀ a, a < Reg.a_CH_CTRL c ∨ Reg.a_CH_CTRL c + 0x40 ≤ a → t.reg a = s.reg a) ∧ t.hm = s.hm ∧ t.pipes = s.pipes ∧ t.dma.reqs = s.dma.reqs) ∧
  (∀ (s : State) (o : Origin) (c : Nat) (v : Word),
      c < 112 →
      s.accepts o (Reg.a_CH_DB_HI c) v = true →
      4 ≤ (s.chan c).lists.length - (s.chan c).again →
      Completes (.doorbell o c v) s fun t =>
        t.is (Reg.CH_STATUS_DB_OVERRUN c) = true ∧ t.dma = s.dma ∧ t.hm = s.hm ∧ (∀ a, a < Reg.a_CH_CTRL c ∨ Reg.a_CH_CTRL c + 0x40 ≤ a → t.reg a = s.reg a)) ∧
  (∀ (s : State) (o : Origin) (c : Nat) (v : Word),
      c < 112 →
      s.accepts o (Reg.a_CH_CTRL c) v = true →
      v = 1#32 ∨ v = 0#32 →
      Completes (.pause o c v) s fun t =>
        t.get (Reg.CH_CTRL_PAUSE c) = v.toNat ∧ t.dma = s.dma ∧ t.hm = s.hm ∧ t.pipes = s.pipes ∧ (∀ a, a < Reg.a_CH_CTRL c ∨ Reg.a_CH_CTRL c + 0x40 ≤ a → t.reg a = s.reg a)) ∧
  (∀ (s : State) (o : Origin) (c : Nat) (v : Word),
      c < 112 →
      s.accepts o (Reg.a_CH_CTRL c) v = true →
      v = 2#32 →
      (s.chan c).cur.isSome = true →
      (s.chan c).aborting = false →
      Completes (.reload o c v) s fun t =>
        (t.chan c).lists = (s.chan c).entered ++ (s.chan c).lists ∧ (t.chan c).pre = [] ∧ (t.chan c).reload = (s.chan c).cur.map (fun u => u.d.addr) ∧ (t.chan c).next = 0 ∧ (t.chan c).cur = (s.chan c).cur ∧ (t.chan c).fill = (s.chan c).fill ∧
        (∀ x, x ≠ c → t.chan x = s.chan x) ∧ (∀ a, a < Reg.a_CH_CTRL c ∨ Reg.a_CH_CTRL c + 0x40 ≤ a → t.reg a = s.reg a) ∧ t.hm = s.hm) ∧
  (∀ (s : State) (o : Origin) (c : Nat) (v : Word),
      c < 112 →
      s.accepts o (Reg.a_CH_CTRL c) v = true →
      v = 4#32 →
      s.get (Reg.CH_STATUS_STATE c) ≠ 0 →
      Completes (.abort o c v) s fun t =>
        (t.chan c).aborting = true ∧ (t.chan c).lists = [] ∧ (t.chan c).pre = [] ∧ (t.chan c).cur = (s.chan c).cur ∧ t.get (Reg.CH_STATUS_STATE c) = 4 ∧
        (∀ x, x ≠ c → t.chan x = s.chan x) ∧ (∀ a, a < Reg.a_CH_CTRL c ∨ Reg.a_CH_CTRL c + 0x40 ≤ a → t.reg a = s.reg a) ∧ t.hm = s.hm ∧ t.pipes = s.pipes ∧ t.dma.reqs = s.dma.reqs) ∧
  (∀ (s : State) (o : Origin) (c : Nat) (v : Word),
      c < 112 →
      s.accepts o (Reg.a_CH_CTRL c) v = true →
      v = 4#32 →
      s.get (Reg.CH_STATUS_STATE c) = 0 →
      Completes (.abort o c v) s fun t =>
        t.dma = s.dma ∧ t.hm = s.hm ∧ (∀ a, a < Reg.a_CH_CTRL c ∨ Reg.a_CH_CTRL c + 0x40 ≤ a → t.reg a = s.reg a)) ∧
  (∀ (s : State) (o : Origin) (v : Word),
      s.accepts o (Reg.a_DMA_INJ) v = true →
      Completes (.dmaInj o v) s fun t =>
        (∀ f : FRef, f ∈ [Reg.DMA_INJ_STG, Reg.DMA_INJ_SEAL] → t.get f = s.get f ||| bits v.toNat f.hi f.lo) ∧ t.dma = s.dma ∧ t.hm = s.hm ∧ ∀ a, a ≠ Reg.a_DMA_INJ → t.reg a = s.reg a)

/-- DESCRIPTOR_READ_DONE with a descriptor holds it, parsed as Table 08.1 lays it out, and its NEXT is the next to read; the read of a RELOAD
only gives NEXT. After a first failed read the descriptor is read again; after the second DMA_DESC is reported and nothing more is read.
DESCRIPTOR_CURRENT with an outcome that R199, R204, R205, R206 or R207 decides at once completes it with that code, SKIPPED for a FAULTED
buffer, and goes on to the next; else it becomes current on its first attempt. DESCRIPTOR_COMPLETE before everything has answered has no
effect; of a first attempt that failed it starts the second; of a good attempt of the LAST descriptor of a fill whose seal, if it has one,
matches, it seals the buffer and reports code 1 or 2 (retried). ABORT_DRAIN_DONE with nothing open completes the current descriptor as
ABORTED, keeps the lists rung meanwhile and leaves the channel with nothing else; before that, or with no ABORT, it has no effect. No byte
of memory changes. -/
def Obligations.DescriptorsRunToTheirOutcome : Prop :=
  (∀ (s : State) (c : Nat) (r : Reading) (bs : List Byte),
      c < 112 →
      (s.chan c).reading = some r →
      (s.chan c).result = some (some bs) →
      Completes (.descriptorReadDone c) s fun t =>
        (t.chan c).pre = (s.chan c).pre ++ (if r.reload then [] else [parseDesc r.addr r.list bs]) ∧ (t.chan c).next = descField bs 0 8 / 64 * 64 ∧ (t.chan c).reading = none ∧ (t.chan c).result = none ∧ MemoryKept s t) ∧
  (∀ (s : State) (c : Nat) (r : Reading),
      c < 112 →
      (s.chan c).reading = some r →
      (s.chan c).result = some none →
      (s.chan c).retry = false →
      Completes (.descriptorReadDone c) s fun t =>
        t.chan c = { (s.chan c) with result := none, retry := true } ∧ (∀ x, x ≠ c → t.chan x = s.chan x) ∧ MemoryKept s t ∧ (∀ a, a < Reg.a_CH_CTRL c ∨ Reg.a_CH_CTRL c + 0x40 ≤ a → t.reg a = s.reg a)) ∧
  (∀ (s : State) (c : Nat) (r : Reading),
      c < 112 →
      (s.chan c).reading = some r →
      (s.chan c).result = some none →
      (s.chan c).retry = true →
      Completes (.descriptorReadDone c) s fun t =>
        t.reported .DMA_DESC ∧ (s.mild .DMA_DESC = true → (t.chan c).stopAt = some r.addr) ∧ (t.chan c).reading = none ∧ (t.chan c).next = 0 ∧ MemoryKept s t) ∧
  (∀ (s : State) (c : Nat) (d : Desc) (ds : List Desc),
      c < 112 →
      (s.chan c).cur = none →
      (s.chan c).pre = d :: ds →
      (s.chan c).aborting = false →
      (s.descInvalid c d || s.descForeign c d || d.codec) = false →
      (s.chan c).fill = none →
      (s.handle d.handle).st = .faulted →
      Completes (.descriptorCurrent c) s fun t =>
        t.get (Reg.CH_LAST_STATUS_CODE c) = stSKIPPED ∧ t.get (Reg.CH_LAST_TAG c) = d.tag % 2 ^ 32 ∧ (t.chan c).cur = none ∧ (t.chan c).pre = ds ∧ t.hm.handles = s.hm.handles ∧ t.dma.reqs = s.dma.reqs ∧ MemoryKept s t) ∧
  (∀ (s : State) (c : Nat) (d : Desc) (ds : List Desc) (code : Nat),
      c < 112 →
      (s.chan c).cur = none →
      (s.chan c).pre = d :: ds →
      (s.chan c).aborting = false →
      (s.chan c).reruns d = false →
      (if d.first then s.dropFill c true else s).descOutcome c d = some code →
      Completes (.descriptorCurrent c) s fun t =>
        t.get (Reg.CH_LAST_STATUS_CODE c) = code ∧ t.get (Reg.CH_LAST_TAG c) = d.tag % 2 ^ 32 ∧ (t.chan c).cur = none ∧ (t.chan c).pre = ds ∧ t.hm.handles = s.hm.handles ∧ t.dma.reqs = s.dma.reqs ∧ MemoryKept s t) ∧
  (∀ (s : State) (c : Nat) (d : Desc) (ds : List Desc),
      c < 112 →
      (s.chan c).cur = none →
      (s.chan c).pre = d :: ds →
      (s.chan c).aborting = false →
      (s.chan c).reruns d = false →
      (if d.first then s.dropFill c true else s).descOutcome c d = none →
      Completes (.descriptorCurrent c) s fun t =>
        (t.chan c).cur = some { d := d } ∧ (t.chan c).pre = ds ∧ (d.fills = true → d.first = true → (t.chan c).fill = some { handle := d.handle, first := d.addr }) ∧ t.hm.handles = s.hm.handles ∧ t.dma.reqs = s.dma.reqs ∧ MemoryKept s t) ∧
  (∀ (s : State) (c : Nat) (u : Cur) (stg : Bool),
      c < 112 →
      (s.chan c).cur = some u →
      s.attemptDone c u = false →
      exec (.descriptorComplete c stg) s = .next ({ s with outbox := [] } : State).settled) ∧
  (∀ (s : State) (c : Nat) (u : Cur) (stg : Bool),
      c < 112 →
      (s.chan c).cur = some u →
      (s.chan c).aborting = false →
      s.attemptDone c u = true →
      (u.d.fills && ((s.chan c).fill.any fun f => f.dropped)) = false →
      u.conflict = false →
      (u.d.toHost && u.changed) = false →
      u.cause ≠ 0 →
      u.attempt = 1 →
      Completes (.descriptorComplete c stg) s fun t =>
        (t.chan c).cur = some { d := u.d, attempt := 2, prior := u.cause, taken := u.taken, whole := u.whole, pad := u.pad } ∧ (∀ x, x ≠ c → t.chan x = s.chan x) ∧ t.hm.handles = s.hm.handles ∧ t.safeState = s.safeState ∧ MemoryKept s t) ∧
  (∀ (s : State) (c : Nat) (u : Cur) (f : Fill),
      c < 112 →
      (s.chan c).cur = some u →
      (s.chan c).aborting = false →
      s.attemptDone c u = true →
      (s.chan c).fill = some f →
      f.handle = u.d.handle →
      u.d.fills = true →
      u.conflict = false →
      f.dropped = false →
      f.started = true →
      f.bad = false →
      f.ended = false →
      s.wroteMoved c = false →
      s.wroteBad c = false →
      u.cause = 0 →
      u.d.last = true →
      u.d.sealEn = false ∨ (s.is Reg.DMA_INJ_SEAL = false ∧ f.pass = 1 ∧ crcFinal (crc32cUpdate f.crc u.ordered) = u.d.sealWord) →
      (s.handle f.handle).st = .filling →
      u.attempt < 256 →
      Completes (.descriptorComplete c false) s fun t =>
        (t.handle f.handle).st = .sealed ∧ (∀ x, x ≠ f.handle → t.handle x = s.handle x) ∧ t.get (Reg.CH_LAST_STATUS_CODE c) = (if u.attempt = 2 then stRETRIED else stOK) ∧
        t.get (Reg.CH_LAST_STATUS_ATTEMPTS c) = u.attempt ∧ (t.chan c).cur = none ∧ (t.chan c).fill = none ∧ MemoryKept s t) ∧
  (∀ (s : State) (c : Nat) (u : Cur),
      c < 112 →
      (s.chan c).aborting = true →
      s.openReqs c = [] →
      s.inFlight c = false →
      s.postedOpen c = false →
      (s.chan c).cur = some u →
      Completes (.abortDrainDone c) s fun t =>
        t.get (Reg.CH_LAST_STATUS_CODE c) = stABORTED ∧ (t.chan c).cur = none ∧ (t.chan c).pre = [] ∧ (t.chan c).fill = none ∧ (t.chan c).aborting = false ∧ (t.chan c).lists = (s.chan c).lists ∧ t.hm.handles = s.hm.handles ∧ MemoryKept s t) ∧
  (∀ (s : State) (c : Nat),
      c < 112 →
      (s.chan c).aborting = false ∨ s.openReqs c ≠ [] ∨ s.inFlight c = true ∨ s.postedOpen c = true →
      exec (.abortDrainDone c) s = .next ({ s with outbox := [] } : State).settled)

/-- DMA_READ_ISSUE with the link up serves the channel that R208 picks with one request of the lowest free tag: for a descriptor that the
channel wants, the read of its 64 bytes (8 for a RELOAD); else for the next bytes of its TO_DEVICE descriptor. One MRD packet is queued.
With the link down it has no effect. CPL_TIMEOUT of an open request with the link up closes it and holds its tag; for a data request of
the channel's current descriptor the attempt has failed with cause 2, for a descriptor read the read has failed; with the link down no
timer runs and it has no effect. HELD_TAG_RELEASE frees the tag and nothing else. DMA_LATE on a channel whose fill a pending commit names
sets LATE and appends the event; without a fill it has no effect. -/
def Obligations.RequestsTimeOutAndTagsAreHeld : Prop :=
  (∀ (s : State) (e : ReadEvent),
      s.akUp = false →
      exec (.dmaReadIssue e) s = .next ({ s with outbox := [] } : State).settled) ∧
  (∀ (s : State) (e : ReadEvent) (c tag : Nat) (u : Cur),
      s.akUp = true →
      s.stageLevels.nextChan = some c →
      s.freeTag = some tag →
      (s.chan c).cur = some u →
      s.wantsDesc c = none →
      u.d.toHost = false →
      Completes (.dmaReadIssue e) s fun t =>
        t.dma.reqs = s.dma.reqs ++ [⟨tag, c, u.d.hostAt u.asked, u.nextLen, false, u.asked, [], false⟩] ∧ t.ak.queue = s.ak.queue ++ [.mrd tag (u.d.hostAt u.asked) u.nextLen] ∧ (t.chan c).cur = some { u with asked := u.asked + u.nextLen } ∧ t.hm = s.hm) ∧
  (∀ (s : State) (e : ReadEvent) (c tag : Nat) (r : Reading),
      s.akUp = true →
      s.stageLevels.nextChan = some c →
      s.freeTag = some tag →
      s.wantsDesc c = some r →
      Completes (.dmaReadIssue e) s fun t =>
        t.dma.reqs = s.dma.reqs ++ [⟨tag, c, r.addr, if r.reload then 8 else 64, true, 0, [], false⟩] ∧ t.ak.queue = s.ak.queue ++ [.mrd tag r.addr (if r.reload then 8 else 64)] ∧ (t.chan c).reading = some r ∧ (t.chan c).cur = (s.chan c).cur ∧ t.hm = s.hm) ∧
  (∀ (s : State) (tag : Nat) (r : Req) (u : Cur),
      s.dma.reqs.find? (fun r => r.tag == tag) = some r →
      s.akUp = true →
      (s.chan r.chan).aborting = false →
      r.dead = false →
      r.desc = false →
      (s.chan r.chan).cur = some u →
      u.cause = 0 →
      Completes (.cplTimeout tag) s fun t =>
        t.dma.reqs = s.dma.reqs.filter (fun q => q.tag != tag) ∧ t.dma.held = s.dma.held ++ [(tag, r.chan)] ∧ (t.chan r.chan).cur = some { u with cause := 2 } ∧ t.hm = s.hm ∧ t.fc = s.fc) ∧
  (∀ (s : State) (tag : Nat) (r : Req),
      s.dma.reqs.find? (fun r => r.tag == tag) = some r →
      s.akUp = true →
      (s.chan r.chan).aborting = false →
      r.dead = false →
      r.desc = true →
      Completes (.cplTimeout tag) s fun t =>
        t.dma.reqs = s.dma.reqs.filter (fun q => q.tag != tag) ∧ t.dma.held = s.dma.held ++ [(tag, r.chan)] ∧ (t.chan r.chan).result = some none ∧ t.hm = s.hm ∧ t.fc = s.fc) ∧
  (∀ (s : State) (tag : Nat),
      s.akUp = false →
      exec (.cplTimeout tag) s = .next ({ s with outbox := [] } : State).settled) ∧
  (∀ (s : State) (tag : Nat),
      Completes (.heldTagRelease tag) s fun t =>
        t.dma = { s.dma with held := s.dma.held.filter fun e => e.1 != tag } ∧ t.regs = s.regs ∧ t.hm = s.hm) ∧
  (∀ (s : State) (c : Nat) (f : Fill),
      c < 112 →
      (s.chan c).fill = some f →
      (s.pendNames f.handle || s.heldNames f.handle) = true →
      Completes (.dmaLate c) s fun t =>
        t.is (Reg.CH_STATUS_LATE c) = true ∧ ((t.src c).pend = true ∨ (t.src c).lost = satInc (s.src c).lost 65535)) ∧
  (∀ (s : State) (c : Nat),
      c < 112 →
      (s.chan c).fill = none →
      exec (.dmaLate c) s = .next ({ s with outbox := [] } : State).settled)

/-- On a session that is not BUSY: DEC_OPEN with a reason of Table 09.2 answers code 1 with the reason and reserves nothing; one that checks 3
to 6 turn down answers their code; one for which no free cells are left answers 3 (the model's reading of R63 and R80, log entry 914);
else the session is WAIT_IRAP, its cells are reserved, and the answer is 0. CLOSE, FLUSH and RESET of a CLOSED session answer 1 with
reason 1. CLOSE of a session with nothing left to output closes it and frees its cells; with output left it is DRAINING. FLUSH of a
session with pictures left waits for them, and with none left is WAIT_IRAP. RESET of a session that is WAIT_IRAP or DECODING drops the
picture, the DPB and the input and leaves it WAIT_IRAP. BUSY refuses with OVERRUN. DS_RESULT_LATCH shows code and detail, sets VALID,
clears BUSY, advances SEQ and sets source 182 pending. An accepted OPEN whose path has lost the unit by then answers 8 with the owner, and
its session is closed. No other session and no byte of memory changes. -/
def Obligations.DecoderSessionCommands : Prop :=
  (∀ (s : State) (o : Origin) (i : Nat) (r : Nat),
      i < 16 →
      s.accepts o (Reg.a_DS_CMD i) 1#32 = true →
      s.is (Reg.DS_RESULT_BUSY i) = false →
      (s.decTaken i).decReason i = some r →
      Completes (.decOpen o i) s fun t =>
        (t.dses i).busy = some (1, r) ∧ t.is (Reg.DS_RESULT_BUSY i) = true ∧ t.get (Reg.DS_STATUS_STATE i) = s.get (Reg.DS_STATUS_STATE i) ∧ t.hm = s.hm ∧ (∀ j, j ≠ i → t.dses j = s.dses j)) ∧
  (∀ (s : State) (o : Origin) (i : Nat) (r : AdmResult),
      i < 16 →
      s.accepts o (Reg.a_DS_CMD i) 1#32 = true →
      s.is (Reg.DS_RESULT_BUSY i) = false →
      (s.decTaken i).decReason i = none →
      s.decAdmission i = some r →
      Completes (.decOpen o i) s fun t =>
        (t.dses i).busy = some (r.code, r.detail % 2 ^ 32) ∧ t.is (Reg.DS_RESULT_BUSY i) = true ∧ t.get (Reg.DS_STATUS_STATE i) = s.get (Reg.DS_STATUS_STATE i) ∧ t.hm = s.hm ∧ (∀ j, j ≠ i → t.dses j = s.dses j)) ∧
  (∀ (s : State) (o : Origin) (i : Nat),
      i < 16 →
      s.accepts o (Reg.a_DS_CMD i) 1#32 = true →
      s.is (Reg.DS_RESULT_BUSY i) = false →
      (s.decTaken i).decReason i = none →
      s.decAdmission i = none →
      s.placePlanes s.heldCells (s.decPlanes i) = none →
      Completes (.decOpen o i) s fun t =>
        (∃ d, (t.dses i).busy = some (3, d) ∧ t.is (Reg.DS_RESULT_BUSY i) = true) ∧ t.get (Reg.DS_STATUS_STATE i) = s.get (Reg.DS_STATUS_STATE i) ∧ t.hm = s.hm ∧ (∀ j, j ≠ i → t.dses j = s.dses j)) ∧
  (∀ (s : State) (o : Origin) (i : Nat) (cs : List (List Nat)),
      i < 16 →
      s.accepts o (Reg.a_DS_CMD i) 1#32 = true →
      s.is (Reg.DS_RESULT_BUSY i) = false →
      (s.decTaken i).decReason i = none →
      s.decAdmission i = none →
      s.placePlanes s.heldCells (s.decPlanes i) = some cs →
      Completes (.decOpen o i) s fun t =>
        (t.dses i).busy = some (0, 0) ∧ t.is (Reg.DS_RESULT_BUSY i) = true ∧ t.get (Reg.DS_STATUS_STATE i) = 1 ∧ t.decOwn i = cs.flatten ∧ t.hm.mem = s.hm.mem ∧ t.hm.handles = s.hm.handles ∧ (∀ j, j ≠ i → t.dses j = s.dses j)) ∧
  (∀ (s : State) (o : Origin) (i : Nat),
      i < 16 →
      s.accepts o (Reg.a_DS_CMD i) 2#32 = true →
      s.is (Reg.DS_RESULT_BUSY i) = false →
      s.get (Reg.DS_STATUS_STATE i) = 0 →
      Completes (.decClose o i) s fun t =>
        (t.dses i).busy = some (1, 1) ∧ t.is (Reg.DS_RESULT_BUSY i) = true ∧ t.hm = s.hm ∧ (∀ j, j ≠ i → t.dses j = s.dses j)) ∧
  (∀ (s : State) (o : Origin) (i : Nat),
      i < 16 →
      s.accepts o (Reg.a_DS_CMD i) 3#32 = true →
      s.is (Reg.DS_RESULT_BUSY i) = false →
      s.get (Reg.DS_STATUS_STATE i) = 0 →
      Completes (.decFlush o i) s fun t =>
        (t.dses i).busy = some (1, 1) ∧ t.is (Reg.DS_RESULT_BUSY i) = true ∧ t.hm = s.hm ∧ (∀ j, j ≠ i → t.dses j = s.dses j)) ∧
  (∀ (s : State) (o : Origin) (i : Nat),
      i < 16 →
      s.accepts o (Reg.a_DS_CMD i) 4#32 = true →
      s.is (Reg.DS_RESULT_BUSY i) = false →
      s.get (Reg.DS_STATUS_STATE i) = 0 →
      Completes (.decReset o i) s fun t =>
        (t.dses i).busy = some (1, 1) ∧ t.is (Reg.DS_RESULT_BUSY i) = true ∧ t.hm = s.hm ∧ (∀ j, j ≠ i → t.dses j = s.dses j)) ∧
  (∀ (s : State) (o : Origin) (i : Nat),
      i < 16 →
      s.accepts o (Reg.a_DS_CMD i) 2#32 = true →
      s.is (Reg.DS_RESULT_BUSY i) = false →
      s.get (Reg.DS_STATUS_STATE i) ≠ 0 →
      (s.dses i).quiet = true →
      Completes (.decClose o i) s fun t =>
        t.get (Reg.DS_STATUS_STATE i) = 0 ∧ (t.dses i).busy = some (0, 0) ∧ t.is (Reg.DS_RESULT_BUSY i) = true ∧ t.decOwn i = [] ∧ t.hm.mem = s.hm.mem ∧ (∀ j, j ≠ i → t.dses j = s.dses j)) ∧
  (∀ (s : State) (o : Origin) (i : Nat),
      i < 16 →
      s.accepts o (Reg.a_DS_CMD i) 2#32 = true →
      s.is (Reg.DS_RESULT_BUSY i) = false →
      s.get (Reg.DS_STATUS_STATE i) ≠ 0 →
      (s.dses i).quiet = false →
      Completes (.decClose o i) s fun t =>
        t.get (Reg.DS_STATUS_STATE i) = 3 ∧ (t.dses i).busy = some (0, 0) ∧ t.is (Reg.DS_RESULT_BUSY i) = true ∧ (t.dses i).dpb = bumpAll (s.dses i).dpb ∧ (t.dses i).fifo = [] ∧ t.hm = s.hm ∧ (∀ j, j ≠ i → t.dses j = s.dses j)) ∧
  (∀ (s : State) (o : Origin) (i : Nat),
      i < 16 →
      s.accepts o (Reg.a_DS_CMD i) 3#32 = true →
      s.is (Reg.DS_RESULT_BUSY i) = false →
      s.get (Reg.DS_STATUS_STATE i) ≠ 0 →
      (s.dses i).quiet = false →
      Completes (.decFlush o i) s fun t =>
        (t.dses i).flushing = true ∧ (t.dses i).dpb = bumpAll (s.dses i).dpb ∧ (t.dses i).busy = some (0, 0) ∧ t.is (Reg.DS_RESULT_BUSY i) = true ∧ t.get (Reg.DS_STATUS_STATE i) = s.get (Reg.DS_STATUS_STATE i) ∧ t.hm = s.hm ∧ (∀ j, j ≠ i → t.dses j = s.dses j)) ∧
  (∀ (s : State) (o : Origin) (i : Nat),
      i < 16 →
      s.accepts o (Reg.a_DS_CMD i) 3#32 = true →
      s.is (Reg.DS_RESULT_BUSY i) = false →
      s.get (Reg.DS_STATUS_STATE i) = 1 ∨ s.get (Reg.DS_STATUS_STATE i) = 2 →
      (s.dses i).quiet = true →
      Completes (.decFlush o i) s fun t =>
        (t.dses i).flushing = false ∧ (t.dses i).dpb = [] ∧ (t.dses i).busy = some (0, 0) ∧ t.is (Reg.DS_RESULT_BUSY i) = true ∧ t.get (Reg.DS_STATUS_STATE i) = 1 ∧ t.hm = s.hm ∧ (∀ j, j ≠ i → t.dses j = s.dses j)) ∧
  (∀ (s : State) (o : Origin) (i : Nat),
      i < 16 →
      s.accepts o (Reg.a_DS_CMD i) 4#32 = true →
      s.is (Reg.DS_RESULT_BUSY i) = false →
      s.get (Reg.DS_STATUS_STATE i) = 1 ∨ s.get (Reg.DS_STATUS_STATE i) = 2 →
      Completes (.decReset o i) s fun t =>
        (t.dses i).cur = none ∧ (t.dses i).dpb = [] ∧ (t.dses i).writing = none ∧ t.get (Reg.DS_STATUS_STATE i) = 1 ∧ (t.dses i).busy = some (0, 0) ∧ t.is (Reg.DS_RESULT_BUSY i) = true ∧ t.hm.mem = s.hm.mem ∧ t.hm.handles = s.hm.handles ∧ (∀ j, j ≠ i → t.dses j = s.dses j)) ∧
  (∀ (s : State) (o : Origin) (i : Nat),
      i < 16 →
      s.accepts o (Reg.a_DS_CMD i) 1#32 = true →
      s.is (Reg.DS_RESULT_BUSY i) = true →
      Completes (.decOpen o i) s fun t =>
        t.is (Reg.DS_RESULT_OVERRUN i) = true ∧ t.dec = s.dec ∧ t.hm = s.hm) ∧
  (∀ (s : State) (i : Nat) (code detail : Nat),
      i < 16 →
      (s.dses i).busy = some (code, detail) →
      s.dsLost i = false →
      code < 16 →
      detail < 2 ^ 32 →
      Completes (.dsResultLatch i) s fun t =>
        t.get (Reg.DS_RESULT_CODE i) = code ∧ t.get (Reg.DS_DETAIL_DETAIL i) = detail ∧ t.is (Reg.DS_RESULT_VALID i) = true ∧ t.is (Reg.DS_RESULT_BUSY i) = false ∧
        t.get (Reg.DS_RESULT_SEQ i) = (s.get (Reg.DS_RESULT_SEQ i) + 1) % 256 ∧ (t.src 182).pend = true ∧ t.hm = s.hm ∧ (∀ j, j ≠ i → t.dses j = s.dses j)) ∧
  (∀ (s : State) (i : Nat) (code detail : Nat),
      i < 16 →
      (s.dses i).busy = some (code, detail) →
      s.dsLost i = true →
      Completes (.dsResultLatch i) s fun t =>
        t.get (Reg.DS_RESULT_CODE i) = 8 ∧ t.get (Reg.DS_DETAIL_DETAIL i) = s.owner unitDecoder ∧ t.get (Reg.DS_STATUS_STATE i) = 0 ∧ t.is (Reg.DS_RESULT_BUSY i) = false ∧ MemoryKept s t)

/-- DEC_PICTURE_START, in an open session while the decoder is free, of an IRAP picture whose SPS keeps R230, or in a session that decodes
under an accepted SPS of another picture that is not passed over: the session decodes, the picture is the one being decoded, BUSY shows,
and taint is that of its missing or tainted references. An IRAP picture whose SPS does not keep R230 sets SPS_REFUSED and leaves
WAIT_IRAP. While the decoder is BUSY or FENCED it has no effect. In a session neither DRAINING nor flushing, DEC_PICTURE_DONE without a
hash to check puts the picture being decoded into its DPB, its CTUs that were not decoded concealed and tainted for it, counts DECODED and
frees the decoder. DEC_WATCHDOG conceals and taints the picture the first time; on the second consecutive picture of the session it raises
DEC_TIMEOUT and fences the decoder, closing every session. DEC_UNFENCE clears FENCED once the fault status is clear and keeps it before.
DEC_INJ arms what it writes. No byte of memory changes outside the cells of the session. -/
def Obligations.PicturesAreDecodedOrConcealed : Prop :=
  (∀ (s : State) (i : Nat) (f : PicFacts),
      i < 16 →
      s.is Reg.DEC_STATUS_BUSY = false →
      s.is Reg.DEC_STATUS_FENCED = false →
      (s.dses i).flushing = false →
      s.is Reg.DEC_INJ_PAR = false →
      s.get (Reg.DS_STATUS_STATE i) = 1 ∨ s.get (Reg.DS_STATUS_STATE i) = 2 →
      f.layer = 0 →
      f.irap = true →
      s.spsOk i f = true →
      (s.dses i).creditD ≤ (s.dses i).creditN ∨ s.get Reg.PWR_GRANT_DEC ≠ 0 →
      Completes (.decPictureStart i f) s fun t =>
        (∃ q, (t.dses i).cur = some q ∧ q.poc = f.poc ∧ q.w = f.cropW ∧ q.h = f.cropH ∧ q.waiting = f.output ∧ (q.taint = true ↔ (s.dses i).inherits f = true)) ∧
        t.get (Reg.DS_STATUS_STATE i) = 2 ∧ t.is Reg.DEC_STATUS_BUSY = true ∧ OthersKept (s.decOwn i) s t ∧ (∀ j, j ≠ i → t.dses j = s.dses j)) ∧
  (∀ (s : State) (i : Nat) (f : PicFacts),
      i < 16 →
      s.is Reg.DEC_STATUS_BUSY = false →
      s.is Reg.DEC_STATUS_FENCED = false →
      (s.dses i).flushing = false →
      s.is Reg.DEC_INJ_PAR = false →
      s.get (Reg.DS_STATUS_STATE i) = 2 →
      (s.dses i).spsBad = false →
      (s.dses i).ignores f = false →
      f.irap = false →
      (s.dses i).creditD ≤ (s.dses i).creditN ∨ s.get Reg.PWR_GRANT_DEC ≠ 0 →
      Completes (.decPictureStart i f) s fun t =>
        (∃ q, (t.dses i).cur = some q ∧ q.poc = f.poc ∧ q.w = f.cropW ∧ q.h = f.cropH ∧ q.waiting = f.output ∧ (q.taint = true ↔ (s.dses i).inherits f = true)) ∧
        t.get (Reg.DS_STATUS_STATE i) = 2 ∧ t.is Reg.DEC_STATUS_BUSY = true ∧ OthersKept (s.decOwn i) s t ∧ (∀ j, j ≠ i → t.dses j = s.dses j)) ∧
  (∀ (s : State) (i : Nat) (f : PicFacts),
      i < 16 →
      s.is Reg.DEC_STATUS_BUSY = false →
      s.is Reg.DEC_STATUS_FENCED = false →
      (s.dses i).flushing = false →
      s.is Reg.DEC_INJ_PAR = false →
      s.get (Reg.DS_STATUS_STATE i) = 1 ∨ s.get (Reg.DS_STATUS_STATE i) = 2 →
      f.layer = 0 →
      f.irap = true →
      s.spsOk i f = false →
      Completes (.decPictureStart i f) s fun t =>
        t.is (Reg.DS_STATUS_SPS_REFUSED i) = true ∧ t.get (Reg.DS_STATUS_STATE i) = 1 ∧ (t.dses i).cur = (s.dses i).cur ∧ t.is Reg.DEC_STATUS_BUSY = false ∧ t.hm = s.hm ∧ (∀ j, j ≠ i → t.dses j = s.dses j)) ∧
  (∀ (s : State) (i : Nat) (f : PicFacts),
      s.is Reg.DEC_STATUS_BUSY = true ∨ s.is Reg.DEC_STATUS_FENCED = true →
      exec (.decPictureStart i f) s = .next ({ s with outbox := [] } : State).settled) ∧
  (∀ (s : State) (i : Nat) (q : DecPic) (lost rd : List Nat),
      s.is Reg.DEC_INJ_WDT = false →
      s.is Reg.DEC_INJ_CACHE = false →
      s.decoding = some (i, q) →
      (s.dses i).expired = false →
      q.hash = none ∨ s.is (Reg.DS_POLICY_HASH_EN i) = false →
      rd.all (fun a => !s.forcedDouble a) = true →
      s.get (Reg.DS_STATUS_STATE i) ≠ 3 →
      (s.dses i).flushing = false →
      Completes (.decPictureDone lost .clean rd .clean) s fun t =>
        (t.dses i).cur = none ∧ (t.dses i).dpb = enterDpb (s.dses i).limits (s.dses i).dpb (q.conceal (s.dses i).dpb lost) ∧ t.get (Reg.DS_CNT_DEC_DECODED i) = (s.get (Reg.DS_CNT_DEC_DECODED i) + 1) % 65536 ∧ t.is Reg.DEC_STATUS_BUSY = false ∧
        (lost ≠ [] → t.is (Reg.DS_STATUS_CONCEALED i) = true) ∧ t.hm.handles = s.hm.handles ∧ OthersKept (s.decOwn i) s t ∧ (∀ j, j ≠ i → t.dses j = s.dses j)) ∧
  (∀ (s : State) (lost : List Nat) (c : CacheEvent) (rd : List Nat) (e : ReadEvent),
      s.decoding = none →
      exec (.decPictureDone lost c rd e) s = .next ({ s with outbox := [] } : State).settled) ∧
  (∀ (s : State) (i : Nat) (q : DecPic) (lost : List Nat),
      s.is Reg.DEC_INJ_WDT = false →
      s.decoding = some (i, q) →
      (s.dses i).expired = false →
      s.get (Reg.DS_STATUS_STATE i) ≠ 3 →
      (s.dses i).flushing = false →
      Completes (.decWatchdog lost) s fun t =>
        (t.dses i).cur = none ∧ (t.dses i).expired = true ∧ (t.dses i).dpb = enterDpb (s.dses i).limits (s.dses i).dpb { q.conceal (s.dses i).dpb lost with taint := true } ∧ t.is (Reg.DS_STATUS_TIMEOUT i) = true ∧ t.is (Reg.DS_STATUS_CONCEALED i) = true ∧ t.is Reg.DEC_STATUS_BUSY = false ∧
        t.fc = s.fc ∧ t.hm.handles = s.hm.handles ∧ OthersKept (s.decOwn i) s t ∧ (∀ j, j ≠ i → t.dses j = s.dses j)) ∧
  (∀ (s : State) (i : Nat) (q : DecPic) (lost : List Nat),
      s.is Reg.DEC_INJ_WDT = false →
      s.decoding = some (i, q) →
      (s.dses i).expired = true →
      Completes (.decWatchdog lost) s fun t =>
        t.reported .DEC_TIMEOUT ∧ t.is Reg.DEC_STATUS_FENCED = true ∧ (∀ j, j < 16 → t.get (Reg.DS_STATUS_STATE j) = 0) ∧ MemoryKept s t) ∧
  (∀ (s : State) (lost : List Nat),
      s.is Reg.DEC_INJ_WDT = false →
      s.decoding = none →
      exec (.decWatchdog lost) s = .next ({ s with outbox := [] } : State).settled) ∧
  (∀ (s : State) (o : Origin) (v : Word),
      s.accepts o (Reg.a_DEC_CTRL) v = true →
      bit v.toNat 0 = true →
      Completes (.decUnfence o v) s fun t =>
        (s.cleared .DEC_TIMEOUT = true → s.cleared .DEC_STATE_PAR = true → t.is Reg.DEC_STATUS_FENCED = false) ∧
        (s.cleared .DEC_TIMEOUT = false ∨ s.cleared .DEC_STATE_PAR = false → t.is Reg.DEC_STATUS_FENCED = s.is Reg.DEC_STATUS_FENCED) ∧ t.dec = s.dec ∧ t.hm = s.hm) ∧
  (∀ (s : State) (o : Origin) (v : Word),
      s.accepts o (Reg.a_DEC_INJ) v = true →
      Completes (.decInj o v) s fun t =>
        (∀ b, b < 4 → bit (t.reg Reg.a_DEC_INJ).toNat b = (bit (s.reg Reg.a_DEC_INJ).toNat b || bit v.toNat b)) ∧ t.dec = s.dec ∧ t.hm = s.hm)

/-- A picture is due that awaits output, that bumping has taken, and that precedes every other such picture in output order. DEC_OUTPUT with a
picture due and none being written: a tainted picture under TAINT_POLICY 0 is dropped and counted; one whose DPB words read clean is
dropped with PINNED_WRITE when no ring entry is free, and else goes to the first entry from NEXT that is free, whose buffer is FILLING.
Memory changes only as its writes are acknowledged. With nothing due it has no effect. DEC_OUT with every write acknowledged well seals
the buffer, shows DS_OUT_LAST, counts OUTPUT and appends the event; with a failed write it sets WR_ERR and seals nothing; with nothing
being written, or a write outstanding, it has no effect. -/
def Obligations.PicturesLeaveInOutputOrder : Prop :=
  (∀ (s : State) (i : Nat) (e : ReadEvent),
      (s.dses i).due = none →
      exec (.decOutput i e) s = .next ({ s with outbox := [] } : State).settled) ∧
  (∀ (s : State) (i : Nat) (q : DecPic),
      (s.dses i).due = some q →
      q ∈ (s.dses i).dpb ∧ q.waiting = true ∧ q.bumped = true ∧ ∀ p, p ∈ (s.dses i).dpb → p.waiting = true → p.bumped = true → p.before q = false) ∧
  (∀ (s : State) (i : Nat) (q : DecPic) (e : ReadEvent),
      i < 16 →
      (s.dses i).due = some q →
      (s.dses i).writing = none →
      q.taint = true →
      s.is (Reg.DS_POLICY_TAINT_POLICY i) = false →
      Completes (.decOutput i e) s fun t =>
        (∀ p, p ∈ (t.dses i).dpb → p.waiting = true → p.seq = q.seq → p.poc ≠ q.poc) ∧ (t.dses i).writing = none ∧ t.get (Reg.DS_CNT_OUT_DROPPED i) = (s.get (Reg.DS_CNT_OUT_DROPPED i) + 1) % 65536 ∧ t.hm.handles = s.hm.handles ∧ t.hm.mem = s.hm.mem ∧ (∀ j, j ≠ i → t.dses j = s.dses j)) ∧
  (∀ (s : State) (i : Nat) (q : DecPic) (j : Nat),
      i < 16 →
      (s.dses i).due = some q →
      (s.dses i).writing = none →
      s.heldClean i q = false →
      (s.entryWords i q).all (fun a => !s.forcedDouble a) = true →
      s.ringEntry i = some j →
      Completes (.decOutput i .clean) s fun t =>
        (t.dses i).writing = some ⟨j, s.ringHandle i j, q⟩ ∧ (t.handle (s.ringHandle i j)).st = .filling ∧ (∀ x, x ≠ s.ringHandle i j → t.handle x = s.handle x) ∧
        t.hm.writes = s.hm.writes ++ (q.rows (s.freeCtr + 1) (s.get (Reg.DS_OUT_STRIDE_STRIDE0 i)) (s.get (Reg.DS_OUT_STRIDE_STRIDE1 i))).map (fun r => ⟨128 + i, s.ringHandle i j, r.1, r.2.1, r.2.2, false⟩) ∧ MemoryKept s t) ∧
  (∀ (s : State) (i : Nat) (q : DecPic),
      i < 16 →
      (s.dses i).due = some q →
      (s.dses i).writing = none →
      s.heldClean i q = false →
      (s.entryWords i q).all (fun a => !s.forcedDouble a) = true →
      s.ringEntry i = none →
      Completes (.decOutput i .clean) s fun t =>
        t.is (Reg.DS_STATUS_PINNED_WRITE i) = true ∧ (t.dses i).writing = none ∧ t.get (Reg.DS_CNT_OUT_DROPPED i) = (s.get (Reg.DS_CNT_OUT_DROPPED i) + 1) % 65536 ∧ t.hm.handles = s.hm.handles ∧ MemoryKept s t) ∧
  (∀ (s : State) (i : Nat) (w : DecWr),
      i < 16 →
      (s.dses i).writing = some w →
      s.inFlight (128 + i) = false →
      s.wroteBad (128 + i) = false →
      s.wroteMoved (128 + i) = false →
      (s.handle w.handle).st = .filling →
      Completes (.decOut i) s fun t =>
        (t.handle w.handle).st = .sealed ∧ (∀ x, x ≠ w.handle → t.handle x = s.handle x) ∧ (t.dses i).writing = none ∧ t.get (Reg.DS_OUT_LAST_HANDLE i) = w.handle % 1024 ∧ t.get (Reg.DS_OUT_LAST_TAINT i) = b2n w.pic.taint ∧
        t.get (Reg.DS_CNT_OUT_OUTPUT i) = (s.get (Reg.DS_CNT_OUT_OUTPUT i) + 1) % 65536 ∧ MemoryKept s t) ∧
  (∀ (s : State) (i : Nat) (w : DecWr),
      i < 16 →
      (s.dses i).writing = some w →
      s.inFlight (128 + i) = false →
      s.wroteBad (128 + i) = true →
      Completes (.decOut i) s fun t =>
        t.is (Reg.DS_STATUS_WR_ERR i) = true ∧ (t.dses i).writing = none ∧ t.hm.handles = s.hm.handles ∧ MemoryKept s t) ∧
  (∀ (s : State) (i : Nat),
      (s.dses i).writing = none ∨ s.inFlight (128 + i) = true →
      exec (.decOut i) s = .next ({ s with outbox := [] } : State).settled)

/-- On a session that is not BUSY: ENC_OPEN with a reason of Table 10.2 answers code 1 with the reason and reserves nothing; with too few
cells it answers 3 with the cells that lack; with no free cells in the places it needs it answers 3 (the model's reading of R63 and R80,
log entry 914); else the session is RUNNING with its cells reserved and the answer is 0. CLOSE and FORCE_IDR of a CLOSED session answer 1
with reason 1. CLOSE of a session with nothing left to code or to take closes it and frees its cells; with something left it is DRAINING
and captures nothing more. FORCE_IDR marks the next picture. BUSY refuses with OVERRUN. ES_RESULT_LATCH shows code and detail, sets VALID,
clears BUSY, advances SEQ and sets source 183 pending. An accepted OPEN whose path has lost the unit by then answers 8 with the owner, and
its session is closed. No other session and no byte of memory changes. -/
def Obligations.EncoderSessionCommands : Prop :=
  (∀ (s : State) (o : Origin) (i : Nat) (r : Nat),
      i < 12 →
      s.accepts o (Reg.a_ES_CMD i) 1#32 = true →
      s.is (Reg.ES_RESULT_BUSY i) = false →
      (s.encTaken i).encReason i = some r →
      Completes (.encOpen o i) s fun t =>
        (t.eses i).busy = some (1, r) ∧ t.is (Reg.ES_RESULT_BUSY i) = true ∧ t.get (Reg.ES_STATUS_STATE i) = s.get (Reg.ES_STATUS_STATE i) ∧ t.hm = s.hm ∧ (∀ j, j ≠ i → t.eses j = s.eses j)) ∧
  (∀ (s : State) (o : Origin) (i : Nat),
      i < 12 →
      s.accepts o (Reg.a_ES_CMD i) 1#32 = true →
      s.is (Reg.ES_RESULT_BUSY i) = false →
      (s.encTaken i).encReason i = none →
      ((s.encTaken i).figures s.orbit.sheds ((s.encTaken i).world [])).cellsAvail < ((s.encTaken i).figures s.orbit.sheds ((s.encTaken i).world [])).cells + s.encCells i →
      Completes (.encOpen o i) s fun t =>
        (t.eses i).busy = some (3, ((s.encTaken i).figures s.orbit.sheds ((s.encTaken i).world [])).cells + s.encCells i - ((s.encTaken i).figures s.orbit.sheds ((s.encTaken i).world [])).cellsAvail) ∧ t.is (Reg.ES_RESULT_BUSY i) = true ∧ t.get (Reg.ES_STATUS_STATE i) = s.get (Reg.ES_STATUS_STATE i) ∧ t.hm = s.hm ∧ (∀ j, j ≠ i → t.eses j = s.eses j)) ∧
  (∀ (s : State) (o : Origin) (i : Nat),
      i < 12 →
      s.accepts o (Reg.a_ES_CMD i) 1#32 = true →
      s.is (Reg.ES_RESULT_BUSY i) = false →
      (s.encTaken i).encReason i = none →
      ((s.encTaken i).figures s.orbit.sheds ((s.encTaken i).world [])).cells + s.encCells i ≤ ((s.encTaken i).figures s.orbit.sheds ((s.encTaken i).world [])).cellsAvail →
      (s.encTaken i).placePlanes (s.encTaken i).heldCells ((s.encTaken i).encPlanes i) = none →
      Completes (.encOpen o i) s fun t =>
        (∃ d, (t.eses i).busy = some (3, d) ∧ t.is (Reg.ES_RESULT_BUSY i) = true) ∧ t.get (Reg.ES_STATUS_STATE i) = s.get (Reg.ES_STATUS_STATE i) ∧ t.hm = s.hm ∧ (∀ j, j ≠ i → t.eses j = s.eses j)) ∧
  (∀ (s : State) (o : Origin) (i : Nat) (cs : List (List Nat)),
      i < 12 →
      s.accepts o (Reg.a_ES_CMD i) 1#32 = true →
      s.is (Reg.ES_RESULT_BUSY i) = false →
      (s.encTaken i).encReason i = none →
      ((s.encTaken i).figures s.orbit.sheds ((s.encTaken i).world [])).cells + s.encCells i ≤ ((s.encTaken i).figures s.orbit.sheds ((s.encTaken i).world [])).cellsAvail →
      (s.encTaken i).placePlanes (s.encTaken i).heldCells ((s.encTaken i).encPlanes i) = some cs →
      Completes (.encOpen o i) s fun t =>
        t.get (Reg.ES_STATUS_STATE i) = 1 ∧ (t.eses i).busy = some (0, 0) ∧ t.is (Reg.ES_RESULT_BUSY i) = true ∧ t.encOwn i = cs.flatten ∧ t.hm.mem = s.hm.mem ∧ t.hm.handles = s.hm.handles ∧ (∀ j, j ≠ i → t.eses j = s.eses j)) ∧
  (∀ (s : State) (o : Origin) (i : Nat),
      i < 12 →
      s.accepts o (Reg.a_ES_CMD i) 2#32 = true →
      s.is (Reg.ES_RESULT_BUSY i) = false →
      s.get (Reg.ES_STATUS_STATE i) = 0 →
      Completes (.encClose o i) s fun t =>
        (t.eses i).busy = some (1, 1) ∧ t.is (Reg.ES_RESULT_BUSY i) = true ∧ t.hm = s.hm ∧ (∀ j, j ≠ i → t.eses j = s.eses j)) ∧
  (∀ (s : State) (o : Origin) (i : Nat),
      i < 12 →
      s.accepts o (Reg.a_ES_CMD i) 3#32 = true →
      s.is (Reg.ES_RESULT_BUSY i) = false →
      s.get (Reg.ES_STATUS_STATE i) = 0 →
      Completes (.forceIdr o i) s fun t =>
        (t.eses i).busy = some (1, 1) ∧ t.is (Reg.ES_RESULT_BUSY i) = true ∧ t.hm = s.hm ∧ (∀ j, j ≠ i → t.eses j = s.eses j)) ∧
  (∀ (s : State) (o : Origin) (i : Nat),
      i < 12 →
      s.accepts o (Reg.a_ES_CMD i) 2#32 = true →
      s.is (Reg.ES_RESULT_BUSY i) = false →
      s.get (Reg.ES_STATUS_STATE i) ≠ 0 →
      (s.eses i).frames = [] →
      (s.eses i).coding = none →
      (s.eses i).recs = [] →
      Completes (.encClose o i) s fun t =>
        t.get (Reg.ES_STATUS_STATE i) = 0 ∧ (t.eses i).busy = some (0, 0) ∧ t.is (Reg.ES_RESULT_BUSY i) = true ∧ t.encOwn i = [] ∧ t.hm.mem = s.hm.mem ∧ (∀ j, j ≠ i → t.eses j = s.eses j)) ∧
  (∀ (s : State) (o : Origin) (i : Nat),
      i < 12 →
      s.accepts o (Reg.a_ES_CMD i) 2#32 = true →
      s.is (Reg.ES_RESULT_BUSY i) = false →
      s.get (Reg.ES_STATUS_STATE i) ≠ 0 →
      (s.eses i).frames ≠ [] ∨ (s.eses i).coding ≠ none ∨ (s.eses i).recs ≠ [] →
      Completes (.encClose o i) s fun t =>
        t.get (Reg.ES_STATUS_STATE i) = 2 ∧ (t.eses i).busy = some (0, 0) ∧ t.is (Reg.ES_RESULT_BUSY i) = true ∧ (t.eses i).recs = (s.eses i).recs ∧ (t.eses i).frames = (s.eses i).frames ∧ (t.eses i).coding = (s.eses i).coding ∧ (t.eses i).cap = none ∧ t.hm = s.hm ∧ (∀ j, j ≠ i → t.eses j = s.eses j)) ∧
  (∀ (s : State) (o : Origin) (i : Nat),
      i < 12 →
      s.accepts o (Reg.a_ES_CMD i) 3#32 = true →
      s.is (Reg.ES_RESULT_BUSY i) = false →
      s.get (Reg.ES_STATUS_STATE i) ≠ 0 →
      Completes (.forceIdr o i) s fun t =>
        (t.eses i).forceIdr = true ∧ (t.eses i).recs = (s.eses i).recs ∧ t.get (Reg.ES_STATUS_STATE i) = s.get (Reg.ES_STATUS_STATE i) ∧ (t.eses i).busy = some (0, 0) ∧ t.is (Reg.ES_RESULT_BUSY i) = true ∧ t.hm = s.hm ∧ (∀ j, j ≠ i → t.eses j = s.eses j)) ∧
  (∀ (s : State) (o : Origin) (i : Nat),
      i < 12 →
      s.accepts o (Reg.a_ES_CMD i) 1#32 = true →
      s.is (Reg.ES_RESULT_BUSY i) = true →
      Completes (.encOpen o i) s fun t =>
        t.is (Reg.ES_RESULT_OVERRUN i) = true ∧ t.enc = s.enc ∧ t.hm = s.hm) ∧
  (∀ (s : State) (i : Nat) (code detail : Nat),
      i < 12 →
      (s.eses i).busy = some (code, detail) →
      s.esLost i = false →
      code < 16 →
      detail < 2 ^ 32 →
      Completes (.esResultLatch i) s fun t =>
        t.get (Reg.ES_RESULT_CODE i) = code ∧ t.get (Reg.ES_DETAIL_DETAIL i) = detail ∧ t.is (Reg.ES_RESULT_VALID i) = true ∧ t.is (Reg.ES_RESULT_BUSY i) = false ∧
        t.get (Reg.ES_RESULT_SEQ i) = (s.get (Reg.ES_RESULT_SEQ i) + 1) % 256 ∧ (t.src 183).pend = true ∧ t.hm = s.hm ∧ (∀ j, j ≠ i → t.eses j = s.eses j)) ∧
  (∀ (s : State) (i : Nat) (code detail : Nat),
      i < 12 →
      (s.eses i).busy = some (code, detail) →
      s.esLost i = true →
      Completes (.esResultLatch i) s fun t =>
        t.get (Reg.ES_RESULT_CODE i) = 8 ∧ t.get (Reg.ES_DETAIL_DETAIL i) = s.owner unitEncoder ∧ t.get (Reg.ES_STATUS_STATE i) = 0 ∧ t.is (Reg.ES_RESULT_BUSY i) = false ∧ MemoryKept s t)

/-- ENC_PICTURE_START with no picture being coded and 3 tokens or more takes the first captured picture of the session whose capture closed
first, fixes its plan with the budget and the frame QP of R266, and makes it IDR as R265 asks. With a picture being coded or fewer tokens
it has no effect. ENC_PICTURE_DONE of a picture that meets no injection and whose words read clean: with room in the output queue, the
queue gains the GAP record of earlier drops and the access unit, CODED counts, and the encoder is free; without room the picture is
dropped under OUT_FULL with reason 4. ENC_WATCHDOG drops the picture being coded with reason 6 and sets TIMEOUT; when the expiry follows
another one the encoder is fenced, ENC_TIMEOUT raised and every session closed. With no picture being coded the two have no effect.
ENC_UNFENCE clears FENCED once the fault status is clear and keeps it before. ENC_INJ arms what it writes. No byte of memory changes
outside the cells of the session. -/
def Obligations.PicturesAreCodedInOrder : Prop :=
  (∀ (s : State) (i : Nat) (c : CapFrame) (cs : List CapFrame) (rest : List Nat),
      i < 12 →
      s.is Reg.ENC_INJ_PAR = false →
      s.encCoding = none →
      3 ≤ s.get Reg.PWR_GRANT_ENC →
      s.enc.order = i :: rest →
      (s.eses i).frames = c :: cs →
      Completes (.encPictureStart) s fun t =>
        (t.eses i).coding = some c ∧ (t.eses i).frames = cs ∧ (t.eses i).plan = s.encPlan i c ∧ (t.eses i).qprev = s.encQf i ∧ t.get (Reg.ES_DEBT_LAST_QP i) = s.encQf i ∧ t.enc.order = rest ∧ t.is Reg.ENC_STATUS_BUSY = true ∧
        ((t.eses i).plan.idr = true ↔ (s.eses i).first = true ∨ max 1 (s.get (Reg.ES_CFG_GOP i)) ≤ (s.eses i).sinceIdr ∨ (s.eses i).forceIdr = true ∨ (s.eses i).lastSize ≠ some (c.w, c.h) ∨ (s.eses i).lastDropped = true) ∧ t.hm = s.hm ∧ (∀ j, j ≠ i → t.eses j = s.eses j)) ∧
  (∀ (s : State),
      s.encCoding.isSome = true ∨ s.get Reg.PWR_GRANT_ENC < 3 →
      exec (.encPictureStart) s = .next ({ s with outbox := [] } : State).settled) ∧
  (∀ (s : State) (i : Nat) (c : CapFrame) (fs : List CtuFact) (slice : List Byte) (k : Nat),
      s.is Reg.ENC_INJ_WDT = false →
      s.is Reg.ENC_INJ_SRAM = false →
      s.encCoding = some i →
      (s.eses i).coding = some c →
      s.enc.expired = none →
      ((s.encReads i c (s.eses i).plan.idr).1 ++ (s.encReads i c (s.eses i).plan.idr).2).all (fun a => !s.forcedDouble a) = true →
      (s.eses i).queued + sumNat ((s.encRecords i c ((s.encRating i c).code fs) slice).map List.length) ≤ s.encRing i →
      Completes (.encPictureDone fs slice .clean k .clean) s fun t =>
        (t.eses i).coding = none ∧ (t.eses i).recs = (s.eses i).recs ++ (s.encRecords i c ((s.encRating i c).code fs) slice).map List.length ∧ (t.eses i).queued = (s.eses i).queued + sumNat ((s.encRecords i c ((s.encRating i c).code fs) slice).map List.length) ∧ (t.eses i).lastDropped = false ∧ (t.eses i).sprev = ((s.encRating i c).code fs).spent ∧ t.enc.expired = none ∧
        t.is Reg.ENC_STATUS_BUSY = false ∧ t.get (Reg.ES_FRAMES_CODED i) = (s.get (Reg.ES_FRAMES_CODED i) + 1) % 65536 ∧ (((s.encRating i c).code fs).mode ≠ 0 → t.is (Reg.ES_STATUS_EXHAUSTED i) = true) ∧ OthersKept (s.encOwn i) s t ∧ (∀ j, j ≠ i → t.eses j = s.eses j)) ∧
  (∀ (s : State) (i : Nat) (c : CapFrame) (fs : List CtuFact) (slice : List Byte) (k : Nat),
      s.is Reg.ENC_INJ_WDT = false →
      s.is Reg.ENC_INJ_SRAM = false →
      s.encCoding = some i →
      (s.eses i).coding = some c →
      s.enc.expired = none →
      s.get (Reg.ES_STATUS_STATE i) = 1 →
      ((s.encReads i c (s.eses i).plan.idr).1 ++ (s.encReads i c (s.eses i).plan.idr).2).all (fun a => !s.forcedDouble a) = true →
      s.encRing i < (s.eses i).queued + sumNat ((s.encRecords i c ((s.encRating i c).code fs) slice).map List.length) →
      Completes (.encPictureDone fs slice .clean k .clean) s fun t =>
        (t.eses i).coding = none ∧ (t.eses i).recs = (s.eses i).recs ∧ (t.eses i).lastDropped = true ∧ t.is (Reg.ES_STATUS_OUT_FULL i) = true ∧ t.is Reg.ENC_STATUS_BUSY = false ∧ t.get (Reg.ES_STATUS_GAP_REASON i) = 4 ∧ t.get (Reg.ES_FRAMES_CODED i) = s.get (Reg.ES_FRAMES_CODED i) ∧ OthersKept (s.encOwn i) s t ∧ (∀ j, j ≠ i → t.eses j = s.eses j)) ∧
  (∀ (s : State) (fs : List CtuFact) (slice : List Byte) (m : CacheEvent) (k : Nat) (e : ReadEvent),
      s.encCoding = none →
      exec (.encPictureDone fs slice m k e) s = .next ({ s with outbox := [] } : State).settled) ∧
  (∀ (s : State) (i : Nat) (c : CapFrame),
      s.is Reg.ENC_INJ_WDT = false →
      s.encCoding = some i →
      (s.eses i).coding = some c →
      s.enc.expired = none →
      Completes (.encWatchdog) s fun t =>
        (t.eses i).coding = none ∧ t.is (Reg.ES_STATUS_TIMEOUT i) = true ∧ t.enc.expired = some false ∧ t.is Reg.ENC_STATUS_BUSY = false ∧ t.get (Reg.ES_STATUS_GAP_REASON i) = 6 ∧ (s.get (Reg.ES_STATUS_STATE i) = 1 → (t.eses i).drops = (s.eses i).drops ++ [(c.seq, c.stamp, 6)]) ∧ t.fc = s.fc ∧ t.hm.mem = s.hm.mem ∧ (∀ j, j ≠ i → t.eses j = s.eses j)) ∧
  (∀ (s : State) (i : Nat) (c : CapFrame),
      s.is Reg.ENC_INJ_WDT = false →
      s.encCoding = some i →
      (s.eses i).coding = some c →
      s.enc.expired.isSome = true →
      Completes (.encWatchdog) s fun t =>
        t.reported .ENC_TIMEOUT ∧ t.is Reg.ENC_STATUS_FENCED = true ∧ (∀ j, j < 12 → t.get (Reg.ES_STATUS_STATE j) = 0) ∧ MemoryKept s t) ∧
  (∀ (s : State),
      s.is Reg.ENC_INJ_WDT = false →
      s.encCoding = none →
      exec (.encWatchdog) s = .next ({ s with outbox := [] } : State).settled) ∧
  (∀ (s : State) (o : Origin) (v : Word),
      s.accepts o (Reg.a_ENC_CTRL) v = true →
      bit v.toNat 0 = true →
      Completes (.encUnfence o v) s fun t =>
        (s.cleared .ENC_TIMEOUT = true → s.cleared .ENC_STATE_PAR = true → t.is Reg.ENC_STATUS_FENCED = false) ∧
        (s.cleared .ENC_TIMEOUT = false ∨ s.cleared .ENC_STATE_PAR = false → t.is Reg.ENC_STATUS_FENCED = s.is Reg.ENC_STATUS_FENCED) ∧ t.enc = s.enc ∧ t.hm = s.hm) ∧
  (∀ (s : State) (o : Origin) (v : Word),
      s.accepts o (Reg.a_ENC_INJ) v = true →
      Completes (.encInj o v) s fun t =>
        (∀ b, b < 3 → bit (t.reg Reg.a_ENC_INJ).toNat b = (bit (s.reg Reg.a_ENC_INJ).toNat b || bit v.toNat b)) ∧ t.enc = s.enc ∧ t.hm = s.hm)

/-- AK_TRAIN_ADVANCE leaves DOWN for DETECT where the CORE PLL is locked and the part is not entering SMOULDER or EMBER, goes from DETECT to
CLOCK to EQ to ALIGN to CONFIG one state at a time, and from CONFIG to ACTIVE with enough lanes: the inbound width is
CAPACITY.AKNUM_LANES, INIT is the first LINK flit, and with too few lanes the link is DOWN with AK_LINK_DOWN. AK_TRAIN_LIMIT of a full
training in DETECT takes the link DOWN; in the states behind it, it fences the lanes that missed the limit and goes on with the others, or
takes the link DOWN where they are too few; a fast retrain that misses it with no lane to blame (log entry 1102) gives way to a full
training. FULL_TRAIN and AK_RETRY_TIMER on a link down restart training with the sequence numbers at 0; RETRAIN from ACTIVE or IDLE goes
to ALIGN and keeps them and the replay buffer. AK_LANE_FENCE fences a lane at its threshold and retrains fast while enough lanes remain,
and has no effect below it. LN_FENCE_CLEAR notes the lane for the next full training once the LATCHED bit of AK_LANE_FENCE is clear
(R442), and has no effect while it is set. AK_CLK_LOSS raises AK_CLK_LOSS and takes the link DOWN. AK_INJ arms what it writes, and with
CLK loses INCK at once where it was seen. No byte of memory changes. -/
def Obligations.LinkTrainsThroughItsStates : Prop :=
  (∀ (s : State) (acc : Nat) (margins : List Nat) (eq : List EqStep) (k : Nat),
      1 ≤ k →
      k ≤ 4 →
      s.get Reg.AK_STATUS_STATE = k →
      s.is Reg.AK_INJ_CLK = false →
      Completes (.akTrainAdvance acc margins eq) s fun t =>
        t.get Reg.AK_STATUS_STATE = k + 1 ∧ (k = 1 → t.is Reg.AK_STATUS_INCK_LOCK = true) ∧ t.ak = s.ak ∧ MemoryKept s t) ∧
  (∀ (s : State) (acc : Nat) (margins : List Nat) (eq : List EqStep),
      s.get Reg.AK_STATUS_STATE = 5 →
      inWidth (inLanes.filter fun l => !s.laneFenced l).length ≠ 0 →
      outWidth (outLanes.filter fun l => !s.laneFenced l && bit acc (l - 16)).length ≠ 0 →
      Completes (.akTrainAdvance acc margins eq) s fun t =>
        t.get Reg.AK_STATUS_STATE = 6 ∧ t.get Reg.CAPACITY_AKNUM_LANES = inWidth (inLanes.filter fun l => !s.laneFenced l).length ∧ t.ak.links.head? = some initPayload ∧ (t.ak.rxInit = false) ∧
        (s.ak.fast = false → ∀ r, r ∈ s.dma.reqs → .mrd r.tag r.host r.len ∈ t.ak.queue) ∧ MemoryKept s t) ∧
  (∀ (s : State) (acc : Nat) (margins : List Nat) (eq : List EqStep),
      s.get Reg.AK_STATUS_STATE = 5 →
      inWidth (inLanes.filter fun l => !s.laneFenced l).length = 0 ∨ outWidth (outLanes.filter fun l => !s.laneFenced l && bit acc (l - 16)).length = 0 →
      Completes (.akTrainAdvance acc margins eq) s fun t =>
        t.get Reg.AK_STATUS_STATE = 0 ∧ t.reported .AK_LINK_DOWN ∧ MemoryKept s t) ∧
  (∀ (s : State) (missed : Nat) (margins : List Nat) (eq : List EqStep),
      s.get Reg.AK_STATUS_STATE = 1 →
      s.ak.fast = false →
      Completes (.akTrainLimit missed margins eq) s fun t =>
        t.get Reg.AK_STATUS_STATE = 0 ∧ t.is Reg.AK_STATUS_INCK_LOCK = false ∧ t.reported .AK_LINK_DOWN ∧ MemoryKept s t) ∧
  (∀ (s : State) (missed : Nat) (margins : List Nat) (eq : List EqStep) (k : Nat),
      2 ≤ k →
      k ≤ 5 →
      s.get Reg.AK_STATUS_STATE = k →
      (akLanes.any fun l => bit missed l && !s.laneFenced l) = true →
      inWidth (inLanes.filter fun l => !s.laneFenced l && !bit missed l).length ≠ 0 →
      outWidth (outLanes.filter fun l => !s.laneFenced l && !bit missed l).length ≠ 0 →
      Completes (.akTrainLimit missed margins eq) s fun t =>
        t.get Reg.AK_STATUS_STATE = (if k = 5 then 5 else k + 1) ∧ (∀ l, l < 20 → t.laneFenced l = (s.laneFenced l || bit missed l)) ∧ t.reported .AK_LANE_FENCE ∧ MemoryKept s t) ∧
  (∀ (s : State) (missed : Nat) (margins : List Nat) (eq : List EqStep) (k : Nat),
      2 ≤ k →
      k ≤ 5 →
      s.get Reg.AK_STATUS_STATE = k →
      (akLanes.any fun l => bit missed l && !s.laneFenced l) = true →
      inWidth (inLanes.filter fun l => !s.laneFenced l && !bit missed l).length = 0 ∨ outWidth (outLanes.filter fun l => !s.laneFenced l && !bit missed l).length = 0 →
      Completes (.akTrainLimit missed margins eq) s fun t =>
        t.get Reg.AK_STATUS_STATE = 0 ∧ t.reported .AK_LINK_DOWN ∧ (∀ l, l < 20 → t.laneFenced l = (s.laneFenced l || bit missed l)) ∧ t.reported .AK_LANE_FENCE ∧ MemoryKept s t) ∧
  (∀ (s : State) (missed : Nat) (margins : List Nat) (eq : List EqStep) (k : Nat),
      1 ≤ k →
      k ≤ 5 →
      s.get Reg.AK_STATUS_STATE = k →
      s.ak.fast = true →
      missed = 0 →
      Completes (.akTrainLimit missed margins eq) s fun t =>
        t.get Reg.AK_STATUS_STATE = (if s.pllLocked 12 = true ∧ s.get Reg.PWR_STATE_STATE ≠ 2 then 1 else 0) ∧ t.get Reg.AK_SEQ_RX_EXPECT = 0 ∧ t.get Reg.AK_SEQ_TX_NEXT = 0 ∧ MemoryKept s t ∧ t.ak.fast = false) ∧
  (∀ (s : State) (missed : Nat) (margins : List Nat) (eq : List EqStep),
      s.get Reg.AK_STATUS_STATE = 0 ∨ 6 ≤ s.get Reg.AK_STATUS_STATE →
      exec (.akTrainLimit missed margins eq) s = .next ({ s with outbox := [] } : State).settled) ∧
  (∀ (s : State) (o : Origin) (v : Word),
      s.accepts o (Reg.a_AK_CTRL) v = true →
      bit v.toNat 1 = true →
      Completes (.fullTrain o v) s fun t =>
        t.get Reg.AK_STATUS_STATE = (if s.pllLocked 12 = true ∧ s.get Reg.PWR_STATE_STATE ≠ 2 then 1 else 0) ∧ t.get Reg.AK_SEQ_RX_EXPECT = 0 ∧ t.get Reg.AK_SEQ_TX_NEXT = 0 ∧ MemoryKept s t) ∧
  (∀ (s : State) (o : Origin) (v : Word),
      s.accepts o (Reg.a_AK_CTRL) v = true →
      bit v.toNat 1 = false →
      bit v.toNat 0 = true →
      s.akLinked = true →
      Completes (.retrain o v) s fun t =>
        t.get Reg.AK_STATUS_STATE = 4 ∧ t.get Reg.AK_SEQ_RX_EXPECT = s.get Reg.AK_SEQ_RX_EXPECT ∧ t.get Reg.AK_SEQ_TX_NEXT = s.get Reg.AK_SEQ_TX_NEXT ∧ t.ak.unacked = s.ak.unacked ∧ t.ak.queue = s.ak.queue ∧ MemoryKept s t) ∧
  (∀ (s : State),
      s.get Reg.AK_STATUS_STATE = 0 →
      s.ak.begun = true →
      Completes (.akRetryTimer) s fun t =>
        t.get Reg.AK_STATUS_STATE = (if s.pllLocked 12 = true ∧ s.get Reg.PWR_STATE_STATE ≠ 2 then 1 else 0) ∧ t.get Reg.AK_SEQ_RX_EXPECT = 0 ∧ t.get Reg.AK_SEQ_TX_NEXT = 0 ∧ MemoryKept s t) ∧
  (∀ (s : State),
      s.get Reg.AK_STATUS_STATE ≠ 0 ∨ s.ak.begun = false →
      exec (.akRetryTimer) s = .next ({ s with outbox := [] } : State).settled) ∧
  (∀ (s : State) (l : Nat),
      l < 20 →
      s.get Reg.AK_LANE_CFG_THR ≠ 0 →
      s.get Reg.AK_LANE_CFG_THR ≤ s.laneErrors l →
      s.laneFenced l = false →
      s.akLinked = true →
      inWidth (inLanes.filter fun m => !s.laneFenced m && m != l).length ≠ 0 →
      outWidth (outLanes.filter fun m => !s.laneFenced m && m != l).length ≠ 0 →
      Completes (.akLaneFence l) s fun t =>
        t.laneFenced l = true ∧ t.reported .AK_LANE_FENCE ∧ t.get Reg.AK_STATUS_STATE = 4 ∧ (∀ m, m ≠ l → m < 20 → t.laneFenced m = s.laneFenced m) ∧ MemoryKept s t) ∧
  (∀ (s : State) (l : Nat),
      s.laneErrors l < s.get Reg.AK_LANE_CFG_THR ∨ s.get Reg.AK_LANE_CFG_THR = 0 →
      exec (.akLaneFence l) s = .next ({ s with outbox := [] } : State).settled) ∧
  (∀ (s : State) (o : Origin) (l : Nat) (v : Word),
      l < 20 →
      s.accepts o (Reg.a_LN_STATUS l) v = true →
      bit v.toNat 31 = true →
      s.laneFenced l = true →
      s.cleared .AK_LANE_FENCE = true →
      Completes (.lnFenceClear o l v) s fun t =>
        l ∈ t.ak.clearLanes ∧ t.laneFenced l = true ∧ t.ak.queue = s.ak.queue ∧ t.hm = s.hm ∧ ∀ a, t.reg a = s.reg a) ∧
  (∀ (s : State) (o : Origin) (l : Nat) (v : Word),
      l < 20 →
      s.accepts o (Reg.a_LN_STATUS l) v = true →
      s.cleared .AK_LANE_FENCE = false →
      exec (.lnFenceClear o l v) s = .next ({ s with outbox := [] } : State).settled) ∧
  (∀ (s : State),
      s.get Reg.AK_STATUS_STATE ≠ 0 →
      s.is Reg.AK_STATUS_INCK_LOCK = true →
      Completes (.akClkLoss) s fun t =>
        t.get Reg.AK_STATUS_STATE = 0 ∧ t.is Reg.AK_STATUS_INCK_LOCK = false ∧ t.reported .AK_CLK_LOSS ∧ t.reported .AK_LINK_DOWN ∧ MemoryKept s t) ∧
  (∀ (s : State) (o : Origin) (v : Word),
      s.accepts o (Reg.a_AK_INJ) v = true →
      bit v.toNat 4 = false →
      s.is Reg.AK_INJ_CLK = false →
      Completes (.akInj o v) s fun t =>
        (∀ f : FRef, f ∈ [Reg.AK_INJ_CRC, Reg.AK_INJ_RB, Reg.AK_INJ_RXB, Reg.AK_INJ_PROTO, Reg.AK_INJ_SYNC] → t.get f = s.get f ||| bits v.toNat f.hi f.lo) ∧ t.get Reg.AK_INJ_LANE = bits v.toNat 20 16 ∧ t.ak = s.ak ∧ t.hm = s.hm) ∧
  (∀ (s : State) (o : Origin) (v : Word),
      s.accepts o (Reg.a_AK_INJ) v = true →
      bit v.toNat 4 = true →
      s.get Reg.AK_STATUS_STATE ≠ 0 →
      s.is Reg.AK_STATUS_INCK_LOCK = true →
      Completes (.akInj o v) s fun t =>
        t.get Reg.AK_STATUS_STATE = 0 ∧ t.is Reg.AK_STATUS_INCK_LOCK = false ∧ t.is Reg.AK_INJ_CLK = false ∧ t.reported .AK_CLK_LOSS ∧ t.reported .AK_LINK_DOWN ∧ MemoryKept s t)

/-- AK_FLIT_RECEIVE on an ACTIVE or IDLE link: a flit whose CRC fails is kept and NAKed, the expected number stays and no register of another
block and no byte of memory changes; a flit with a right CRC but another number delivers nothing; an INIT LINK flit with the expected
number stores the adapter's credits, opens transmission and advances the number, and raises AK_PROTOCOL where VC0 has less than 512 units.
a PAYLOAD flit with the expected number that carries an RRD of the identification register queues its CPL with the register's value.
AK_FLIT_SEND in ACTIVE with a LINK command waiting, no replay and room in the replay buffer sends one flit of 256 bytes whose CRC is
right, keeps it for replay under the next number, and advances the number. With nothing to send before the adapter's INIT it sends an IDLE
flit. A replay sends the kept flit with its own number. On a link that is not ACTIVE nothing is sent. REPLAY_TIMEOUT starts a replay at
the oldest unacknowledged flit, or sends NAK again for an awaited one. AK_IDLE_REQUEST under the conditions of R296 queues IDLE_ENTER;
AK_IDLE_EXIT returns from IDLE to ACTIVE. -/
def Obligations.FlitsAreNumberedCheckedAndReplayed : Prop :=
  (∀ (s : State) (bs : List Byte) (rx : List Nat) (e : ReadEvent) (skew : Bool),
      s.akLinked = true →
      s.ak.inq = [] →
      bs.length = 256 →
      s.is Reg.AK_INJ_SYNC = false →
      s.is Reg.AK_INJ_CRC = false →
      (flitCrc bs == bits (flitWord bs 248) 63 32) = false →
      s.ak.failed = none →
      Completes (.akFlitReceive bs [] rx e skew) s fun t =>
        t.ak.nak = true ∧ (t.ak.failed.map fun c => c.bs) = some bs ∧ t.regs = s.regs ∧ t.hm = s.hm ∧ t.sram = s.sram ∧ t.dma = s.dma ∧ t.ak.unacked = s.ak.unacked) ∧
  (∀ (s : State) (bs : List Byte) (rx : List Nat) (e : ReadEvent) (skew : Bool),
      s.akLinked = true →
      s.ak.inq = [] →
      bs.length = 256 →
      s.is Reg.AK_INJ_SYNC = false →
      s.is Reg.AK_INJ_CRC = false →
      flitCrc bs = bits (flitWord bs 248) 63 32 →
      s.ak.unacked = [] →
      s.ak.failed = none →
      bit (flitWord bs 248) 7 = false →
      bits (flitWord bs 0) 53 52 = 0 →
      bits (flitWord bs 0) 19 0 = 0 →
      bits (flitWord bs 248) 6 0 = 0 →
      bits (flitWord bs 0) 63 60 ≤ 2 →
      (bits (flitWord bs 248) 31 20 == s.get Reg.AK_SEQ_RX_EXPECT) = false →
      Completes (.akFlitReceive bs [] rx e skew) s fun t =>
        t.regs = s.regs ∧ t.hm = s.hm ∧ t.sram = s.sram ∧ t.dma = s.dma ∧ t.ak.rxInit = s.ak.rxInit ∧ t.ak.nak = s.ak.nak) ∧
  (∀ (s : State) (bs : List Byte) (rx : List Nat) (e : ReadEvent) (skew : Bool),
      s.akLinked = true →
      s.ak.inq = [] →
      bs.length = 256 →
      s.is Reg.AK_INJ_SYNC = false →
      s.is Reg.AK_INJ_CRC = false →
      flitCrc bs = bits (flitWord bs 248) 63 32 →
      s.ak.unacked = [] →
      s.ak.failed = none →
      bit (flitWord bs 248) 7 = false →
      bits (flitWord bs 0) 53 52 = 0 →
      bits (flitWord bs 0) 19 0 = 0 →
      bits (flitWord bs 248) 6 0 = 0 →
      bits (flitWord bs 0) 63 60 = 2 →
      bits (flitWord bs 248) 31 20 = s.get Reg.AK_SEQ_RX_EXPECT →
      bs[8]? = some 1#8 →
      512 ≤ leNat ((bs.drop 10).take 2) →
      2048 ≤ leNat ((bs.drop 12).take 2) →
      leNat ((bs.drop 14).take 2) = 0xFFFF →
      64 ≤ leNat ((bs.drop 16).take 2) →
      Completes (.akFlitReceive bs [] rx e skew) s fun t =>
        t.get Reg.AK_CRED_0_VC0 = leNat ((bs.drop 10).take 2) ∧ t.get Reg.AK_CRED_0_VC1 = leNat ((bs.drop 12).take 2) ∧ t.get Reg.AK_CRED_1_VC2 = leNat ((bs.drop 14).take 2) ∧ t.get Reg.AK_CRED_1_VC3 = leNat ((bs.drop 16).take 2) ∧
        t.ak.rxInit = true ∧ t.ak.ackDue = true ∧ t.get Reg.AK_SEQ_RX_EXPECT = (s.get Reg.AK_SEQ_RX_EXPECT + 1) % 4096 ∧ t.fc = s.fc ∧ MemoryKept s t) ∧
  (∀ (s : State) (bs : List Byte) (rx : List Nat) (e : ReadEvent) (skew : Bool),
      s.akLinked = true →
      s.ak.inq = [] →
      bs.length = 256 →
      s.is Reg.AK_INJ_SYNC = false →
      s.is Reg.AK_INJ_CRC = false →
      flitCrc bs = bits (flitWord bs 248) 63 32 →
      s.ak.unacked = [] →
      s.ak.failed = none →
      bit (flitWord bs 248) 7 = false →
      bits (flitWord bs 0) 53 52 = 0 →
      bits (flitWord bs 0) 19 0 = 0 →
      bits (flitWord bs 248) 6 0 = 0 →
      bits (flitWord bs 0) 63 60 = 2 →
      bits (flitWord bs 248) 31 20 = s.get Reg.AK_SEQ_RX_EXPECT →
      bs[8]? = some 1#8 →
      leNat ((bs.drop 10).take 2) < 512 →
      Completes (.akFlitReceive bs [] rx e skew) s fun t =>
        t.get Reg.AK_CRED_0_VC0 = leNat ((bs.drop 10).take 2) ∧ t.get Reg.AK_CRED_0_VC1 = leNat ((bs.drop 12).take 2) ∧ t.get Reg.AK_CRED_1_VC2 = leNat ((bs.drop 14).take 2) ∧ t.get Reg.AK_CRED_1_VC3 = leNat ((bs.drop 16).take 2) ∧
        t.ak.rxInit = true ∧ t.ak.ackDue = true ∧ t.get Reg.AK_SEQ_RX_EXPECT = (s.get Reg.AK_SEQ_RX_EXPECT + 1) % 4096 ∧ t.reported .AK_PROTOCOL ∧ t.get Reg.AK_ERR_LOG_KIND = 3 ∧ MemoryKept s t) ∧
  (∀ (s : State) (bs : List Byte) (rx : List Nat) (e : ReadEvent) (skew : Bool) (w : Nat),
      s.akLinked = true →
      s.ak.inq = [] →
      bs.length = 256 →
      s.is Reg.AK_INJ_SYNC = false →
      s.is Reg.AK_INJ_CRC = false →
      flitCrc bs = bits (flitWord bs 248) 63 32 →
      s.ak.unacked = [] →
      s.ak.failed = none →
      bit (flitWord bs 248) 7 = false →
      bits (flitWord bs 0) 53 52 = 0 →
      bits (flitWord bs 0) 19 0 = 0 →
      bits (flitWord bs 248) 6 0 = 0 →
      bits (flitWord bs 0) 63 60 = 1 →
      bits (flitWord bs 0) 58 54 = 0 →
      bits (flitWord bs 248) 31 20 = s.get Reg.AK_SEQ_RX_EXPECT →
      s.ak.part = [] →
      s.ak.rxInit = false →
      s.emb.main = true →
      s.rwrWaits = false →
      s.openRrds < 256 →
      s.is Reg.AK_INJ_PROTO = false →
      s.is Reg.AK_INJ_RXB = false →
      rx = [] →
      w = flitWord bs 8 →
      bits w 63 60 = 5 →
      bits w 51 32 = 0 →
      bits w 31 0 = Reg.a_GLB_ID →
      (bs.drop 16).take 232 = List.replicate 232 0#8 →
      Completes (.akFlitReceive bs [] rx e skew) s fun t =>
        t.ak.queue = s.ak.queue ++ [.cpl 0 (bits w 59 52) 0 (leBytes 4 (s.reg Reg.a_GLB_ID).toNat)] ∧ t.ak.ackDue = true ∧ t.get Reg.AK_SEQ_RX_EXPECT = (s.get Reg.AK_SEQ_RX_EXPECT + 1) % 4096 ∧ t.ak.part = [] ∧ t.fc = s.fc ∧ t.ak.rxInit = false ∧ MemoryKept s t) ∧
  (∀ (s : State) (p : List Byte) (ps : List (List Byte)),
      s.get Reg.AK_STATUS_STATE = 6 →
      s.ak.inq = [] →
      s.ak.replayAt = none →
      s.ak.idleLeft = 0 →
      s.ak.links = p :: ps →
      s.ak.unacked.length < 256 →
      p.length ≤ 240 →
      s.is Reg.AK_INJ_SYNC = false →
      s.ak.got.all (fun n => n < 2 ^ 14) = true →
      Completes (.akFlitSend none) s fun t =>
        (∃ bs, t.outbox = [.akFlit bs none] ∧ bs.length = 256 ∧ flitCrc bs = bits (flitWord bs 248) 63 32 ∧ (bs.drop 8).take p.length = p ∧ bits (flitWord bs 248) 31 20 = s.get Reg.AK_SEQ_TX_NEXT ∧ bits (flitWord bs 0) 63 60 = 2) ∧
        t.ak.links = ps ∧ t.ak.unacked.length = s.ak.unacked.length + 1 ∧ t.get Reg.AK_SEQ_TX_NEXT = (s.get Reg.AK_SEQ_TX_NEXT + 1) % 4096 ∧ MemoryKept s t) ∧
  (∀ (s : State) (f : TxFlit) (fs : List TxFlit) (eq : Option EqAsk),
      s.get Reg.AK_STATUS_STATE = 6 →
      s.ak.inq = [] →
      s.ak.rxInit = true ∨ f.kind ≠ 1 →
      s.ak.replayAt = some 0 →
      s.ak.unacked = f :: fs →
      s.ak.links = [] →
      f.seq < 4096 →
      f.payload.length ≤ 240 →
      s.is Reg.AK_INJ_RB = false →
      Completes (.akFlitSend eq) s fun t =>
        (∃ bs j, .akFlit bs j ∈ t.outbox ∧ bits (flitWord bs 248) 31 20 = f.seq) ∧ t.ak.unacked.length = s.ak.unacked.length ∧ t.get Reg.AK_SEQ_TX_NEXT = s.get Reg.AK_SEQ_TX_NEXT ∧ (t.ak.replayAt = if fs = [] then none else some 1) ∧ MemoryKept s t) ∧
  (∀ (s : State),
      s.get Reg.AK_STATUS_STATE = 6 →
      s.ak.inq = [] →
      s.ak.replayAt = none →
      s.ak.idleLeft = 0 →
      s.ak.links = [] →
      s.ak.rxInit = false →
      s.is Reg.AK_INJ_SYNC = false →
      s.ak.got.all (fun n => n < 2 ^ 14) = true →
      Completes (.akFlitSend none) s fun t =>
        (∃ bs, t.outbox = [.akFlit bs none] ∧ bs.length = 256 ∧ flitCrc bs = bits (flitWord bs 248) 63 32 ∧ bits (flitWord bs 0) 63 60 = 0) ∧ t.ak.unacked = s.ak.unacked ∧ t.regs = s.regs ∧ t.hm = s.hm) ∧
  (∀ (s : State) (eq : Option EqAsk),
      s.get Reg.AK_STATUS_STATE ≠ 6 →
      exec (.akFlitSend eq) s = .next ({ s with outbox := [] } : State).settled) ∧
  (∀ (s : State),
      s.akLinked = true →
      s.ak.unacked ≠ [] →
      s.ak.replayAt = none →
      Completes (.replayTimeout false) s fun t =>
        t.ak = { s.ak with replayAt := some 0, unacked := wantReplay s.ak.unacked } ∧ t.regs = s.regs ∧ t.hm = s.hm) ∧
  (∀ (s : State),
      s.akLinked = true →
      s.ak.failed.isSome = true →
      Completes (.replayTimeout true) s fun t =>
        t.ak = { s.ak with nak := true } ∧ t.regs = s.regs ∧ t.hm = s.hm) ∧
  (∀ (s : State),
      s.idleDue = true →
      Completes (.akIdleRequest) s fun t =>
        t.ak.idleSent = true ∧ t.ak.links = [[4#8]] ∧ t.regs = s.regs ∧ t.hm = s.hm) ∧
  (∀ (s : State),
      s.get Reg.AK_STATUS_STATE = 7 →
      Completes (.akIdleExit) s fun t =>
        t.get Reg.AK_STATUS_STATE = 6 ∧ t.ak = { s.ak with flits := 0 } ∧ t.hm = s.hm ∧ (∀ a, a ≠ Reg.a_AK_STATUS → t.reg a = s.reg a)) ∧
  (∀ (s : State),
      s.get Reg.AK_STATUS_STATE ≠ 7 →
      exec (.akIdleExit) s = .next ({ s with outbox := [] } : State).settled)

/-- CG_TRAIN_ADVANCE goes from DETECT to CAPS, from CAPS to CLOCK once CAPS was accepted, from CLOCK to EQ once STATUS reports both lanes
locked, from EQ to ALIGN on EQ_DONE, and from ALIGN to ACTIVE on ALIGNED; before that it has no effect. CG_TRAIN_LIMIT of a full training
starts again at DETECT and lets its pipe wait no longer; of a retrain it takes the port down with CG_LINK_DOWN. CG_FULL_TRAIN starts at
DETECT at the pipe's rate. CG_RETRAIN and CG_LINE_THR at its threshold take a trained port to CLOCK, and within 100 ms of the last retrain
take it down; CG_RETRAIN of a port that is neither ACTIVE nor in IDLE has no effect. CG_BC_LOSS raises CG_BC_LOSS and retrains.
CG_DETECT_RETRY has no effect on a port that is not down. CG_INJ arms what it writes. No byte of memory changes, and no other port where
no fault of class CC is raised. -/
def Obligations.PortsTrainThroughTheirStates : Prop :=
  (∀ (s : State) (p : Nat),
      p < 12 →
      s.get (Reg.CG_STATUS_STATE p) = 1 →
      Completes (.cgTrainAdvance p) s fun t =>
        t.get (Reg.CG_STATUS_STATE p) = 2 ∧ t.is (Reg.CG_STATUS_BC_LOCK p) = true ∧ t.cg = s.cg ∧ t.pipes = s.pipes ∧ t.hm = s.hm) ∧
  (∀ (s : State) (p : Nat),
      p < 12 →
      s.get (Reg.CG_STATUS_STATE p) = 2 →
      (s.port p).capsOk = true →
      Completes (.cgTrainAdvance p) s fun t =>
        t.get (Reg.CG_STATUS_STATE p) = 3 ∧ t.cg = s.cg ∧ t.pipes = s.pipes ∧ t.hm = s.hm) ∧
  (∀ (s : State) (p : Nat),
      p < 12 →
      s.get (Reg.CG_STATUS_STATE p) = 3 →
      bits (s.port p).status 1 0 = 3 →
      Completes (.cgTrainAdvance p) s fun t =>
        t.get (Reg.CG_STATUS_STATE p) = 4 ∧ t.cg = s.cg ∧ t.pipes = s.pipes ∧ t.hm = s.hm) ∧
  (∀ (s : State) (p : Nat),
      p < 12 →
      s.get (Reg.CG_STATUS_STATE p) = 4 →
      bit (s.port p).status 3 = true →
      Completes (.cgTrainAdvance p) s fun t =>
        t.get (Reg.CG_STATUS_STATE p) = 5 ∧ t.cg = s.cg ∧ t.pipes = s.pipes ∧ t.hm = s.hm) ∧
  (∀ (s : State) (p : Nat),
      p < 12 →
      (s.get (Reg.CG_STATUS_STATE p) = 2 ∧ (s.port p).capsOk = false) ∨ (s.get (Reg.CG_STATUS_STATE p) = 3 ∧ bits (s.port p).status 1 0 ≠ 3) ∨ (s.get (Reg.CG_STATUS_STATE p) = 4 ∧ bit (s.port p).status 3 = false) ∨ (s.get (Reg.CG_STATUS_STATE p) = 5 ∧ bit (s.port p).status 2 = false) ∨ s.get (Reg.CG_STATUS_STATE p) = 0 ∨ 6 ≤ s.get (Reg.CG_STATUS_STATE p) →
      exec (.cgTrainAdvance p) s = .next ({ s with outbox := [] } : State).settled) ∧
  (∀ (s : State) (p : Nat),
      p < 12 →
      s.get (Reg.CG_STATUS_STATE p) = 5 →
      bit (s.port p).status 2 = true →
      Completes (.cgTrainAdvance p) s fun t =>
        t.get (Reg.CG_STATUS_STATE p) = 6 ∧ (t.port p).retraining = false ∧ (t.port p).down = false ∧ (t.pipe p).trainOk = true ∧ ((s.port p).safe ≠ 0 → t.get (Reg.CG_STATUS_TX p) = 4) ∧ ((s.port p).retraining = true → t.reported .CG_RETRAIN) ∧ (∀ q, q ≠ p → t.port q = s.port q) ∧ t.hm = s.hm) ∧
  (∀ (s : State) (p : Nat),
      p < 12 →
      2 ≤ s.get (Reg.CG_STATUS_STATE p) →
      s.get (Reg.CG_STATUS_STATE p) ≤ 5 →
      (s.port p).retraining = false →
      s.get (Reg.CG_STATUS_STATE p) ≠ 2 ∨ s.is (Reg.CG_STATUS_CAPS_BAD p) = false →
      Completes (.cgTrainLimit p) s fun t =>
        t.get (Reg.CG_STATUS_STATE p) = 1 ∧ (t.pipe p).trainOk = true ∧ t.is (Reg.CG_STATUS_BC_LOCK p) = false ∧ (t.port p).capsOk = false ∧ (∀ q, q ≠ p → t.port q = s.port q) ∧ t.hm = s.hm) ∧
  (∀ (s : State) (p : Nat),
      p < 12 →
      1 ≤ s.get (Reg.CG_STATUS_STATE p) →
      s.get (Reg.CG_STATUS_STATE p) ≤ 5 →
      (s.port p).retraining = true →
      Completes (.cgTrainLimit p) s fun t =>
        t.get (Reg.CG_STATUS_STATE p) = 0 ∧ (t.port p).down = true ∧ t.reported .CG_LINK_DOWN ∧ MemoryKept s t) ∧
  (∀ (s : State) (p : Nat),
      s.get (Reg.CG_STATUS_STATE p) = 0 ∨ 6 ≤ s.get (Reg.CG_STATUS_STATE p) →
      exec (.cgTrainLimit p) s = .next ({ s with outbox := [] } : State).settled) ∧
  (∀ (s : State) (o : Origin) (p : Nat) (v : Word),
      p < 12 →
      s.accepts o (Reg.a_CG_CTRL p) v = true →
      bit v.toNat 0 = true →
      Completes (.cgFullTrain o p v) s fun t =>
        t.get (Reg.CG_STATUS_STATE p) = 1 ∧ t.get (Reg.CG_STATUS_RATE p) = (timingOf (s.timingImg p) p).rate % 4 ∧ t.is (Reg.CG_STATUS_CAPS_BAD p) = false ∧ (t.port p).capsOk = false ∧ (∀ q, q ≠ p → t.port q = s.port q) ∧ MemoryKept s t) ∧
  (∀ (s : State) (p : Nat),
      p < 12 →
      s.is (Reg.CG_INJ_LOCK p) = false →
      6 ≤ s.get (Reg.CG_STATUS_STATE p) →
      s.retrainedLately p = false →
      Completes (.cgRetrain p) s fun t =>
        t.get (Reg.CG_STATUS_STATE p) = 3 ∧ (t.port p).retraining = true ∧ (t.port p).lastRetrain = some s.now ∧ (∀ q, q ≠ p → t.port q = s.port q) ∧ t.safeState = s.safeState ∧ MemoryKept s t) ∧
  (∀ (s : State) (p : Nat),
      p < 12 →
      s.is (Reg.CG_INJ_LOCK p) = false →
      6 ≤ s.get (Reg.CG_STATUS_STATE p) →
      s.retrainedLately p = true →
      Completes (.cgRetrain p) s fun t =>
        t.get (Reg.CG_STATUS_STATE p) = 0 ∧ (t.port p).down = true ∧ t.reported .CG_LINK_DOWN ∧ MemoryKept s t) ∧
  (∀ (s : State) (p : Nat),
      s.get (Reg.CG_STATUS_STATE p) < 6 →
      exec (.cgRetrain p) s = .next ({ s with outbox := [] } : State).settled) ∧
  (∀ (s : State) (p : Nat),
      p < 12 →
      s.get (Reg.CG_CFG_THR p) ≠ 0 →
      s.get (Reg.CG_CFG_THR p) ≤ ((s.port p).errs.filter fun u => s.orbit.orbits < u + 2 ^ s.get (Reg.CG_CFG_WIN p)).length →
      2 ≤ s.get (Reg.CG_STATUS_STATE p) →
      s.retrainedLately p = false →
      Completes (.cgLineThr p) s fun t =>
        t.get (Reg.CG_STATUS_STATE p) = 3 ∧ t.reported .CG_LINE_THR ∧ (t.port p).errs = [] ∧ MemoryKept s t) ∧
  (∀ (s : State) (p : Nat),
      p < 12 →
      s.get (Reg.CG_CFG_THR p) = 0 →
      exec (.cgLineThr p) s = .next ({ s with outbox := [] } : State).settled) ∧
  (∀ (s : State) (p : Nat),
      p < 12 →
      2 ≤ s.get (Reg.CG_STATUS_STATE p) →
      s.retrainedLately p = false →
      Completes (.cgBcLoss p) s fun t =>
        t.get (Reg.CG_STATUS_STATE p) = 3 ∧ t.reported .CG_BC_LOSS ∧ MemoryKept s t) ∧
  (∀ (s : State) (p : Nat),
      (s.port p).down = false →
      exec (.cgDetectRetry p) s = .next ({ s with outbox := [] } : State).settled) ∧
  (∀ (s : State) (p : Nat),
      p < 12 →
      (s.port p).down = true →
      s.get (Reg.CG_STATUS_STATE p) = 0 →
      s.mode p ≠ .stopped →
      Completes (.cgDetectRetry p) s fun t =>
        t.get (Reg.CG_STATUS_STATE p) = 1 ∧ (t.port p).capsOk = false ∧ (∀ q, q ≠ p → t.port q = s.port q) ∧ MemoryKept s t) ∧
  (∀ (s : State) (o : Origin) (p : Nat) (v : Word),
      p < 12 →
      s.accepts o (Reg.a_CG_INJ p) v = true →
      Completes (.cgInj o p v) s fun t =>
        (∀ f : FRef, f ∈ [Reg.CG_INJ_LOCK p, Reg.CG_INJ_BC p, Reg.CG_INJ_FIFO p] → t.get f = s.get f ||| bits v.toNat f.hi f.lo) ∧ t.cg = s.cg ∧ t.hm = s.hm)

/-- A back-channel message to a port that has not reached CAPS has no effect; one whose CRC-16 is not that of its bytes, or that meets the BC
injection, is counted, raises CG_BC_CRC and does nothing else. CAPS records rates, depths, sizes and the identifier; in the state CAPS it
is accepted where it covers the timing in force, else CG_CAPS_MISMATCH is raised. STATUS stores LINE_ERR, an increase raises CG_LINE_ERR;
in CLOCK, EQ and ALIGN its bits let the port go on, and a lane reported unlocked in ACTIVE makes the port retrain. CRC_REPORT of a carried
frame that is undecided, on a pipe outside a hold window, stores the CRC and its outcome: MATCH where it equals the kept CRC, MISMATCH
where it does not. HOLD_ACK for the current frame before the prefetch start lets the pipe enter Banked, after it refuses with BLOCK 9, as
HOLD_NAK for the current frame and HELD_LOST do with a HOLD outstanding; HELD_LOST in Banked is an exit. EQ_REQ in EQ and ACTIVE moves the
tap by its step within its limits, and leaves it at a limit, and is answered. CG_BC_CRC takes the 16 bytes of a message and acts on their
CRC; one of an undefined type is ignored. No byte of memory changes. -/
def Obligations.BackChannelMessagesAct : Prop :=
  (∀ (s : State) (p seq : Nat) (bs : List Byte) (crc : Nat),
      p < 12 →
      s.get (Reg.CG_STATUS_STATE p) < 2 →
      exec (.caps p seq bs crc) s = .next ({ s with outbox := [] } : State).settled) ∧
  (∀ (s : State) (p seq : Nat) (bs : List Byte) (crc : Nat),
      p < 12 →
      s.get (Reg.CG_STATUS_STATE p) < 2 →
      exec (.status p seq bs crc) s = .next ({ s with outbox := [] } : State).settled) ∧
  (∀ (s : State) (p seq : Nat) (bs : List Byte) (crc : Nat),
      p < 12 →
      2 ≤ s.get (Reg.CG_STATUS_STATE p) →
      s.is (Reg.CG_INJ_BC p) = true →
      Completes (.holdNak p seq bs crc) s fun t =>
        t.get (Reg.CG_ERR_BC_ERR p) = satAdd (s.get (Reg.CG_ERR_BC_ERR p)) 1 65535 ∧ t.is (Reg.CG_INJ_BC p) = false ∧ t.reported .CG_BC_CRC ∧ t.cg = s.cg ∧ t.pipes = s.pipes ∧ t.hm = s.hm) ∧
  (∀ (s : State) (p seq : Nat) (bs : List Byte) (crc : Nat),
      p < 12 →
      2 ≤ s.get (Reg.CG_STATUS_STATE p) →
      crc16 (bcBytes 2 seq bs) ≠ crc →
      Completes (.status p seq bs crc) s fun t =>
        t.get (Reg.CG_ERR_BC_ERR p) = satAdd (s.get (Reg.CG_ERR_BC_ERR p)) 1 65535 ∧ t.is (Reg.CG_INJ_BC p) = false ∧ t.reported .CG_BC_CRC ∧ t.cg = s.cg ∧ t.pipes = s.pipes ∧ t.hm = s.hm) ∧
  (∀ (s : State) (p seq : Nat) (bs : List Byte) (crc : Nat),
      p < 12 →
      2 ≤ s.get (Reg.CG_STATUS_STATE p) →
      crc16 (bcBytes 4 seq bs) ≠ crc →
      Completes (.holdAck p seq bs crc) s fun t =>
        t.get (Reg.CG_ERR_BC_ERR p) = satAdd (s.get (Reg.CG_ERR_BC_ERR p)) 1 65535 ∧ t.is (Reg.CG_INJ_BC p) = false ∧ t.reported .CG_BC_CRC ∧ t.cg = s.cg ∧ t.pipes = s.pipes ∧ t.hm = s.hm) ∧
  (∀ (s : State) (p seq : Nat) (bs : List Byte) (crc : Nat),
      p < 12 →
      2 ≤ s.get (Reg.CG_STATUS_STATE p) →
      s.is (Reg.CG_INJ_BC p) = false →
      crc16 (bcBytes 1 seq bs) = crc →
      s.get (Reg.CG_STATUS_STATE p) ≠ 2 →
      Completes (.caps p seq bs crc) s fun t =>
        t.get (Reg.CG_CAPS_RATES p) = bodyByte bs 2 % 16 ∧ t.get (Reg.CG_CAPS_DEPTHS p) = bodyByte bs 4 % 8 ∧ t.get (Reg.CG_CAPS_MAX_H p) = bodyHalf bs 5 % 8192 ∧ t.get (Reg.CG_CAPS2_MAX_V p) = bodyHalf bs 7 % 4096 ∧ t.get (Reg.CG_CAPS2_RX_ID p) = bodyHalf bs 9 ∧ t.cg = s.cg ∧ t.hm = s.hm ∧ (∀ a, a < Reg.a_CG_CAPS p ∨ Reg.a_CG_CAPS2 p + 4 ≤ a → t.reg a = s.reg a)) ∧
  (∀ (s : State) (p seq : Nat) (bs : List Byte) (crc : Nat),
      p < 12 →
      2 ≤ s.get (Reg.CG_STATUS_STATE p) →
      s.is (Reg.CG_INJ_BC p) = false →
      crc16 (bcBytes 1 seq bs) = crc →
      s.get (Reg.CG_STATUS_STATE p) = 2 →
      Completes (.caps p seq bs crc) s fun t =>
        t.get (Reg.CG_CAPS_RATES p) = bodyByte bs 2 % 16 ∧ t.get (Reg.CG_CAPS_DEPTHS p) = bodyByte bs 4 % 8 ∧ t.get (Reg.CG_CAPS_MAX_H p) = bodyHalf bs 5 % 8192 ∧ t.get (Reg.CG_CAPS2_MAX_V p) = bodyHalf bs 7 % 4096 ∧ t.get (Reg.CG_CAPS2_RX_ID p) = bodyHalf bs 9 ∧ (t.port p).capsOk = (t.get (Reg.CG_CAPS_RATES p) != 0 && t.capsAllow p (timingOf (s.timingImg p) p)) ∧ (t.is (Reg.CG_STATUS_CAPS_BAD p) = !(t.port p).capsOk) ∧ ((t.port p).capsOk = false → t.reported .CG_CAPS_MISMATCH) ∧ t.get (Reg.CG_STATUS_STATE p) = 2 ∧ MemoryKept s t) ∧
  (∀ (s : State) (p seq : Nat) (bs : List Byte) (crc : Nat),
      p < 12 →
      2 ≤ s.get (Reg.CG_STATUS_STATE p) →
      s.is (Reg.CG_INJ_BC p) = false →
      crc16 (bcBytes 2 seq bs) = crc →
      (bodyHalf bs 3 + 65536 - s.get (Reg.CG_ERR_LINE_ERR p)) % 65536 ≠ 0 →
      s.get (Reg.CG_STATUS_STATE p) ≠ 6 ∨ (bodyByte bs 2 % 4 = 3 ∧ s.is (Reg.CG_INJ_LOCK p) = false) →
      s.get (Reg.CG_STATUS_STATE p) < 3 ∨ 5 < s.get (Reg.CG_STATUS_STATE p) →
      Completes (.status p seq bs crc) s fun t =>
        t.get (Reg.CG_ERR_LINE_ERR p) = bodyHalf bs 3 ∧ t.reported .CG_LINE_ERR ∧ (t.port p).status = bodyByte bs 2 ∧ (∀ q, q ≠ p → t.port q = s.port q) ∧ t.hm = s.hm) ∧
  (∀ (s : State) (p seq : Nat) (bs : List Byte) (crc : Nat),
      p < 12 →
      2 ≤ s.get (Reg.CG_STATUS_STATE p) →
      s.is (Reg.CG_INJ_BC p) = false →
      crc16 (bcBytes 2 seq bs) = crc →
      (bodyHalf bs 3 + 65536 - s.get (Reg.CG_ERR_LINE_ERR p)) % 65536 = 0 →
      s.get (Reg.CG_STATUS_STATE p) ≠ 6 ∨ (bodyByte bs 2 % 4 = 3 ∧ s.is (Reg.CG_INJ_LOCK p) = false) →
      s.get (Reg.CG_STATUS_STATE p) < 3 ∨ 5 < s.get (Reg.CG_STATUS_STATE p) →
      Completes (.status p seq bs crc) s fun t =>
        (t.port p).status = bodyByte bs 2 ∧ (∀ a, t.reg a = s.reg a) ∧ t.fc = s.fc ∧ (∀ q, q ≠ p → t.port q = s.port q) ∧ t.hm = s.hm) ∧
  (∀ (s : State) (p seq : Nat) (bs : List Byte) (crc : Nat),
      p < 12 →
      2 ≤ s.get (Reg.CG_STATUS_STATE p) →
      s.is (Reg.CG_INJ_BC p) = false →
      crc16 (bcBytes 2 seq bs) = crc →
      (s.get (Reg.CG_STATUS_STATE p) = 3 ∧ bodyByte bs 2 % 4 = 3) ∨ (s.get (Reg.CG_STATUS_STATE p) = 4 ∧ bit (bodyByte bs 2) 3 = true) ∨ (s.get (Reg.CG_STATUS_STATE p) = 5 ∧ bit (bodyByte bs 2) 2 = true) →
      Completes (.status p seq bs crc) s fun t =>
        t.get (Reg.CG_STATUS_STATE p) = s.get (Reg.CG_STATUS_STATE p) + 1 ∧ (t.port p).status = bodyByte bs 2 ∧ t.get (Reg.CG_ERR_LINE_ERR p) = bodyHalf bs 3 ∧ (∀ q, q ≠ p → t.port q = s.port q) ∧ t.hm = s.hm) ∧
  (∀ (s : State) (p seq : Nat) (bs : List Byte) (crc : Nat),
      p < 12 →
      2 ≤ s.get (Reg.CG_STATUS_STATE p) →
      s.is (Reg.CG_INJ_BC p) = false →
      crc16 (bcBytes 2 seq bs) = crc →
      (s.get (Reg.CG_STATUS_STATE p) = 3 ∧ bodyByte bs 2 % 4 ≠ 3) ∨ (s.get (Reg.CG_STATUS_STATE p) = 4 ∧ bit (bodyByte bs 2) 3 = false) ∨ (s.get (Reg.CG_STATUS_STATE p) = 5 ∧ bit (bodyByte bs 2) 2 = false) →
      Completes (.status p seq bs crc) s fun t =>
        t.get (Reg.CG_STATUS_STATE p) = s.get (Reg.CG_STATUS_STATE p) ∧ (∀ q, q ≠ p → t.port q = s.port q) ∧ t.hm = s.hm) ∧
  (∀ (s : State) (p seq : Nat) (bs : List Byte) (crc : Nat),
      p < 12 →
      2 ≤ s.get (Reg.CG_STATUS_STATE p) →
      s.is (Reg.CG_INJ_BC p) = false →
      crc16 (bcBytes 2 seq bs) = crc →
      s.get (Reg.CG_STATUS_STATE p) = 6 →
      bodyByte bs 2 % 4 ≠ 3 →
      s.retrainedLately p = false →
      Completes (.status p seq bs crc) s fun t =>
        t.get (Reg.CG_STATUS_STATE p) = 3 ∧ (t.port p).retraining = true ∧ t.get (Reg.CG_ERR_LINE_ERR p) = bodyHalf bs 3 ∧ (∀ q, q ≠ p → t.port q = s.port q) ∧ t.hm = s.hm) ∧
  (∀ (s : State) (p seq : Nat) (bs : List Byte) (crc : Nat) (b : BcnForce) (k : KeptCrc),
      p < 12 →
      2 ≤ s.get (Reg.CG_STATUS_STATE p) →
      s.is (Reg.CG_INJ_BC p) = false →
      crc16 (bcBytes 3 seq bs) = crc →
      bit (bodyByte bs 3) 0 = false →
      s.bcn p = some b →
      b.entry < 4 →
      (s.entry b.entry).covered = false →
      (s.entry b.entry).kept.find? (fun k => k.frame == bodyByte bs 2 && !k.decided) = some k →
      bit (s.get Reg.BC_INJ_CRC) b.entry = false →
      Completes (.crcReport p seq bs crc) s fun t =>
        t.get (Reg.BE_RX_CRC_CRC b.entry) = bodyHalf bs 4 + 65536 * bodyHalf bs 6 ∧ t.get (Reg.BE_E2E_LAST b.entry) = (if bodyHalf bs 4 + 65536 * bodyHalf bs 6 = k.crc then 0 else 1) ∧ t.get (Reg.BE_E2E_FRAME b.entry) = bodyByte bs 2 ∧ MemoryKept s t) ∧
  (∀ (s : State) (p seq : Nat) (bs : List Byte) (crc : Nat),
      p < 12 →
      2 ≤ s.get (Reg.CG_STATUS_STATE p) →
      s.is (Reg.CG_INJ_BC p) = false →
      crc16 (bcBytes 4 seq bs) = crc →
      (s.port p).holdOut = true →
      bodyHalf bs 2 = s.get (Reg.PIPE_POS_FRAME p) % 65536 →
      (s.pipe p).prefetched = false →
      Completes (.holdAck p seq bs crc) s fun t =>
        (t.pipe p).holdAck = true ∧ (t.port p).holdOut = false ∧ t.regs = s.regs ∧ (∀ q, q ≠ p → t.port q = s.port q) ∧ t.hm = s.hm) ∧
  (∀ (s : State) (p seq : Nat) (bs : List Byte) (crc : Nat),
      p < 12 →
      2 ≤ s.get (Reg.CG_STATUS_STATE p) →
      s.is (Reg.CG_INJ_BC p) = false →
      crc16 (bcBytes 4 seq bs) = crc →
      (s.port p).holdOut = true →
      bodyHalf bs 2 = s.get (Reg.PIPE_POS_FRAME p) % 65536 →
      (s.pipe p).prefetched = true →
      Completes (.holdAck p seq bs crc) s fun t =>
        (t.port p).holdOut = false ∧ (t.pipe p).holdAck = false ∧ t.get (Reg.BANK_STAT_BLOCK p) = 9 ∧ t.get (Reg.BANK_STAT_UNCHANGED p) = 0 ∧ (∀ q, q ≠ p → t.port q = s.port q) ∧ t.hm = s.hm) ∧
  (∀ (s : State) (p seq : Nat) (bs : List Byte) (crc : Nat),
      p < 12 →
      2 ≤ s.get (Reg.CG_STATUS_STATE p) →
      s.is (Reg.CG_INJ_BC p) = false →
      crc16 (bcBytes 4 seq bs) = crc →
      (s.port p).holdOut = false →
      exec (.holdAck p seq bs crc) s = .next ({ s with outbox := [] } : State).settled) ∧
  (∀ (s : State) (p seq : Nat) (bs : List Byte) (crc : Nat),
      p < 12 →
      2 ≤ s.get (Reg.CG_STATUS_STATE p) →
      s.is (Reg.CG_INJ_BC p) = false →
      crc16 (bcBytes 5 seq bs) = crc →
      (s.port p).holdOut = true →
      bodyHalf bs 2 = s.get (Reg.PIPE_POS_FRAME p) % 65536 →
      Completes (.holdNak p seq bs crc) s fun t =>
        (t.port p).holdOut = false ∧ (t.pipe p).holdAck = false ∧ t.get (Reg.BANK_STAT_BLOCK p) = 9 ∧ t.get (Reg.BANK_STAT_UNCHANGED p) = 0 ∧ (∀ q, q ≠ p → t.port q = s.port q) ∧ t.hm = s.hm) ∧
  (∀ (s : State) (p seq : Nat) (bs : List Byte) (crc : Nat),
      p < 12 →
      2 ≤ s.get (Reg.CG_STATUS_STATE p) →
      s.is (Reg.CG_INJ_BC p) = false →
      crc16 (bcBytes 5 seq bs) = crc →
      (s.port p).holdOut = false →
      exec (.holdNak p seq bs crc) s = .next ({ s with outbox := [] } : State).settled) ∧
  (∀ (s : State) (p seq : Nat) (bs : List Byte) (crc : Nat),
      p < 12 →
      2 ≤ s.get (Reg.CG_STATUS_STATE p) →
      s.is (Reg.CG_INJ_BC p) = false →
      crc16 (bcBytes 7 seq bs) = crc →
      (s.port p).holdOut = true →
      Completes (.heldLost p seq bs crc) s fun t =>
        (t.port p).holdOut = false ∧ (t.pipe p).holdAck = false ∧ t.get (Reg.BANK_STAT_BLOCK p) = 9 ∧ t.get (Reg.BANK_STAT_UNCHANGED p) = 0 ∧ (∀ q, q ≠ p → t.port q = s.port q) ∧ t.hm = s.hm) ∧
  (∀ (s : State) (p seq : Nat) (bs : List Byte) (crc : Nat),
      p < 12 →
      2 ≤ s.get (Reg.CG_STATUS_STATE p) →
      s.is (Reg.CG_INJ_BC p) = false →
      crc16 (bcBytes 7 seq bs) = crc →
      (s.port p).holdOut = false →
      s.mode p = .banked →
      Completes (.heldLost p seq bs crc) s fun t =>
        t.mode p = .bankExit ∧ ((t.pipe p).wakeNext = true ∨ (t.pipe p).wakeLate = true) ∧ t.cg = s.cg ∧ t.hm = s.hm) ∧
  (∀ (s : State) (p seq : Nat) (bs : List Byte) (crc : Nat),
      p < 12 →
      2 ≤ s.get (Reg.CG_STATUS_STATE p) →
      s.is (Reg.CG_INJ_BC p) = false →
      crc16 (bcBytes 6 seq bs) = crc →
      s.get (Reg.CG_STATUS_STATE p) = 4 ∨ s.get (Reg.CG_STATUS_STATE p) = 6 →
      bodyByte bs 2 ≤ 1 →
      bodyByte bs 3 = 1 ∨ bodyByte bs 3 = 2 →
      0 ≤ (s.get (if bodyByte bs 2 = 0 then (if bodyByte bs 3 = 1 then Reg.CG_EQ_0_PRE p else Reg.CG_EQ_0_POST p) else (if bodyByte bs 3 = 1 then Reg.CG_EQ_1_PRE p else Reg.CG_EQ_1_POST p)) : Int) + sext (bodyByte bs 4) 8 →
      (s.get (if bodyByte bs 2 = 0 then (if bodyByte bs 3 = 1 then Reg.CG_EQ_0_PRE p else Reg.CG_EQ_0_POST p) else (if bodyByte bs 3 = 1 then Reg.CG_EQ_1_PRE p else Reg.CG_EQ_1_POST p)) : Int) + sext (bodyByte bs 4) 8 ≤ (if bodyByte bs 3 = 1 then 15 else 31) →
      Completes (.cgEqReq p seq bs crc) s fun t =>
        (t.get (if bodyByte bs 2 = 0 then (if bodyByte bs 3 = 1 then Reg.CG_EQ_0_PRE p else Reg.CG_EQ_0_POST p) else (if bodyByte bs 3 = 1 then Reg.CG_EQ_1_PRE p else Reg.CG_EQ_1_POST p)) : Int) = s.get (if bodyByte bs 2 = 0 then (if bodyByte bs 3 = 1 then Reg.CG_EQ_0_PRE p else Reg.CG_EQ_0_POST p) else (if bodyByte bs 3 = 1 then Reg.CG_EQ_1_PRE p else Reg.CG_EQ_1_POST p)) + sext (bodyByte bs 4) 8 ∧ t.cg = s.cg ∧ t.hm = s.hm ∧ (∃ x, t.outbox = [.cgBlock p x])) ∧
  (∀ (s : State) (p seq : Nat) (bs : List Byte) (crc : Nat),
      p < 12 →
      2 ≤ s.get (Reg.CG_STATUS_STATE p) →
      s.is (Reg.CG_INJ_BC p) = false →
      crc16 (bcBytes 6 seq bs) = crc →
      s.get (Reg.CG_STATUS_STATE p) = 4 ∨ s.get (Reg.CG_STATUS_STATE p) = 6 →
      bodyByte bs 2 ≤ 1 →
      bodyByte bs 3 = 1 ∨ bodyByte bs 3 = 2 →
      ¬ (0 ≤ (s.get (if bodyByte bs 2 = 0 then (if bodyByte bs 3 = 1 then Reg.CG_EQ_0_PRE p else Reg.CG_EQ_0_POST p) else (if bodyByte bs 3 = 1 then Reg.CG_EQ_1_PRE p else Reg.CG_EQ_1_POST p)) : Int) + sext (bodyByte bs 4) 8 ∧ (s.get (if bodyByte bs 2 = 0 then (if bodyByte bs 3 = 1 then Reg.CG_EQ_0_PRE p else Reg.CG_EQ_0_POST p) else (if bodyByte bs 3 = 1 then Reg.CG_EQ_1_PRE p else Reg.CG_EQ_1_POST p)) : Int) + sext (bodyByte bs 4) 8 ≤ (if bodyByte bs 3 = 1 then 15 else 31)) →
      Completes (.cgEqReq p seq bs crc) s fun t =>
        t.regs = s.regs ∧ t.cg = s.cg ∧ t.hm = s.hm ∧ (∃ x, t.outbox = [.cgBlock p x])) ∧
  (∀ (s : State) (p : Nat) (bs : List Byte),
      p < 12 →
      2 ≤ s.get (Reg.CG_STATUS_STATE p) →
      crc16 (padTo (bs.take 14) 14) ≠ leNat ((bs.drop 14).take 2) →
      Completes (.cgBcCrc p bs) s fun t =>
        t.get (Reg.CG_ERR_BC_ERR p) = satAdd (s.get (Reg.CG_ERR_BC_ERR p)) 1 65535 ∧ t.is (Reg.CG_INJ_BC p) = false ∧ t.reported .CG_BC_CRC ∧ t.cg = s.cg ∧ t.pipes = s.pipes ∧ t.hm = s.hm) ∧
  (∀ (s : State) (p : Nat) (bs : List Byte),
      p < 12 →
      2 ≤ s.get (Reg.CG_STATUS_STATE p) →
      s.is (Reg.CG_INJ_BC p) = false →
      crc16 (padTo (bs.take 14) 14) = leNat ((bs.drop 14).take 2) →
      (bs.headD 0#8).toNat = 0 ∨ 7 < (bs.headD 0#8).toNat →
      exec (.cgBcCrc p bs) s = .next ({ s with outbox := [] } : State).settled)

/-- PLL_LOCK_DONE of a PLL in a lock shows it LOCKED and lets its pipe go on; a repeated lock of a pixel PLL is reported, that of PLL 14 also
retrains every port that is not down. PLL_LOCK_FAIL starts a pixel PLL's repeated lock, which sends a running pipe into the relock gap;
when that fails, and on a second loss within 1 s, the pipe stops with CLK_PIX_FAIL and keeps its shown state. The loss of PLL 12 or 13
reports CLK_CORE_LOSS or CLK_HM_LOSS and brings the safe state, as the failure of their lock does; PLL 14 locks once more and its failed
repeat is CLK_CG_FAIL. FREQ_GUARD_TRIP stops the pipe of a pixel PLL and brings the safe state for an internal one. CLK_REF_LOSS puts
every running PLL in holdover and brings the safe state. An event of a PLL in no lock, or not locked, has no effect. PLL_CTRL.RESTART
starts a pipe stopped for its PLL once the status is clear. CLK_INJ on a PLL that is OFF stays armed, and its LOCK makes a locked pixel
PLL lose its lock; LOCKMON_HOLD_EXPIRY ends the hold of LOCKMON. -/
def Obligations.PllsLockFailAndAreLost : Prop :=
  (∀ (s : State) (i : Nat),
      i < 12 →
      s.pllLocking i = true →
      s.is Reg.CLK_INJ_REF = false →
      s.is Reg.CLK_INJ_LOCK = false →
      s.is Reg.CLK_INJ_GUARD = false →
      (s.pll i).retry = false →
      Completes (.pllLockDone i) s fun t =>
        t.get (Reg.PLL_STATUS_STATE i) = 6 ∧ bit (t.get Reg.CLK_STATUS_LOCKED) i = true ∧ (t.pipe i).pllOk = true ∧ (∀ p, p ≠ i → t.pipe p = s.pipe p) ∧ t.fc = s.fc ∧ t.hm = s.hm) ∧
  (∀ (s : State) (i : Nat),
      i < 12 →
      s.pllLocking i = true →
      s.is Reg.CLK_INJ_REF = false →
      s.is Reg.CLK_INJ_LOCK = false →
      s.is Reg.CLK_INJ_GUARD = false →
      (s.pll i).retry = true →
      Completes (.pllLockDone i) s fun t =>
        t.get (Reg.PLL_STATUS_STATE i) = 6 ∧ (t.pipe i).pllOk = true ∧ (t.pll i).retry = false ∧ t.reported .CLK_PIX_RELOCK ∧ MemoryKept s t) ∧
  (∀ (s : State) (i : Nat),
      12 ≤ i →
      i < 15 →
      s.pllLocking i = true →
      s.is Reg.CLK_INJ_REF = false →
      s.is Reg.CLK_INJ_LOCK = false →
      s.is Reg.CLK_INJ_GUARD = false →
      i ≠ 14 ∨ (s.pll i).retry = false →
      Completes (.pllLockDone i) s fun t =>
        t.get (Reg.PLL_STATUS_STATE i) = 6 ∧ bit (t.get Reg.CLK_STATUS_LOCKED) i = true ∧ (i = 13 → s.hmReady = false → t.is Reg.HM_STATUS_INIT_BUSY = true) ∧ t.pipes = s.pipes ∧ t.fc = s.fc ∧ t.hm = s.hm) ∧
  (∀ (s : State),
      s.pllLocking 14 = true →
      (s.pll 14).retry = true →
      s.is Reg.CLK_INJ_REF = false →
      s.is Reg.CLK_INJ_LOCK = false →
      s.is Reg.CLK_INJ_GUARD = false →
      Completes (.pllLockDone 14) s fun t =>
        t.get (Reg.PLL_STATUS_STATE 14) = 6 ∧ t.reported .CLK_CG_RELOCK ∧ (t.pll 14).retry = false ∧ (∀ p, p < 12 → s.get (Reg.CG_STATUS_STATE p) ≠ 0 → t.get (Reg.CG_STATUS_STATE p) = 1) ∧ t.hm = s.hm) ∧
  (∀ (s : State) (i : Nat),
      s.pllLocking i = false →
      s.is Reg.CLK_INJ_REF = false →
      s.is Reg.CLK_INJ_LOCK = false →
      s.is Reg.CLK_INJ_GUARD = false →
      exec (.pllLockDone i) s = .next ({ s with outbox := [] } : State).settled) ∧
  (∀ (s : State) (i : Nat),
      i < 12 →
      s.pllLocking i = true →
      (s.pll i).retry = false →
      Completes (.pllLockFail i) s fun t =>
        t.get (Reg.PLL_STATUS_STATE i) = 1 ∧ (t.pll i).retry = true ∧ (s.mode i = .running → t.mode i = .relock) ∧ t.fc.log = s.fc.log ∧ (∀ p, p ≠ i → (s.pipe p).startAt = none → t.pipe p = s.pipe p) ∧ t.hm = s.hm) ∧
  (∀ (s : State) (i : Nat),
      i < 12 →
      s.pllLocking i = true →
      (s.pll i).retry = true →
      Completes (.pllLockFail i) s fun t =>
        t.mode i = .stopping ∧ t.get (Reg.PLL_STATUS_STATE i) = 0 ∧ (t.pll i).failed = true ∧ (t.pipe i).shown = (s.pipe i).shown ∧ t.reported .CLK_PIX_FAIL ∧ MemoryKept s t) ∧
  (∀ (s : State),
      s.pllLocking 14 = true →
      (s.pll 14).retry = true →
      Completes (.pllLockFail 14) s fun t =>
        t.reported .CLK_CG_FAIL ∧ t.safeState = true ∧ MemoryKept s t) ∧
  (∀ (s : State) (i : Nat),
      i = 12 ∨ i = 13 →
      s.pllLocking i = true →
      Completes (.pllLockFail i) s fun t =>
        (i = 12 → t.reported .CLK_CORE_LOSS) ∧ (i = 13 → t.reported .CLK_HM_LOSS) ∧ t.safeState = true ∧ MemoryKept s t) ∧
  (∀ (s : State),
      s.pllLocking 14 = true →
      (s.pll 14).retry = false →
      Completes (.pllLockFail 14) s fun t =>
        t.get (Reg.PLL_STATUS_STATE 14) = 1 ∧ (t.pll 14).retry = true ∧ t.fc = s.fc ∧ t.pipes = s.pipes ∧ t.hm = s.hm) ∧
  (∀ (s : State) (i : Nat),
      s.pllLocking i = false →
      exec (.pllLockFail i) s = .next ({ s with outbox := [] } : State).settled) ∧
  (∀ (s : State) (i : Nat),
      s.pllLocked i = false →
      exec (.pllLossOfLock i) s = .next ({ s with outbox := [] } : State).settled) ∧
  (∀ (s : State) (i : Nat),
      i < 12 →
      s.pllLocked i = true →
      (match (s.pll i).lostAt with | some u => decide (s.now < u + 1000 * msNs) | none => false) = false →
      Completes (.pllLossOfLock i) s fun t =>
        t.get (Reg.PLL_STATUS_STATE i) = 1 ∧ (t.pll i).retry = true ∧ (s.mode i = .running → t.mode i = .relock) ∧ t.fc.log = s.fc.log ∧ (∀ p, p ≠ i → (s.pipe p).startAt = none → t.pipe p = s.pipe p) ∧ t.hm = s.hm ∧ (t.pll i).lostAt = some s.now ∧ (bit (s.get Reg.CLK_LOCKMON_MASK) i = true → t.pins.lockmon = false)) ∧
  (∀ (s : State) (i : Nat),
      i < 12 →
      s.pllLocked i = true →
      (match (s.pll i).lostAt with | some u => decide (s.now < u + 1000 * msNs) | none => false) = true →
      Completes (.pllLossOfLock i) s fun t =>
        t.mode i = .stopping ∧ t.get (Reg.PLL_STATUS_STATE i) = 0 ∧ (t.pll i).failed = true ∧ (t.pipe i).shown = (s.pipe i).shown ∧ t.reported .CLK_PIX_FAIL ∧ MemoryKept s t) ∧
  (∀ (s : State) (i : Nat),
      i = 12 ∨ i = 13 →
      s.pllLocked i = true →
      Completes (.pllLossOfLock i) s fun t =>
        (i = 12 → t.reported .CLK_CORE_LOSS) ∧ (i = 13 → t.reported .CLK_HM_LOSS) ∧ t.safeState = true ∧ MemoryKept s t) ∧
  (∀ (s : State),
      s.pllLocked 14 = true →
      Completes (.pllLossOfLock 14) s fun t =>
        t.get (Reg.PLL_STATUS_STATE 14) = 1 ∧ (t.pll 14).retry = true ∧ t.fc = s.fc ∧ t.pipes = s.pipes ∧ t.hm = s.hm) ∧
  (∀ (s : State) (i : Nat),
      i < 12 →
      s.pllLocked i = true →
      Completes (.freqGuardTrip i) s fun t =>
        t.mode i = .stopping ∧ t.get (Reg.PLL_STATUS_STATE i) = 0 ∧ (t.pll i).failed = true ∧ (t.pipe i).shown = (s.pipe i).shown ∧ t.reported .CLK_GUARD_PIX ∧ MemoryKept s t) ∧
  (∀ (s : State) (i : Nat),
      12 ≤ i →
      i < 15 →
      s.pllLocked i = true →
      Completes (.freqGuardTrip i) s fun t =>
        t.reported .CLK_GUARD_INT ∧ t.safeState = true ∧ MemoryKept s t) ∧
  (∀ (s : State),
      s.clk.refLost = false →
      Completes (.clkRefLoss) s fun t =>
        t.is Reg.CLK_STATUS_REF_OK = false ∧ t.is Reg.CLK_STATUS_HOLDOVER = true ∧ (∀ i, i < 15 → t.get (Reg.PLL_STATUS_STATE i) = if s.get (Reg.PLL_STATUS_STATE i) = 0 then 0 else 7) ∧ t.reported .CLK_REF_LOSS ∧ t.safeState = true ∧ MemoryKept s t) ∧
  (∀ (s : State),
      s.clk.refLost = true →
      exec (.clkRefLoss) s = .next ({ s with outbox := [] } : State).settled) ∧
  (∀ (s : State) (o : Origin) (i : Nat) (v : Word),
      i < 12 →
      s.accepts o (Reg.a_PLL_CTRL i) v = true →
      bit v.toNat 2 = true →
      (s.pll i).failed = true →
      s.mode i = .stopped →
      s.runShown i = true →
      s.cleared .CLK_PIX_FAIL = true →
      s.cleared .CLK_GUARD_PIX = true →
      Completes (.pllRestart o i v) s fun t =>
        t.mode i = .starting ∧ (t.pll i).failed = false ∧ (t.pipe i).shown = (s.pipe i).shown ∧ (∀ p, p ≠ i → t.pipe p = s.pipe p) ∧ t.hm = s.hm) ∧
  (∀ (s : State) (o : Origin) (i : Nat) (v : Word),
      i < 15 →
      s.accepts o (Reg.a_PLL_CTRL i) v = true →
      bit v.toNat 2 = false →
      Completes (.pllRestart o i v) s fun t =>
        t.is (Reg.PLL_CTRL_DITHER_EN i) = bit v.toNat 0 ∧ t.pipes = s.pipes ∧ t.clk = s.clk ∧ t.fc = s.fc ∧ t.hm = s.hm ∧ ∀ a, a ≠ Reg.a_PLL_CTRL i → t.reg a = s.reg a) ∧
  (∀ (s : State) (o : Origin) (v : Word),
      s.accepts o (Reg.a_CLK_INJ) v = true →
      bit v.toNat 10 = false →
      s.is Reg.CLK_INJ_REF = false →
      s.get (Reg.PLL_STATUS_STATE (bits v.toNat 3 0)) = 0 →
      bits v.toNat 3 0 < 15 →
      Completes (.clkInj o v) s fun t =>
        t.get Reg.CLK_INJ_PLL = bits v.toNat 3 0 ∧ (∀ f : FRef, f ∈ [Reg.CLK_INJ_LOCK, Reg.CLK_INJ_GUARD, Reg.CLK_INJ_REF] → t.get f = s.get f ||| bits v.toNat f.hi f.lo) ∧ t.clk = s.clk ∧ t.hm = s.hm ∧ ∀ a, a ≠ Reg.a_CLK_INJ → t.reg a = s.reg a) ∧
  (∀ (s : State) (o : Origin) (v : Word),
      s.accepts o (Reg.a_CLK_INJ) v = true →
      bits v.toNat 10 8 = 1 →
      bits v.toNat 3 0 < 12 →
      s.is Reg.CLK_INJ_REF = false →
      s.is Reg.CLK_INJ_LOCK = false →
      s.is Reg.CLK_INJ_GUARD = false →
      s.pllLocked (bits v.toNat 3 0) = true →
      (match (s.pll (bits v.toNat 3 0)).lostAt with | some u => decide (s.now < u + 1000 * msNs) | none => false) = false →
      Completes (.clkInj o v) s fun t =>
        t.get (Reg.PLL_STATUS_STATE (bits v.toNat 3 0)) = 1 ∧ (t.pll (bits v.toNat 3 0)).retry = true ∧ t.is Reg.CLK_INJ_LOCK = false ∧ t.hm = s.hm) ∧
  (∀ (s : State),
      Completes (.lockmonHoldExpiry) s fun t =>
        t.clk = { s.clk with lockmonHold := false } ∧ t.regs = s.regs ∧ t.hm = s.hm)

/-- SOURCE_INPUT_CHANGE makes an existing EDGE source pending at each occurrence; a LEVEL source when its input asserts, unless it is active
and its input was not seen de-asserted since the claim; an EVENT source appends its record and is pending, or counts the record in LOST
where its FIFO is full. A reserved source never asserts. SRC_PEND sets exactly the existing sources named, SRC_UNPEND clears exactly those
named that are PENDING with nothing asserted, and a write that names a source which the requester may not configure changes no source.
SRC_CFG stores EN, GROUP, TARGETS and PRIO (GROUP 0 for sources 192 to 194) and no other register. MBOX_RING sets its sources; a bit
outside the requester's half is refused. A read of REC_D2 pops the oldest record and answers its last word, a read of REC_STAT clears
LOST; by DEBUG, or without the right, they change nothing. INTC_INJ is used at its checker. -/
def Obligations.SourcesFollowTheirInputs : Prop :=
  (∀ (s : State) (n : Nat) (b : Bool) (c u x : Nat),
      srcExists n = false →
      exec (.sourceInputChange n b c u x) s = .next ({ s with outbox := [] } : State).settled) ∧
  (∀ (s : State) (n : Nat) (c u x : Nat),
      srcExists n = true →
      srcMode n = 1 →
      Completes (.sourceInputChange n true c u x) s fun t =>
        t.src n = { (s.src n) with pend := true } ∧ (∀ k, k ≠ n → t.src k = s.src k) ∧ t.regs = s.regs ∧ t.intc.tgts = s.intc.tgts ∧ t.hm = s.hm) ∧
  (∀ (s : State) (n : Nat) (c u x : Nat),
      srcExists n = true →
      srcMode n = 0 →
      (s.src n).input = false →
      Completes (.sourceInputChange n true c u x) s fun t =>
        t.src n = { (s.src n) with input := true, pend := if (s.src n).active && !(s.src n).low then (s.src n).pend else true } ∧ (∀ k, k ≠ n → t.src k = s.src k) ∧ t.regs = s.regs ∧ t.intc.tgts = s.intc.tgts ∧ t.hm = s.hm) ∧
  (∀ (s : State) (n : Nat) (c u x : Nat),
      srcExists n = true →
      srcMode n = 0 →
      Completes (.sourceInputChange n false c u x) s fun t =>
        t.src n = { (s.src n) with input := false, low := (s.src n).low || (s.src n).active } ∧ (∀ k, k ≠ n → t.src k = s.src k) ∧ t.regs = s.regs ∧ t.intc.tgts = s.intc.tgts ∧ t.hm = s.hm) ∧
  (∀ (s : State) (n : Nat) (c u x : Nat),
      srcExists n = true →
      srcMode n = 2 →
      (s.src n).fifo.length < srcDepth n →
      Completes (.sourceInputChange n true c u x) s fun t =>
        t.src n = { (s.src n) with fifo := (s.src n).fifo ++ [⟨c, u, s.orbit.stamp, x % 2 ^ 32⟩], pend := true } ∧ (∀ k, k ≠ n → t.src k = s.src k) ∧ t.regs = s.regs ∧ t.intc.tgts = s.intc.tgts ∧ t.hm = s.hm) ∧
  (∀ (s : State) (n : Nat) (c u x : Nat),
      srcExists n = true →
      srcMode n = 2 →
      srcDepth n ≤ (s.src n).fifo.length →
      Completes (.sourceInputChange n true c u x) s fun t =>
        t.src n = { (s.src n) with lost := satInc (s.src n).lost 65535, lostMsg := true } ∧ (∀ k, k ≠ n → t.src k = s.src k) ∧ t.regs = s.regs ∧ t.intc.tgts = s.intc.tgts ∧ t.hm = s.hm) ∧
  (∀ (s : State) (o : Origin) (n : Nat) (v : Word),
      n < 8 →
      s.accepts o (Reg.a_SRC_PEND n) v = true →
      ∀ k, k ∈ pendSources n v.toNat → s.mayConfigure o k = true →
      Completes (.srcPendWrite o n v) s fun t =>
        (∀ k, t.src k = if k ∈ pendSources n v.toNat then { s.src k with pend := true } else s.src k) ∧ t.regs = s.regs ∧ t.intc.tgts = s.intc.tgts ∧ t.hm = s.hm) ∧
  (∀ (s : State) (o : Origin) (n : Nat) (v : Word),
      n < 8 →
      s.accepts o (Reg.a_SRC_PEND n) v = true →
      ∃ k, k ∈ pendSources n v.toNat ∧ s.mayConfigure o k = false →
      s.get Reg.FC_CFG_ESCALATE = 0 →
      Completes (.srcPendWrite o n v) s fun t =>
        t.reported .ACC_REFUSED ∧ ∀ k, k < 192 ∨ 194 < k → t.src k = s.src k) ∧
  (∀ (s : State) (o : Origin) (n : Nat) (v : Word),
      n < 8 →
      s.accepts o (Reg.a_SRC_UNPEND n) v = true →
      ∀ k, k ∈ pendSources n v.toNat → s.mayConfigure o k = true →
      Completes (.srcUnpendWrite o n v) s fun t =>
        (∀ k, t.src k = if k ∈ pendSources n v.toNat ∧ (s.src k).pend = true ∧ (s.src k).active = false ∧ (srcMode k = 1 ∨ (srcMode k = 0 ∧ (s.src k).input = false) ∨ (srcMode k = 2 ∧ (s.src k).fifo = [])) then { s.src k with pend := false } else s.src k) ∧ t.regs = s.regs ∧ t.intc.tgts = s.intc.tgts ∧ t.hm = s.hm) ∧
  (∀ (s : State) (o : Origin) (n : Nat) (v : Word),
      n < 8 →
      s.accepts o (Reg.a_SRC_UNPEND n) v = true →
      ∃ k, k ∈ pendSources n v.toNat ∧ s.mayConfigure o k = false →
      s.get Reg.FC_CFG_ESCALATE = 0 →
      Completes (.srcUnpendWrite o n v) s fun t =>
        t.reported .ACC_REFUSED ∧ ∀ k, k < 192 ∨ 194 < k → t.src k = s.src k) ∧
  (∀ (s : State) (o : Origin) (n : Nat) (v : Word),
      srcExists n = true →
      s.accepts o (Reg.a_SRC_CFG n) v = true →
      s.mayConfigure o n = true →
      o = .sp ∨ bits v.toNat 9 8 = 0 →
      Completes (.srcCfgWrite o n v) s fun t =>
        t.get (Reg.SRC_CFG_EN n) = bits v.toNat 31 31 ∧ t.get (Reg.SRC_CFG_PRIO n) = bits v.toNat 3 0 ∧ t.get (Reg.SRC_CFG_TARGETS n) = bits v.toNat 15 8 ∧
        t.get (Reg.SRC_CFG_GROUP n) = (if 192 ≤ n ∧ n ≤ 194 then 0 else bits v.toNat 27 24) ∧ t.get (Reg.SRC_CFG_MODE n) = s.get (Reg.SRC_CFG_MODE n) ∧
        t.src n = { (s.src n) with parBad := false } ∧ (∀ k, k ≠ n → t.src k = s.src k) ∧ (∀ a, a ≠ Reg.a_SRC_CFG n → t.reg a = s.reg a) ∧ t.hm = s.hm) ∧
  (∀ (s : State) (o : Origin) (n : Nat) (v : Word),
      srcExists n = true →
      s.accepts o (Reg.a_SRC_CFG n) v = true →
      s.mayConfigure o n = false →
      Completes (.srcCfgWrite o n v) s fun t =>
        t.reported .ACC_REFUSED ∧ t.reg (Reg.a_SRC_CFG n) = s.reg (Reg.a_SRC_CFG n)) ∧
  (∀ (s : State) (o : Origin) (v : Word),
      s.accepts o (Reg.a_MBOX_RING) v = true →
      bits v.toNat 3 0 = 0 ∨ isHostPath o = true →
      bits v.toNat 7 4 = 0 ∨ isCore o = true →
      Completes (.mboxRing o v) s fun t =>
        (∀ k, t.src k = if 208 ≤ k ∧ k < 216 ∧ bit v.toNat (k - 208) = true then { s.src k with pend := true } else s.src k) ∧ t.regs = s.regs ∧ t.intc.tgts = s.intc.tgts ∧ t.hm = s.hm) ∧
  (∀ (s : State) (o : Origin) (v : Word),
      s.accepts o (Reg.a_MBOX_RING) v = true →
      bits v.toNat 7 4 ≠ 0 →
      isCore o = false →
      s.get Reg.FC_CFG_ESCALATE = 0 →
      Completes (.mboxRing o v) s fun t =>
        t.reported .ACC_REFUSED ∧ ∀ k, k < 192 ∨ 194 < k → t.src k = s.src k) ∧
  (∀ (s : State) (o : Origin) (v : Word),
      s.accepts o (Reg.a_INTC_INJ) v = true →
      s.is Reg.INTC_INJ_CFG = false →
      s.is Reg.INTC_INJ_STACK = false →
      bits v.toNat 1 0 = 0 →
      Completes (.intcInj o v) s fun t =>
        t.get Reg.INTC_INJ_REC = s.get Reg.INTC_INJ_REC ||| bits v.toNat 2 2 ∧ t.get Reg.INTC_INJ_TGT = bits v.toNat 6 4 ∧ t.intc = s.intc ∧ t.hm = s.hm) ∧
  (∀ (s : State) (o : Origin) (v : Word),
      s.accepts o (Reg.a_INTC_INJ) v = true →
      s.is Reg.INTC_INJ_CFG = false →
      bits v.toNat 1 0 = 2 →
      Completes (.intcInj o v) s fun t =>
        (2 ≤ bits v.toNat 6 4 → t.reported .INTC_STACK_PAR ∧ (t.tgt (bits v.toNat 6 4)).stack = []) ∧ (bits v.toNat 6 4 < 2 → t.reported .INTC_STACK_PAR_SP ∧ t.safeState = true) ∧ MemoryKept s t) ∧
  (∀ (s : State) (o : Origin) (v : Word),
      s.accepts o (Reg.a_INTC_INJ) v = true →
      bit v.toNat 0 = true →
      Completes (.intcInj o v) s fun t =>
        t.reported .INTC_CFG_PAR ∧ MemoryKept s t) ∧
  (∀ (s : State) (o : Origin) (r : EvRec) (rest : List EvRec),
      s.reaches o .REC_D2 = true →
      o ≠ .debug →
      s.mayConfigure o (s.get Reg.REC_SEL_SOURCE) = true →
      s.is Reg.INTC_INJ_REC = false →
      (s.src (s.get Reg.REC_SEL_SOURCE)).fifo = r :: rest →
      Completes (.recD2Read o) s fun t =>
        t.src (s.get Reg.REC_SEL_SOURCE) = { (s.src (s.get Reg.REC_SEL_SOURCE)) with fifo := rest } ∧ t.outbox = [.data o Reg.a_REC_D2 (leBytes 4 r.arg)] ∧ t.regs = s.regs ∧ t.intc.tgts = s.intc.tgts ∧ t.hm = s.hm) ∧
  (∀ (s : State) (o : Origin) (r : EvRec) (rest : List EvRec),
      s.reaches o .REC_D2 = true →
      o ≠ .debug →
      s.mayConfigure o (s.get Reg.REC_SEL_SOURCE) = true →
      s.is Reg.INTC_INJ_REC = true →
      (s.src (s.get Reg.REC_SEL_SOURCE)).fifo = r :: rest →
      Completes (.recD2Read o) s fun t =>
        (t.src (s.get Reg.REC_SEL_SOURCE)).fifo = rest ∧ t.reported .INTC_REC_CORR ∧ t.is Reg.INTC_INJ_REC = false ∧ t.outbox = [.data o Reg.a_REC_D2 (leBytes 4 r.arg)] ∧ MemoryKept s t) ∧
  (∀ (s : State) (o : Origin),
      s.reaches o .REC_D2 = true →
      o ≠ .debug →
      s.mayConfigure o (s.get Reg.REC_SEL_SOURCE) = false →
      exec (.recD2Read o) s = .next ({ s with outbox := [.data o Reg.a_REC_D2 [0#8, 0#8, 0#8, 0#8]] } : State).settled) ∧
  (∀ (s : State) (o : Origin),
      s.reaches o .REC_STAT = true →
      o ≠ .debug →
      s.mayConfigure o (s.get Reg.REC_SEL_SOURCE) = true →
      Completes (.recStatRead o) s fun t =>
        t.src (s.get Reg.REC_SEL_SOURCE) = { (s.src (s.get Reg.REC_SEL_SOURCE)) with lost := 0 } ∧ t.outbox = [.data o Reg.a_REC_STAT (leBytes 4 ((s.src (s.get Reg.REC_SEL_SOURCE)).fifo.length * 65536 + (s.src (s.get Reg.REC_SEL_SOURCE)).lost))] ∧ t.regs = s.regs ∧ t.intc.tgts = s.intc.tgts ∧ t.hm = s.hm) ∧
  (∀ (s : State),
      s.reaches .debug .REC_STAT = true →
      Completes (.recStatRead .debug) s fun t =>
        t.intc = s.intc ∧ t.regs = s.regs ∧ t.hm = s.hm)

/-- A source on offer exists to its target as pending, not active, enabled, with a priority above 0 and above the running priority, and in the
target mask. INTC_ACKNOWLEDGE of the offered source and a read of TGT_CLAIM by the target's own core claim it: it is ACTIVE, its vector
and priority are pushed, no target offers it; an acknowledge of any other source answers 1023, and so does a read of TGT_CLAIM by another
requester, and nothing changes. TGT_EOI removes the vector from the stack and ends its source, which is pending again exactly where it
was, where its LEVEL input is asserted or its FIFO is not empty; a vector not in the stack sets EOI_BAD alone. HOST_MSG_COMMIT claims the
offer of its queue, pops its record into the message, and numbers it; HQ_ACK up to a message sent leaves those after it outstanding and is
else ignored. MODERATION_EXPIRY ends one hold-off timer. CORE_IDLE_CHANGE shows the core idle or busy, holds MC2 or MC3 with an empty
stack, and releases it outside the safe state with the fault status clear. -/
def Obligations.OffersAreClaimedAndEnded : Prop :=
  (∀ (s : State) (c n : Nat),
      s.offer c = some n →
      (s.src n).pend = true ∧ (s.src n).active = false ∧ s.is (Reg.SRC_CFG_EN n) = true ∧ 0 < s.get (Reg.SRC_CFG_PRIO n) ∧ (s.tgt c).running < s.get (Reg.SRC_CFG_PRIO n) ∧ bit (s.get (Reg.SRC_CFG_TARGETS n)) c = true ∧ ∀ m, s.qualifies c m = true → s.get (Reg.SRC_CFG_PRIO m) ≤ s.get (Reg.SRC_CFG_PRIO n)) ∧
  (∀ (s : State) (c n : Nat),
      c < 4 →
      s.offer c = some n →
      Completes (.intcAcknowledge c n) s fun t =>
        (t.src n).active = true ∧ (t.src n).pend = false ∧ (t.src n).tgt = c ∧ (t.tgt c).stack = (n, s.get (Reg.SRC_CFG_PRIO n)) :: (s.tgt c).stack ∧ (∀ u, t.offer u ≠ some n) ∧ (∀ k, k ≠ n → t.src k = s.src k) ∧ (∀ u, u ≠ c → t.tgt u = s.tgt u) ∧ t.outbox = [.vector c n (s.get (Reg.TGT_VBASE_BASE c) * 4096 + 4 * n)] ∧ t.regs = s.regs ∧ t.hm = s.hm) ∧
  (∀ (s : State) (c n : Nat),
      c < 4 →
      s.offer c ≠ some n →
      exec (.intcAcknowledge c n) s = .next ({ s with outbox := [.vector c 1023 (s.get (Reg.TGT_VBASE_BASE c) * 4096 + 4092)] } : State).settled) ∧
  (∀ (s : State) (o : Origin) (c n : Nat),
      c < 8 →
      s.reaches o .TGT_CLAIM = true →
      isOwnCore o c = true →
      s.offer c = some n →
      Completes (.tgtClaimRead o c) s fun t =>
        (t.src n).active = true ∧ (t.src n).pend = false ∧ (t.src n).tgt = c ∧ (t.tgt c).stack = (n, s.get (Reg.SRC_CFG_PRIO n)) :: (s.tgt c).stack ∧ (∀ u, t.offer u ≠ some n) ∧ (∀ k, k ≠ n → t.src k = s.src k) ∧ (∀ u, u ≠ c → t.tgt u = s.tgt u) ∧ t.outbox = [.data o (Reg.a_TGT_CLAIM c) (leBytes 4 n)] ∧ t.regs = s.regs ∧ t.hm = s.hm) ∧
  (∀ (s : State) (o : Origin) (c : Nat),
      c < 8 →
      s.reaches o .TGT_CLAIM = true →
      isOwnCore o c = false →
      exec (.tgtClaimRead o c) s = .next ({ s with outbox := [.data o (Reg.a_TGT_CLAIM c) [0xFF#8, 0x03#8, 0#8, 0#8]] } : State).settled) ∧
  (∀ (s : State) (o : Origin) (c : Nat) (v : Word) (n p : Nat),
      c < 8 →
      s.accepts o (Reg.a_TGT_EOI c) v = true →
      bits v.toNat 7 0 = n →
      (n, p) ∈ (s.tgt c).stack →
      Completes (.tgtEoi o c v) s fun t =>
        (t.tgt c).stack = (s.tgt c).stack.filter (fun e => e.1 != n) ∧ (t.src n).active = false ∧ (t.src n).pend = ((s.src n).pend || (srcMode n == 0 && (s.src n).input) || (srcMode n == 2 && !(s.src n).fifo.isEmpty)) ∧ (∀ k, k ≠ n → t.src k = s.src k) ∧ (∀ u, u ≠ c → t.tgt u = s.tgt u) ∧ t.regs = s.regs ∧ t.hm = s.hm) ∧
  (∀ (s : State) (o : Origin) (c : Nat) (v : Word),
      c < 8 →
      s.accepts o (Reg.a_TGT_EOI c) v = true →
      ∀ e, e ∈ (s.tgt c).stack → e.1 ≠ bits v.toNat 7 0 →
      Completes (.tgtEoi o c v) s fun t =>
        t.is (Reg.TGT_STATE_EOI_BAD c) = true ∧ t.intc = s.intc ∧ t.hm = s.hm ∧ ∀ a, a ≠ Reg.a_TGT_STATE c → t.reg a = s.reg a) ∧
  (∀ (s : State) (q n : Nat),
      q < 4 →
      s.offer (4 + q) = some n →
      s.is Reg.INTC_INJ_REC = false →
      Completes (.hostMsgCommit q) s fun t =>
        t.ak.queue = s.ak.queue ++ [.msg q (msgBytes (s.get (Reg.HQ_STATUS_NEXT_SEQ (4 + q))) n (s.get (Reg.SRC_CFG_PRIO n)) (s.src n).fifo.head? (decide (2 ≤ (s.src n).fifo.length)) (s.src n).lostMsg)] ∧
        t.get (Reg.HQ_STATUS_NEXT_SEQ (4 + q)) = (s.get (Reg.HQ_STATUS_NEXT_SEQ (4 + q)) + 1) % 65536 ∧ t.get (Reg.HQ_STATUS_OUTSTANDING (4 + q)) = s.get (Reg.HQ_STATUS_OUTSTANDING (4 + q)) + 1 ∧
        (t.src n).fifo = (s.src n).fifo.tail ∧ (t.src n).active = true ∧ (t.src n).pend = decide (2 ≤ (s.src n).fifo.length) ∧ (t.tgt (4 + q)).stack = (n, s.get (Reg.SRC_CFG_PRIO n)) :: (s.tgt (4 + q)).stack ∧ (∀ k, k ≠ n → t.src k = s.src k) ∧ t.hm = s.hm) ∧
  (∀ (s : State) (q : Nat),
      s.offer (4 + q) = none →
      exec (.hostMsgCommit q) s = .next ({ s with outbox := [] } : State).settled) ∧
  (∀ (s : State) (o : Origin) (c : Nat) (v : Word),
      4 ≤ c →
      c < 8 →
      s.accepts o (Reg.a_HQ_ACK c) v = true →
      ((s.get (Reg.HQ_STATUS_NEXT_SEQ c) + 65535 - v.toNat % 65536) % 65536) ≤ s.get (Reg.HQ_STATUS_OUTSTANDING c) →
      Completes (.hqAck o c v) s fun t =>
        t.get (Reg.HQ_STATUS_OUTSTANDING c) = ((s.get (Reg.HQ_STATUS_NEXT_SEQ c) + 65535 - v.toNat % 65536) % 65536) ∧ t.get (Reg.HQ_ACK_SEQ c) = v.toNat % 65536 ∧ t.get (Reg.HQ_STATUS_NEXT_SEQ c) = s.get (Reg.HQ_STATUS_NEXT_SEQ c) ∧ t.intc = s.intc ∧ t.hm = s.hm) ∧
  (∀ (s : State) (o : Origin) (c : Nat) (v : Word),
      4 ≤ c →
      c < 8 →
      s.accepts o (Reg.a_HQ_ACK c) v = true →
      s.get (Reg.HQ_STATUS_OUTSTANDING c) < ((s.get (Reg.HQ_STATUS_NEXT_SEQ c) + 65535 - v.toNat % 65536) % 65536) →
      exec (.hqAck o c v) s = .next ({ s with outbox := [] } : State).settled) ∧
  (∀ (s : State) (c g : Nat),
      c < 8 →
      Completes (.moderationExpiry c g) s fun t =>
        t.tgt c = { s.tgt c with timers := (s.tgt c).timers.filter fun k => k != g } ∧ (∀ u, u ≠ c → t.tgt u = s.tgt u) ∧ t.intc.srcs = s.intc.srcs ∧ t.regs = s.regs ∧ t.hm = s.hm) ∧
  (∀ (s : State) (c : Nat) (b : Bool),
      c < 4 →
      (s.tgt c).held = false →
      Completes (.coreIdleChange c b false) s fun t =>
        t.tgt c = { s.tgt c with idle := b } ∧ (∀ u, u ≠ c → t.tgt u = s.tgt u) ∧ t.intc.srcs = s.intc.srcs ∧ t.regs = s.regs ∧ t.fc = s.fc ∧ t.hm = s.hm) ∧
  (∀ (s : State) (c : Nat) (b : Bool),
      c = 2 ∨ c = 3 →
      Completes (.coreIdleChange c b true) s fun t =>
        (t.tgt c).held = true ∧ (t.tgt c).stack = [] ∧ (∀ u, t.offer c ≠ some u) ∧ (∀ e, e ∈ (s.tgt c).stack → (t.src e.1).active = false) ∧ (∀ u, u ≠ c → t.tgt u = s.tgt u) ∧ t.regs = s.regs ∧ t.hm = s.hm) ∧
  (∀ (s : State) (c : Nat) (b : Bool),
      c = 2 ∨ c = 3 →
      (s.tgt c).held = true →
      s.safeState = false →
      s.cleared .SVC_SRAM_UNCORR = true →
      s.cleared .SC_WDT = true →
      Completes (.coreIdleChange c b false) s fun t =>
        (t.tgt c).held = false ∧ (t.tgt c).idle = b ∧ (∀ u, u ≠ c → t.tgt u = s.tgt u) ∧ t.intc.srcs = s.intc.srcs ∧ t.regs = s.regs ∧ t.hm = s.hm)

/-- For a request frame that the engine serves at once: READ of an ownership object answers READ_OK with the owner or the generation, of a
fault group its LATCHED bits, of identity sub 1 and 2 the strings; READ of an index or subindex that does not exist, or of a WO object, is
answered with its abort. WRITE of an RO object, of a wrong length, of an AUTH object without a trailer, or by a path that does not own the
pipe, is answered with the abort of Table 15.7; a MAC that does not verify is counted and does not move the floor. A write that verifies
moves the floor to its counter and is done: NODE waits in flash for the next Kindling, CLAIM takes a unit without owner. A classic READ is
answered with a classic frame, any other classic frame is not answered. A frame with another identifier changes nothing. Beside the frame
counters a refused request changes no register, no object state and no byte. -/
def Obligations.RequestsAreAnsweredOnTheirBus : Prop :=
  (∀ (s : State) (fr : CanFrame) (u : Nat),
      fr.fd = true →
      s.serves fr = true →
      (odHdr fr.bs).cmd = 1 →
      odMalformed (odHdr fr.bs) fr.bs = false →
      (odHdr fr.bs).index = 0x1080 + u →
      (odHdr fr.bs).sub = 1 →
      u < 17 →
      s.od.badObjs.contains (odHdr fr.bs).index = false →
      Completes (.read fr false) s fun t =>
        t.outbox = [s.answer fr.bus (odFrame 0x81 ((odHdr fr.bs).req fr.bus false fr.brs) (leBytes 1 (s.owner u))) fr.brs] ∧ t.get (Reg.CAN_CNT_RX fr.bus) = (s.get (Reg.CAN_CNT_RX fr.bus) + 1) % 65536 ∧ t.od = s.od ∧ t.hm = s.hm ∧ t.flash = s.flash ∧ (∀ a, a ≠ Reg.a_CAN_CNT fr.bus → t.reg a = s.reg a)) ∧
  (∀ (s : State) (fr : CanFrame) (u : Nat),
      fr.fd = true →
      s.serves fr = true →
      (odHdr fr.bs).cmd = 1 →
      odMalformed (odHdr fr.bs) fr.bs = false →
      (odHdr fr.bs).index = 0x1080 + u →
      (odHdr fr.bs).sub = 2 →
      u < 17 →
      s.od.badObjs.contains (odHdr fr.bs).index = false →
      Completes (.read fr false) s fun t =>
        t.outbox = [s.answer fr.bus (odFrame 0x81 ((odHdr fr.bs).req fr.bus false fr.brs) (leBytes 2 (s.get (Reg.OWN_GEN u)))) fr.brs] ∧ t.od = s.od ∧ t.hm = s.hm ∧ t.flash = s.flash ∧ (∀ a, a ≠ Reg.a_CAN_CNT fr.bus → t.reg a = s.reg a)) ∧
  (∀ (s : State) (fr : CanFrame) (g : Nat),
      fr.fd = true →
      s.serves fr = true →
      (odHdr fr.bs).cmd = 1 →
      odMalformed (odHdr fr.bs) fr.bs = false →
      (odHdr fr.bs).index = 0x1100 + g →
      (odHdr fr.bs).sub = 1 →
      1 ≤ g →
      g ≤ 14 →
      s.od.badObjs.contains (odHdr fr.bs).index = false →
      Completes (.read fr false) s fun t =>
        t.outbox = [s.answer fr.bus (odFrame 0x81 ((odHdr fr.bs).req fr.bus false fr.brs) (leBytes 2 (s.get (Reg.FC_STAT_LATCHED g)))) fr.brs] ∧ t.od = s.od ∧ t.hm = s.hm ∧ t.flash = s.flash ∧ (∀ a, a ≠ Reg.a_CAN_CNT fr.bus → t.reg a = s.reg a)) ∧
  (∀ (s : State) (fr : CanFrame),
      fr.fd = true →
      s.serves fr = true →
      (odHdr fr.bs).cmd = 1 →
      odMalformed (odHdr fr.bs) fr.bs = false →
      (odHdr fr.bs).index = 0x0100 →
      (odHdr fr.bs).sub = 2 →
      s.od.badObjs.contains (odHdr fr.bs).index = false →
      Completes (.read fr false) s fun t =>
        t.outbox = [s.answer fr.bus (odFrame 0x81 ((odHdr fr.bs).req fr.bus false fr.brs) (strBytes "TD96-AQ2")) fr.brs] ∧ t.od = s.od ∧ t.hm = s.hm ∧ t.flash = s.flash ∧ (∀ a, a ≠ Reg.a_CAN_CNT fr.bus → t.reg a = s.reg a)) ∧
  (∀ (s : State) (fr : CanFrame),
      fr.fd = true →
      s.serves fr = true →
      (odHdr fr.bs).cmd = 1 →
      odMalformed (odHdr fr.bs) fr.bs = false →
      objKind (odHdr fr.bs).index = none →
      Completes (.read fr false) s fun t =>
        t.outbox = [s.abortAnswer ((odHdr fr.bs).req fr.bus false fr.brs) 0x02000001] ∧ t.od = s.od ∧ t.hm = s.hm ∧ t.flash = s.flash ∧ (∀ a, a ≠ Reg.a_CAN_CNT fr.bus → t.reg a = s.reg a)) ∧
  (∀ (s : State) (fr : CanFrame) (k : ObjKind),
      fr.fd = true →
      s.serves fr = true →
      (odHdr fr.bs).cmd = 1 →
      odMalformed (odHdr fr.bs) fr.bs = false →
      objKind (odHdr fr.bs).index = some k →
      s.od.badObjs.contains (odHdr fr.bs).index = false →
      objDesc k (odHdr fr.bs).sub = none →
      Completes (.read fr false) s fun t =>
        t.outbox = [s.abortAnswer ((odHdr fr.bs).req fr.bus false fr.brs) 0x02000002] ∧ t.od = s.od ∧ t.hm = s.hm ∧ t.flash = s.flash ∧ (∀ a, a ≠ Reg.a_CAN_CNT fr.bus → t.reg a = s.reg a)) ∧
  (∀ (s : State) (fr : CanFrame) (k : ObjKind) (d : ObjDesc),
      fr.fd = true →
      s.serves fr = true →
      (odHdr fr.bs).cmd = 1 →
      odMalformed (odHdr fr.bs) fr.bs = false →
      objKind (odHdr fr.bs).index = some k →
      s.od.badObjs.contains (odHdr fr.bs).index = false →
      objDesc k (odHdr fr.bs).sub = some d →
      d.acc = .wo →
      Completes (.read fr false) s fun t =>
        t.outbox = [s.abortAnswer ((odHdr fr.bs).req fr.bus false fr.brs) 0x02000004] ∧ t.od = s.od ∧ t.hm = s.hm ∧ t.flash = s.flash ∧ (∀ a, a ≠ Reg.a_CAN_CNT fr.bus → t.reg a = s.reg a)) ∧
  (∀ (s : State) (fr : CanFrame) (e : ReadEvent) (k : ObjKind) (d : ObjDesc),
      fr.fd = true →
      s.serves fr = true →
      (odHdr fr.bs).cmd = 2 →
      odMalformed (odHdr fr.bs) fr.bs = false →
      objKind (odHdr fr.bs).index = some k →
      s.od.badObjs.contains (odHdr fr.bs).index = false →
      objDesc k (odHdr fr.bs).sub = some d →
      d.acc = .ro ∨ d.acc = .const →
      Completes (.write fr e) s fun t =>
        t.outbox = [s.abortAnswer ((odHdr fr.bs).req fr.bus false fr.brs) 0x02000003] ∧ t.od = s.od ∧ t.hm = s.hm ∧ t.flash = s.flash ∧ (∀ a, a ≠ Reg.a_CAN_CNT fr.bus → t.reg a = s.reg a)) ∧
  (∀ (s : State) (fr : CanFrame) (e : ReadEvent) (k : ObjKind) (d : ObjDesc),
      fr.fd = true →
      s.serves fr = true →
      (odHdr fr.bs).cmd = 2 →
      odMalformed (odHdr fr.bs) fr.bs = false →
      objKind (odHdr fr.bs).index = some k →
      s.od.badObjs.contains (odHdr fr.bs).index = false →
      objDesc k (odHdr fr.bs).sub = some d →
      d.acc = .rw ∨ d.acc = .wo →
      pathRefused fr.bus k (odHdr fr.bs).sub = false →
      s.safeState = true →
      safeObject k (odHdr fr.bs).sub = false →
      Completes (.write fr e) s fun t =>
        t.outbox = [s.abortAnswer ((odHdr fr.bs).req fr.bus false fr.brs) 0x05000001] ∧ t.od = s.od ∧ t.hm = s.hm ∧ t.flash = s.flash ∧ (∀ a, a ≠ Reg.a_CAN_CNT fr.bus → t.reg a = s.reg a)) ∧
  (∀ (s : State) (fr : CanFrame) (e : ReadEvent) (k : ObjKind) (d : ObjDesc),
      fr.fd = true →
      s.serves fr = true →
      (odHdr fr.bs).cmd = 2 →
      odMalformed (odHdr fr.bs) fr.bs = false →
      objKind (odHdr fr.bs).index = some k →
      s.od.badObjs.contains (odHdr fr.bs).index = false →
      objDesc k (odHdr fr.bs).sub = some d →
      s.writeRefusal fr.bus k d (odHdr fr.bs).sub (odHdr fr.bs).len = none →
      d.auth = true →
      (odHdr fr.bs).auth = false →
      Completes (.write fr e) s fun t =>
        t.outbox = [s.abortAnswer ((odHdr fr.bs).req fr.bus false fr.brs) 0x03000003] ∧ t.od = s.od ∧ t.hm = s.hm ∧ t.flash = s.flash ∧ (∀ a, a ≠ Reg.a_CAN_CNT fr.bus → t.reg a = s.reg a)) ∧
  (∀ (s : State) (fr : CanFrame) (e : ReadEvent) (k : ObjKind) (d : ObjDesc),
      fr.fd = true →
      s.serves fr = true →
      (odHdr fr.bs).cmd = 2 →
      odMalformed (odHdr fr.bs) fr.bs = false →
      objKind (odHdr fr.bs).index = some k →
      s.od.badObjs.contains (odHdr fr.bs).index = false →
      objDesc k (odHdr fr.bs).sub = some d →
      s.writeRefusal fr.bus k d (odHdr fr.bs).sub (odHdr fr.bs).len = none →
      k ≠ .sync →
      (odHdr fr.bs).auth = true →
      s.streamKeyed 0 = true →
      s.streamMac 0 (leBytes 4 fr.id ++ fr.bs.take 8 ++ ((fr.bs.drop 8).take (odHdr fr.bs).len) ++ (odTrailer fr.bs (odHdr fr.bs).len).1) ≠ (odTrailer fr.bs (odHdr fr.bs).len).2 →
      Completes (.write fr e) s fun t =>
        t.outbox = [s.abortAnswer ((odHdr fr.bs).req fr.bus false fr.brs) 0x03000004] ∧ t.get Reg.OD_AUTH_STAT_MAC_FAIL = satAdd (s.get Reg.OD_AUTH_STAT_MAC_FAIL) 1 4095 ∧ (∀ j, j < 3 → t.get (Reg.OD_FLOOR_FLOOR j) = s.get (Reg.OD_FLOOR_FLOOR j)) ∧ t.od = s.od ∧ t.hm = s.hm ∧ t.flash = s.flash) ∧
  (∀ (s : State) (fr : CanFrame) (e : ReadEvent),
      fr.fd = true →
      s.serves fr = true →
      (odHdr fr.bs).cmd = 2 →
      odMalformed (odHdr fr.bs) fr.bs = false →
      (odHdr fr.bs).index = 0x0200 →
      (odHdr fr.bs).sub = 1 →
      s.od.badObjs.contains (odHdr fr.bs).index = false →
      s.safeState = false →
      (odHdr fr.bs).len = 1 →
      (odHdr fr.bs).auth = true →
      s.streamKeyed 0 = true →
      s.streamMac 0 (leBytes 4 fr.id ++ fr.bs.take 8 ++ ((fr.bs.drop 8).take (odHdr fr.bs).len) ++ (odTrailer fr.bs (odHdr fr.bs).len).1) = (odTrailer fr.bs (odHdr fr.bs).len).2 →
      1 ≤ s.pastFloor 0 (leNat (odTrailer fr.bs (odHdr fr.bs).len).1) →
      s.pastFloor 0 (leNat (odTrailer fr.bs (odHdr fr.bs).len).1) ≤ 65536 →
      1 ≤ leNat ((fr.bs.drop 8).take (odHdr fr.bs).len) →
      leNat ((fr.bs.drop 8).take (odHdr fr.bs).len) ≤ 127 →
      Completes (.write fr e) s fun t =>
        t.outbox = [s.answer fr.bus (odFrame 0x82 ((odHdr fr.bs).req fr.bus false fr.brs) ([])) fr.brs] ∧ SMap.get none t.flash.net 1 = some (leNat ((fr.bs.drop 8).take (odHdr fr.bs).len)) ∧ t.flash.netPending = true ∧ t.get (Reg.OD_FLOOR_FLOOR 0) = leNat (odTrailer fr.bs (odHdr fr.bs).len).1 ∧ t.get Reg.OD_CTRL_NODE = s.get Reg.OD_CTRL_NODE ∧ t.hm = s.hm) ∧
  (∀ (s : State) (fr : CanFrame) (e : ReadEvent) (u : Nat),
      fr.fd = true →
      s.serves fr = true →
      (odHdr fr.bs).cmd = 2 →
      odMalformed (odHdr fr.bs) fr.bs = false →
      (odHdr fr.bs).index = 0x1080 + u →
      (odHdr fr.bs).sub = 3 →
      u < 12 →
      s.od.badObjs.contains (odHdr fr.bs).index = false →
      s.safeState = false →
      (odHdr fr.bs).len = 1 →
      (odHdr fr.bs).auth = true →
      s.streamKeyed 0 = true →
      s.streamMac 0 (leBytes 4 fr.id ++ fr.bs.take 8 ++ ((fr.bs.drop 8).take (odHdr fr.bs).len) ++ (odTrailer fr.bs (odHdr fr.bs).len).1) = (odTrailer fr.bs (odHdr fr.bs).len).2 →
      1 ≤ s.pastFloor 0 (leNat (odTrailer fr.bs (odHdr fr.bs).len).1) →
      s.pastFloor 0 (leNat (odTrailer fr.bs (odHdr fr.bs).len).1) ≤ 65536 →
      leNat ((fr.bs.drop 8).take (odHdr fr.bs).len) = 1 →
      s.owner u = ownNone →
      Completes (.write fr e) s fun t =>
        t.outbox = [s.answer fr.bus (odFrame 0x82 ((odHdr fr.bs).req fr.bus false fr.brs) ([])) fr.brs] ∧ t.owner u = ownVehicle ∧ (∀ w, w < 17 → w ≠ u → t.owner w = s.owner w) ∧ t.get (Reg.OWN_GEN u) = (s.get (Reg.OWN_GEN u) + 1) % 65536 ∧ t.hm = s.hm) ∧
  (∀ (s : State) (fr : CanFrame) (e : ReadEvent) (p : Nat),
      fr.fd = true →
      s.serves fr = true →
      (odHdr fr.bs).cmd = 2 →
      odMalformed (odHdr fr.bs) fr.bs = false →
      (odHdr fr.bs).index = 0x2005 + 16 * p →
      (odHdr fr.bs).sub = 3 →
      p < 12 →
      s.od.badObjs.contains (odHdr fr.bs).index = false →
      s.safeState = false →
      (odHdr fr.bs).len = 4 →
      (odHdr fr.bs).auth = false →
      s.owner p = ownVehicle →
      Completes (.write fr e) s fun t =>
        t.outbox = [s.answer fr.bus (odFrame 0x82 ((odHdr fr.bs).req fr.bus false fr.brs) ([])) fr.brs] ∧ (SMap.get (0, 0, 0) t.od.fillSel p).2.2 = leNat ((fr.bs.drop 8).take (odHdr fr.bs).len) ∧ (∀ q, q ≠ p → SMap.get (0, 0, 0) t.od.fillSel q = SMap.get (0, 0, 0) s.od.fillSel q) ∧ t.hm = s.hm ∧ t.flash = s.flash ∧ (∀ a, a ≠ Reg.a_CAN_CNT fr.bus → t.reg a = s.reg a)) ∧
  (∀ (s : State) (fr : CanFrame) (e : ReadEvent) (p : Nat),
      fr.fd = true →
      s.serves fr = true →
      (odHdr fr.bs).cmd = 2 →
      odMalformed (odHdr fr.bs) fr.bs = false →
      (odHdr fr.bs).index = 0x2005 + 16 * p →
      (odHdr fr.bs).sub = 3 →
      p < 12 →
      s.od.badObjs.contains (odHdr fr.bs).index = false →
      s.safeState = false →
      (odHdr fr.bs).len = 4 →
      (odHdr fr.bs).auth = false →
      s.owner p ≠ ownVehicle →
      Completes (.write fr e) s fun t =>
        t.outbox = [s.abortAnswer ((odHdr fr.bs).req fr.bus false fr.brs) 0x03000001] ∧ t.od = s.od ∧ t.hm = s.hm ∧ t.flash = s.flash ∧ (∀ a, a ≠ Reg.a_CAN_CNT fr.bus → t.reg a = s.reg a)) ∧
  (∀ (s : State) (fr : CanFrame) (u : Nat),
      fr.fd = false →
      s.serves fr = true →
      fr.bs.length = 8 →
      (odHdr fr.bs).cmd = 1 →
      odMalformed (odHdr fr.bs) fr.bs = false →
      (odHdr fr.bs).auth = false →
      s.is Reg.OD_CTRL_CLASSIC_READ = true →
      (odHdr fr.bs).index = 0x1080 + u →
      u < 17 →
      (odHdr fr.bs).sub = 1 →
      s.od.badObjs.contains (odHdr fr.bs).index = false →
      Completes (.classicRead fr false) s fun t =>
        t.outbox = [.canFrame fr.bus s.responseId false ([0x81#8] ++ leBytes 1 (odHdr fr.bs).txn ++ leBytes 1 (s.owner u) ++ [0#8, 0#8, 0#8, 0#8, 0#8]) false] ∧ t.od = s.od ∧ t.hm = s.hm ∧ t.flash = s.flash ∧ (∀ a, a ≠ Reg.a_CAN_CNT fr.bus → t.reg a = s.reg a)) ∧
  (∀ (s : State) (fr : CanFrame),
      fr.fd = false →
      s.serves fr = true →
      fr.bs.length ≠ 8 ∨ (odHdr fr.bs).cmd ≠ 1 ∨ s.is Reg.OD_CTRL_CLASSIC_READ = false →
      Completes (.classicRead fr false) s fun t =>
        t.outbox = [] ∧ t.od = s.od ∧ t.hm = s.hm ∧ t.flash = s.flash ∧ (∀ a, a ≠ Reg.a_CAN_CNT fr.bus → t.reg a = s.reg a)) ∧
  (∀ (s : State) (fr : CanFrame) (e : ReadEvent),
      s.od.skewed = none →
      fr.id ≠ s.requestId →
      fr.id ≠ s.stateId →
      exec (.write fr e) s = .next ({ s with outbox := [] } : State).settled)

/-- SEG_READ_INIT of the part string answers its length and sends its one segment; the SEG_ACK of it is answered with SEG_END and the CRC-32C,
and the transfer is closed. SEG_WRITE_INIT with none open on the bus opens a write of the length given; with one open it is refused and
that one continues. SEG_DATA in order appends its bytes, and SEG_ACK answers the last one. SEG_END with the CRC of what arrived closes the
transfer and writes the object; a first wrong CRC is answered with RESEND and the transfer starts again; a second one ends it with abort
0x0100_0004 and OD_XFER. ABORT of its transaction closes the transfer; SEG_TIMEOUT ends an open one with abort 0x0100_0003 and does
nothing where none is open. No transfer of another bus changes. -/
def Obligations.SegmentedTransfersRun : Prop :=
  (∀ (s : State) (fr : CanFrame),
      fr.fd = true →
      s.serves fr = true →
      (odHdr fr.bs).cmd = 3 →
      odMalformed (odHdr fr.bs) fr.bs = false →
      (odHdr fr.bs).index = 0x0100 →
      (odHdr fr.bs).sub = 2 →
      s.od.badObjs.contains (odHdr fr.bs).index = false →
      (s.seg fr.bus) = none →
      (odHdr fr.bs).len = 0 →
      Completes (.segReadInit fr false) s fun t =>
        t.outbox = [s.answer fr.bus (odFrame 0x83 ((odHdr fr.bs).req fr.bus false fr.brs) (leBytes 4 8)) fr.brs, s.answer fr.bus (segHead 0x05 (odHdr fr.bs).txn 0 ++ strBytes "TD96-AQ2") fr.brs] ∧ t.seg fr.bus = some { write := false, txn := (odHdr fr.bs).txn, index := 0x0100, sub := 2, total := 8, data := strBytes "TD96-AQ2", seq := 1, brs := fr.brs } ∧ (∀ b, b ≠ fr.bus → t.seg b = s.seg b) ∧ t.hm = s.hm ∧ (∀ a, a ≠ Reg.a_CAN_CNT fr.bus → t.reg a = s.reg a)) ∧
  (∀ (s : State) (fr : CanFrame) (x : Seg),
      fr.fd = true →
      s.serves fr = true →
      (odHdr fr.bs).cmd = 133 →
      (s.seg fr.bus) = some x →
      x.write = false →
      x.txn = (odHdr fr.bs).txn →
      x.acked = 0 →
      x.seq = 1 →
      segCount fr.bus x = 1 →
      4 ≤ fr.bs.length →
      leNat ((fr.bs.drop 2).take 1) = 0 →
      Completes (.segAck fr) s fun t =>
        t.outbox = [s.answer fr.bus (odFrame 0x06 ⟨fr.bus, x.txn, x.index, x.sub, 0x06, false, x.brs⟩ (leBytes 4 (crc32c x.data))) x.brs] ∧ t.seg fr.bus = none ∧ (∀ b, b ≠ fr.bus → t.seg b = s.seg b) ∧ t.hm = s.hm ∧ (∀ a, a ≠ Reg.a_CAN_CNT fr.bus → t.reg a = s.reg a)) ∧
  (∀ (s : State) (fr : CanFrame) (k : ObjKind) (d : ObjDesc),
      fr.fd = true →
      s.serves fr = true →
      (odHdr fr.bs).cmd = 4 →
      odMalformed (odHdr fr.bs) fr.bs = false →
      objKind (odHdr fr.bs).index = some k →
      s.od.badObjs.contains (odHdr fr.bs).index = false →
      objDesc k (odHdr fr.bs).sub = some d →
      s.writeRefusal fr.bus k d (odHdr fr.bs).sub (leNat ((fr.bs.drop 8).take 4)) = none →
      (s.seg fr.bus) = none →
      Completes (.segWriteInit fr) s fun t =>
        t.outbox = [s.answer fr.bus (odFrame 0x84 ((odHdr fr.bs).req fr.bus false fr.brs) ([])) fr.brs] ∧ t.seg fr.bus = some { write := true, txn := (odHdr fr.bs).txn, index := (odHdr fr.bs).index, sub := (odHdr fr.bs).sub, total := leNat ((fr.bs.drop 8).take 4), brs := fr.brs } ∧ (∀ b, b ≠ fr.bus → t.seg b = s.seg b) ∧ t.hm = s.hm ∧ (∀ a, a ≠ Reg.a_CAN_CNT fr.bus → t.reg a = s.reg a)) ∧
  (∀ (s : State) (fr : CanFrame) (x : Seg),
      fr.fd = true →
      s.serves fr = true →
      (odHdr fr.bs).cmd = 4 →
      odMalformed (odHdr fr.bs) fr.bs = false →
      (s.seg fr.bus) = some x →
      Completes (.segWriteInit fr) s fun t =>
        t.outbox = [s.abortAnswer ((odHdr fr.bs).req fr.bus false fr.brs) 0x01000006] ∧ t.od = s.od ∧ t.hm = s.hm ∧ t.flash = s.flash ∧ (∀ a, a ≠ Reg.a_CAN_CNT fr.bus → t.reg a = s.reg a)) ∧
  (∀ (s : State) (fr : CanFrame) (x : Seg),
      fr.fd = true →
      s.serves fr = true →
      (odHdr fr.bs).cmd = 5 →
      (s.seg fr.bus) = some x →
      x.write = true →
      x.txn = (odHdr fr.bs).txn →
      leNat ((fr.bs.drop 2).take 1) = x.seq % 256 →
      (min 60 (x.total - x.data.length)) ≠ 0 →
      4 + (min 60 (x.total - x.data.length)) ≤ fr.bs.length →
      x.seq + 1 - x.acked ≠ 16 →
      x.data.length + (min 60 (x.total - x.data.length)) ≠ x.total →
      Completes (.segData fr) s fun t =>
        t.outbox = [] ∧ t.seg fr.bus = some { x with data := x.data ++ (fr.bs.drop 4).take (min 60 (x.total - x.data.length)), seq := x.seq + 1, gap := false } ∧ (∀ b, b ≠ fr.bus → t.seg b = s.seg b) ∧ t.hm = s.hm ∧ (∀ a, a ≠ Reg.a_CAN_CNT fr.bus → t.reg a = s.reg a)) ∧
  (∀ (s : State) (fr : CanFrame) (x : Seg),
      fr.fd = true →
      s.serves fr = true →
      (odHdr fr.bs).cmd = 5 →
      (s.seg fr.bus) = some x →
      x.write = true →
      x.txn = (odHdr fr.bs).txn →
      leNat ((fr.bs.drop 2).take 1) = x.seq % 256 →
      (min 60 (x.total - x.data.length)) ≠ 0 →
      4 + (min 60 (x.total - x.data.length)) ≤ fr.bs.length →
      x.data.length + (min 60 (x.total - x.data.length)) = x.total →
      Completes (.segData fr) s fun t =>
        t.outbox = [s.answer fr.bus (segHead 0x85 x.txn (x.seq % 256)) fr.brs] ∧ t.seg fr.bus = some { x with data := x.data ++ (fr.bs.drop 4).take (min 60 (x.total - x.data.length)), seq := x.seq + 1, acked := x.seq + 1, gap := false } ∧ (∀ b, b ≠ fr.bus → t.seg b = s.seg b) ∧ t.hm = s.hm ∧ (∀ a, a ≠ Reg.a_CAN_CNT fr.bus → t.reg a = s.reg a)) ∧
  (∀ (s : State) (fr : CanFrame) (x : Seg) (e : ReadEvent),
      fr.fd = true →
      s.serves fr = true →
      (odHdr fr.bs).cmd = 6 →
      odMalformed (odHdr fr.bs) fr.bs = false →
      (s.seg fr.bus) = some x →
      x.write = true →
      x.txn = (odHdr fr.bs).txn →
      x.data.length = x.total →
      leNat ((fr.bs.drop 8).take 4) = crc32c x.data →
      x.second = false →
      x.index = 0x3104 →
      x.sub = 1 →
      s.od.badObjs.contains 0x3104 = false →
      s.safeState = false →
      x.total ≤ 16 →
      (odHdr fr.bs).auth = false →
      ∀ b, b ∈ x.data → 0x20 ≤ b.toNat ∧ b.toNat ≤ 0x7E →
      Completes (.segEnd fr e) s fun t =>
        t.outbox = [s.answer fr.bus (odFrame 0x86 ((odHdr fr.bs).req fr.bus false fr.brs) ([])) fr.brs] ∧ t.seg fr.bus = none ∧ (t.sig 4).value = x.data ∧ (t.sig 4).ageAt = some s.now ∧ (∀ b, b ≠ fr.bus → t.seg b = s.seg b) ∧ t.hm = s.hm ∧ (∀ a, a ≠ Reg.a_CAN_CNT fr.bus → t.reg a = s.reg a)) ∧
  (∀ (s : State) (fr : CanFrame) (x : Seg) (e : ReadEvent),
      fr.fd = true →
      s.serves fr = true →
      (odHdr fr.bs).cmd = 6 →
      odMalformed (odHdr fr.bs) fr.bs = false →
      (s.seg fr.bus) = some x →
      x.write = true →
      x.txn = (odHdr fr.bs).txn →
      x.data.length = x.total →
      leNat ((fr.bs.drop 8).take 4) ≠ crc32c x.data →
      x.second = false →
      Completes (.segEnd fr e) s fun t =>
        t.outbox = [s.answer fr.bus (odFrame 0x88 ((odHdr fr.bs).req fr.bus false fr.brs) ([])) fr.brs] ∧ t.seg fr.bus = some { x with data := [], seq := 0, acked := 0, gap := false, second := true, inj := false } ∧ (∀ b, b ≠ fr.bus → t.seg b = s.seg b) ∧ t.hm = s.hm ∧ t.bc = s.bc ∧ (∀ a, a ≠ Reg.a_CAN_CNT fr.bus → t.reg a = s.reg a)) ∧
  (∀ (s : State) (fr : CanFrame) (x : Seg) (e : ReadEvent),
      fr.fd = true →
      s.serves fr = true →
      (odHdr fr.bs).cmd = 6 →
      odMalformed (odHdr fr.bs) fr.bs = false →
      (s.seg fr.bus) = some x →
      x.write = true →
      x.txn = (odHdr fr.bs).txn →
      x.data.length = x.total →
      leNat ((fr.bs.drop 8).take 4) ≠ crc32c x.data →
      x.second = true →
      Completes (.segEnd fr e) s fun t =>
        t.reported .OD_XFER ∧ s.abortAnswer ⟨fr.bus, x.txn, x.index, x.sub, 0x07, false, x.brs⟩ 0x01000004 ∈ t.outbox ∧ t.seg fr.bus = none ∧ (∀ b, b ≠ fr.bus → t.seg b = s.seg b) ∧ MemoryKept s t) ∧
  (∀ (s : State) (fr : CanFrame) (x : Seg),
      fr.fd = true →
      s.serves fr = true →
      (odHdr fr.bs).cmd = 7 →
      (s.seg fr.bus) = some x →
      x.txn = (odHdr fr.bs).txn →
      Completes (.odAbort fr) s fun t =>
        t.outbox = [] ∧ t.seg fr.bus = none ∧ (∀ b, b ≠ fr.bus → t.seg b = s.seg b) ∧ t.hm = s.hm ∧ (∀ a, a ≠ Reg.a_CAN_CNT fr.bus → t.reg a = s.reg a)) ∧
  (∀ (s : State) (b : Nat) (x : Seg),
      b < 2 →
      s.odRuns = true →
      s.canSends b = true →
      s.seg b = some x →
      Completes (.segTimeout b) s fun t =>
        t.outbox = [s.abortAnswer ⟨b, x.txn, x.index, x.sub, 0x07, false, x.brs⟩ 0x01000003] ∧ t.seg b = none ∧ (∀ c, c ≠ b → t.seg c = s.seg c) ∧ t.hm = s.hm ∧ ∀ a, a ≠ Reg.a_CAN_CNT b → t.reg a = s.reg a) ∧
  (∀ (s : State) (b : Nat),
      s.seg b = none →
      exec (.segTimeout b) s = .next ({ s with outbox := [] } : State).settled)

/-- A state frame that verifies under S1 with a fresh counter moves the floor of S1, sets the request of every tell-tale whose code is not
NO_REQUEST to its code and leaves the others, and clears SF_TIMEOUT; one whose MAC does not verify changes no request and no floor.
SF_TIMEOUT sets its status and source 203 while the engine runs. PROOF_FRAME with a usable key sends one frame on each bus, 64 bytes, and
advances the TX counter; without one it sends nothing. MGMT_DATA_SKEW with nothing waiting has no effect, and otherwise raises the fault
and ends the wait. CAN_BUSOFF puts a controller that is up off the bus, and a second time within 1 s raises CAN_BUSOFF; BUSOFF_RECOVERY
raises CAN_BUSOFF_RETRY and starts it error active with its counters 0; CAN_BUS_ERROR stores the counters and shows error passive from 128
on. OD_INJ arms what it writes. -/
def Obligations.TellTaleFramesAndBusErrors : Prop :=
  (∀ (s : State) (fr : CanFrame),
      fr.fd = true →
      fr.bs.length = 32 →
      fr.bus < 2 →
      s.odRuns = true →
      s.canUp fr.bus = true →
      s.od.skewed = none →
      fr.id = s.stateId →
      s.is Reg.OD_INJ_RAM = false →
      s.streamKeyed 1 = true →
      s.streamMac 1 (leBytes 4 fr.id ++ fr.bs.take 20) = (fr.bs.drop 20).take 8 →
      1 ≤ s.pastFloor 1 (leNat ((fr.bs.drop 16).take 4)) →
      s.pastFloor 1 (leNat ((fr.bs.drop 16).take 4)) ≤ 65536 →
      Completes (.stateFrame fr) s fun t =>
        (∀ i, i < 64 → t.get (Reg.TT_STATE_REQ i) = let c := leNat (fr.bs.take 16) / 4 ^ i % 4; if c = reqNone then s.get (Reg.TT_STATE_REQ i) else c) ∧ t.get (Reg.OD_FLOOR_FLOOR 1) = (leNat ((fr.bs.drop 16).take 4)) ∧ t.is Reg.OD_STATUS_SF_TIMEOUT = false ∧ (t.src 203).input = false ∧ t.hm = s.hm ∧ t.outbox = []) ∧
  (∀ (s : State) (fr : CanFrame),
      fr.fd = true →
      fr.bs.length = 32 →
      fr.bus < 2 →
      s.odRuns = true →
      s.canUp fr.bus = true →
      s.od.skewed = none →
      fr.id = s.stateId →
      s.is Reg.OD_INJ_RAM = false →
      s.streamKeyed 1 = true →
      s.streamMac 1 (leBytes 4 fr.id ++ fr.bs.take 20) ≠ (fr.bs.drop 20).take 8 →
      Completes (.stateFrame fr) s fun t =>
        (∀ i, i < 64 → t.get (Reg.TT_STATE_REQ i) = s.get (Reg.TT_STATE_REQ i)) ∧ t.get (Reg.OD_FLOOR_FLOOR 1) = s.get (Reg.OD_FLOOR_FLOOR 1) ∧ t.get Reg.OD_AUTH_STAT_MAC_FAIL = satAdd (s.get Reg.OD_AUTH_STAT_MAC_FAIL) 1 4095 ∧ t.bc = s.bc ∧ t.od = s.od ∧ t.hm = s.hm) ∧
  (∀ (s : State),
      s.odRuns = true →
      Completes (.sfTimeout) s fun t =>
        t.is Reg.OD_STATUS_SF_TIMEOUT = true ∧ (t.src 203).input = true ∧ t.od = s.od ∧ t.hm = s.hm ∧ ∀ a, a ≠ Reg.a_OD_STATUS → t.reg a = s.reg a) ∧
  (∀ (s : State),
      s.odRuns = true →
      s.is Reg.OD_SF_CFG_TX_EN = true →
      s.streamKeyed 3 = true →
      s.canSends 0 = true →
      s.canSends 1 = true →
      Completes (.proofFrame) s fun t =>
        (∃ x, x.length = 64 ∧ t.outbox = [.canFrame 0 s.proofId true x true, .canFrame 1 s.proofId true x true] ∧ x.take 44 = s.proofBytes ((s.od.txCtr + 1) % 2 ^ 32)) ∧ t.od.txCtr = (s.od.txCtr + 1) % 2 ^ 32 ∧ t.hm = s.hm) ∧
  (∀ (s : State),
      s.streamKeyed 3 = false →
      exec (.proofFrame) s = .next ({ s with outbox := [] } : State).settled) ∧
  (∀ (s : State),
      s.od.skewed = none →
      exec (.mgmtDataSkew) s = .next ({ s with outbox := [] } : State).settled) ∧
  (∀ (s : State) (q : OdReq) (g i : Bool),
      s.od.skewed = some (q, g, i) →
      s.od.inbox = [] →
      Completes (.mgmtDataSkew) s fun t =>
        t.reported .MGMT_DATA_SKEW ∧ t.od.skewed = none ∧ t.hm.mem = s.hm.mem) ∧
  (∀ (s : State) (n : Nat),
      n < 2 →
      s.canUp n = true →
      SMap.get 0 s.od.busOffAt n = 0 →
      Completes (.canBusoff n) s fun t =>
        t.get (Reg.CAN_STATUS_STATE n) = 2 ∧ t.canUp n = false ∧ (t.src (200 + n)).input = true ∧ t.fc = s.fc ∧ t.hm = s.hm ∧ (∀ a, a ≠ Reg.a_CAN_STATUS n → t.reg a = s.reg a)) ∧
  (∀ (s : State) (n : Nat) (w : Nat),
      n < 2 →
      s.canUp n = true →
      SMap.get 0 s.od.busOffAt n = w + 1 →
      s.now - w ≤ 1000 * msNs →
      Completes (.canBusoff n) s fun t =>
        t.get (Reg.CAN_STATUS_STATE n) = 2 ∧ t.reported .CAN_BUSOFF ∧ MemoryKept s t) ∧
  (∀ (s : State) (n : Nat),
      n < 2 →
      s.emb.main = true →
      s.get (Reg.CAN_STATUS_STATE n) = 2 →
      Completes (.busoffRecovery n) s fun t =>
        t.get (Reg.CAN_STATUS_STATE n) = 0 ∧ t.get (Reg.CAN_STATUS_TEC n) = 0 ∧ t.get (Reg.CAN_STATUS_REC n) = 0 ∧ (t.src (200 + n)).input = false ∧ t.reported .CAN_BUSOFF_RETRY ∧ MemoryKept s t) ∧
  (∀ (s : State) (n : Nat),
      s.get (Reg.CAN_STATUS_STATE n) ≠ 2 →
      exec (.busoffRecovery n) s = .next ({ s with outbox := [] } : State).settled) ∧
  (∀ (s : State) (n : Nat) (x y : Nat),
      n < 2 →
      s.canUp n = true →
      Completes (.canBusError n x y) s fun t =>
        t.get (Reg.CAN_STATUS_TEC n) = min 255 x ∧ t.get (Reg.CAN_STATUS_REC n) = min 255 y ∧ t.get (Reg.CAN_STATUS_STATE n) = (if 128 ≤ x ∨ 128 ≤ y then 1 else 0) ∧ (t.src (200 + n)).input = decide (128 ≤ x ∨ 128 ≤ y) ∧ t.od = s.od ∧ t.fc = s.fc ∧ t.hm = s.hm ∧ (∀ a, a ≠ Reg.a_CAN_STATUS n → t.reg a = s.reg a)) ∧
  (∀ (s : State) (o : Origin) (v : Word),
      s.accepts o (Reg.a_OD_INJ) v = true →
      Completes (.odInj o v) s fun t =>
        (∀ f : FRef, f ∈ [Reg.OD_INJ_XFER, Reg.OD_INJ_RAM, Reg.OD_INJ_SKEW, Reg.OD_INJ_STORE] → t.get f = s.get f ||| bits v.toNat f.hi f.lo) ∧ t.od = s.od ∧ t.hm = s.hm ∧ ∀ a, a ≠ Reg.a_OD_INJ → t.reg a = s.reg a)

/-- An accepted CLAIM of a unit whose owner is NONE, by a path that Table 01.4 permits, makes that path its owner; the unit's generation
advances, an OWNER_CHANGE record is appended and the result is 0. A CLAIM of an owned unit answers 1, of unit 12 or by a path not
permitted 2, and no owner changes. RELEASE by the owner leaves NONE, or FIRMWARE for the power policy; by another path it changes nothing,
and of unit 12 it answers 2. ASSIGN by the safety pair sets any permitted owner; a value not permitted answers 2. ASSIGN by another
requester is refused. Pending commits, buffers and memory stay as they are. -/
def Obligations.UnitsChangeOwnersByThreeRequests : Prop :=
  (∀ (s : State) (o : Origin) (u : Nat),
      u < 17 →
      s.accepts o (Reg.a_OWN u) (BitVec.ofNat 32 (1 * 256 + (s.get (Reg.OWN_ASSIGN_TO u)) * 4096)) = true →
      u ≠ 12 →
      ownPermitted u (originPath o) = true →
      s.owner u = ownNone →
      Completes (.claim o u) s fun t =>
        t.owner u = originPath o ∧ t.ownResult u (originPath o) = 0 ∧ t.get (Reg.OWN_GEN u) = (s.get (Reg.OWN_GEN u) + 1) % 65536 ∧ (∀ w, w ≠ u → w < 17 → t.owner w = s.owner w) ∧ ((s.src 202).fifo.length < 8 → (t.src 202).fifo = (s.src 202).fifo ++ [⟨0x61, u, s.orbit.stamp, (originPath o + 16 * originPath o) % 2 ^ 32⟩]) ∧ t.hm = s.hm ∧ t.pipes = s.pipes) ∧
  (∀ (s : State) (o : Origin) (u : Nat),
      u < 17 →
      s.accepts o (Reg.a_OWN u) (BitVec.ofNat 32 (1 * 256 + (s.get (Reg.OWN_ASSIGN_TO u)) * 4096)) = true →
      u ≠ 12 →
      ownPermitted u (originPath o) = true →
      s.owner u ≠ ownNone →
      Completes (.claim o u) s fun t =>
        t.ownResult u (originPath o) = 1 ∧ (∀ w, w < 17 → t.owner w = s.owner w) ∧ t.hm = s.hm ∧ t.pipes = s.pipes) ∧
  (∀ (s : State) (o : Origin) (u : Nat),
      u < 17 →
      s.accepts o (Reg.a_OWN u) (BitVec.ofNat 32 (1 * 256 + (s.get (Reg.OWN_ASSIGN_TO u)) * 4096)) = true →
      u = 12 ∨ ownPermitted u (originPath o) = false →
      Completes (.claim o u) s fun t =>
        t.ownResult u (originPath o) = 2 ∧ (∀ w, w < 17 → t.owner w = s.owner w) ∧ t.hm = s.hm ∧ t.pipes = s.pipes) ∧
  (∀ (s : State) (o : Origin) (u : Nat),
      u < 17 →
      s.accepts o (Reg.a_OWN u) (BitVec.ofNat 32 (2 * 256 + (s.get (Reg.OWN_ASSIGN_TO u)) * 4096)) = true →
      u ≠ 12 →
      s.owner u = originPath o →
      Completes (.ownRelease o u) s fun t =>
        t.owner u = (if u = 16 then ownFirmware else ownNone) ∧ t.ownResult u (originPath o) = 0 ∧ (∀ w, w ≠ u → w < 17 → t.owner w = s.owner w) ∧ t.hm = s.hm ∧ t.pipes = s.pipes) ∧
  (∀ (s : State) (o : Origin) (u : Nat),
      u < 17 →
      s.accepts o (Reg.a_OWN u) (BitVec.ofNat 32 (2 * 256 + (s.get (Reg.OWN_ASSIGN_TO u)) * 4096)) = true →
      u = 12 ∨ s.owner u ≠ originPath o →
      Completes (.ownRelease o u) s fun t =>
        t.ownResult u (originPath o) = (if u = 12 then 2 else 1) ∧ (∀ w, w < 17 → t.owner w = s.owner w) ∧ t.hm = s.hm ∧ t.pipes = s.pipes) ∧
  (∀ (s : State) (o : Origin) (u : Nat) (w : Nat),
      u < 17 →
      o = .sp →
      s.accepts o (Reg.a_OWN u) (BitVec.ofNat 32 (3 * 256 + (w % 4) * 4096)) = true →
      ownPermitted u (w % 4) = true →
      Completes (.assign o u w) s fun t =>
        t.owner u = w % 4 ∧ t.get (Reg.OWN_ASSIGN_TO u) = w % 4 ∧ t.ownResult u (originPath o) = 0 ∧ (∀ w, w ≠ u → w < 17 → t.owner w = s.owner w) ∧ t.hm = s.hm ∧ t.pipes = s.pipes) ∧
  (∀ (s : State) (o : Origin) (u : Nat) (w : Nat),
      u < 17 →
      o = .sp →
      s.accepts o (Reg.a_OWN u) (BitVec.ofNat 32 (3 * 256 + (w % 4) * 4096)) = true →
      ownPermitted u (w % 4) = false →
      Completes (.assign o u w) s fun t =>
        t.ownResult u (originPath o) = 2 ∧ (∀ w, w < 17 → t.owner w = s.owner w) ∧ t.hm = s.hm ∧ t.pipes = s.pipes) ∧
  (∀ (s : State) (o : Origin) (u : Nat) (w : Nat),
      u < 17 →
      isHostPath o = true →
      s.accepts o (Reg.a_OWN u) (BitVec.ofNat 32 (3 * 256 + (w % 4) * 4096)) = true →
      Completes (.assign o u w) s fun t =>
        t.reported .ACC_REFUSED ∧ (∀ x, x < 17 → t.owner x = s.owner x) ∧ MemoryKept s t)

/-- An accepted request by the owner of unit 16 with every pipe STOPPED starts the entry: the sessions are closed, the link is DOWN, the
floors are saved; else RESULT is 1 or 2 and the entry does not start. When the state is reached the main domain is in reset and no
register is reached, PMIC_EN is low, RET_EN is high for SMOULDER alone; EMBER loses Hearth. PGOOD_STUCK is recorded. A selected wake input
starts a wake from a parked state, is remembered during entry, and is otherwise no wake. PGOOD_RISE, MAIN_RESET_RELEASE, an unrequested
PGOOD_LOST, RESET_N and the Ember supplies act as stated: a release starts PLLs 12 to 14, sets the sources of a wake pending, and takes up
a retained Hearth with its handles; a PGOOD loss loses Hearth, sets PGOOD_LOST and pulls FAULT_N; RESET_N clears the log and keeps the
service SRAM; the loss of the supplies also resets the EMBER block; power-on restarts the floors at their saved values plus 4,096. -/
def Obligations.PowerStatesAreEnteredAndLeft : Prop :=
  (∀ (s : State) (o : Origin),
      s.accepts o (Reg.a_PWR_STATE) 0x100#32 = true →
      ∀ p, p < 12 → s.mode p = .stopped →
      s.owner 16 = originPath o →
      s.is Reg.PWR_STATE_BUSY = false →
      Completes (.smoulderRequest o) s fun t =>
        t.get Reg.PWR_STATE_STATE = 2 ∧ t.is Reg.PWR_STATE_BUSY = true ∧ t.get Reg.PWR_STATE_RESULT = 0 ∧ t.emb.target = 1 ∧ t.get Reg.AK_STATUS_STATE = 0 ∧
        (∀ i, i < 16 → t.get (Reg.DS_STATUS_STATE i) = 0) ∧ (∀ i, i < 12 → t.get (Reg.ES_STATUS_STATE i) = 0) ∧ (∀ k, k < 3 → SMap.get 0 t.flash.floors k = s.get (Reg.OD_FLOOR_FLOOR k)) ∧
        t.get Reg.EMB_FILTER_FSYNC_EDGE = s.get Reg.ORB_CTRL_FSYNC_EDGE ∧ MemoryKept s t) ∧
  (∀ (s : State) (o : Origin) (p : Nat),
      s.accepts o (Reg.a_PWR_STATE) 0x100#32 = true →
      p < 12 →
      s.mode p ≠ .stopped →
      Completes (.smoulderRequest o) s fun t =>
        t.get Reg.PWR_STATE_RESULT = 1 ∧ t.get Reg.PWR_STATE_STATE = s.get Reg.PWR_STATE_STATE ∧ t.emb = s.emb ∧ t.pipes = s.pipes ∧ t.hm = s.hm) ∧
  (∀ (s : State) (o : Origin),
      s.accepts o (Reg.a_PWR_STATE) 0x100#32 = true →
      ∀ p, p < 12 → s.mode p = .stopped →
      s.owner 16 ≠ originPath o →
      Completes (.smoulderRequest o) s fun t =>
        t.get Reg.PWR_STATE_RESULT = 2 ∧ t.get Reg.PWR_STATE_STATE = s.get Reg.PWR_STATE_STATE ∧ t.emb = s.emb ∧ t.hm = s.hm) ∧
  (∀ (s : State) (o : Origin),
      s.accepts o (Reg.a_PWR_STATE) 0x200#32 = true →
      ∀ p, p < 12 → s.mode p = .stopped →
      s.owner 16 = originPath o →
      s.is Reg.PWR_STATE_BUSY = false →
      Completes (.emberRequest o) s fun t =>
        t.get Reg.PWR_STATE_STATE = 2 ∧ t.is Reg.PWR_STATE_BUSY = true ∧ t.get Reg.PWR_STATE_RESULT = 0 ∧ t.emb.target = 2 ∧ t.get Reg.AK_STATUS_STATE = 0 ∧
        (∀ i, i < 16 → t.get (Reg.DS_STATUS_STATE i) = 0) ∧ (∀ i, i < 12 → t.get (Reg.ES_STATUS_STATE i) = 0) ∧ (∀ k, k < 3 → SMap.get 0 t.flash.floors k = s.get (Reg.OD_FLOOR_FLOOR k)) ∧
        t.get Reg.EMB_FILTER_FSYNC_EDGE = s.get Reg.ORB_CTRL_FSYNC_EDGE ∧ MemoryKept s t) ∧
  (∀ (s : State) (o : Origin) (p : Nat),
      s.accepts o (Reg.a_PWR_STATE) 0x200#32 = true →
      p < 12 →
      s.mode p ≠ .stopped →
      Completes (.emberRequest o) s fun t =>
        t.get Reg.PWR_STATE_RESULT = 1 ∧ t.get Reg.PWR_STATE_STATE = s.get Reg.PWR_STATE_STATE ∧ t.emb = s.emb ∧ t.pipes = s.pipes ∧ t.hm = s.hm) ∧
  (∀ (s : State) (o : Origin),
      s.accepts o (Reg.a_PWR_STATE) 0x200#32 = true →
      ∀ p, p < 12 → s.mode p = .stopped →
      s.owner 16 ≠ originPath o →
      Completes (.emberRequest o) s fun t =>
        t.get Reg.PWR_STATE_RESULT = 2 ∧ t.get Reg.PWR_STATE_STATE = s.get Reg.PWR_STATE_STATE ∧ t.emb = s.emb ∧ t.hm = s.hm) ∧
  (∀ (s : State),
      s.emb.target ≠ 0 →
      s.emb.waking = false →
      s.emb.parked = false →
      s.emb.main = true →
      s.emb.seen = 0 →
      Completes (.powerStateReached) s fun t =>
        t.emb.main = false ∧ t.emb.parked = true ∧ t.emb.pmicEn = false ∧ (t.emb.retEn = true ↔ s.emb.target = 1) ∧ (∀ o r, t.reaches o r = false) ∧ (s.emb.target ≠ 1 → t.hm = {}) ∧ (s.emb.target = 1 → t.emb.retained = s.hmReady) ∧ t.flash = s.flash) ∧
  (∀ (s : State),
      s.emb.target ≠ 0 →
      s.emb.waking = false →
      s.emb.parked = false →
      s.emb.main = true →
      s.emb.seen ≠ 0 →
      Completes (.powerStateReached) s fun t =>
        t.emb.main = false ∧ t.emb.waking = true ∧ t.emb.pmicEn = true ∧ t.emb.retEn = true ∧ t.get Reg.EMB_WAKE_SEEN_SEEN = s.emb.seen % 64 ∧ t.kin.cause = s.emb.target ∧ (∀ o r, t.reaches o r = false)) ∧
  (∀ (s : State),
      s.emb.target = 0 →
      exec (.powerStateReached) s = .next ({ s with outbox := [] } : State).settled) ∧
  (∀ (s : State),
      s.emb.target ≠ 0 →
      s.emb.parked = false →
      Completes (.pgoodStuck) s fun t =>
        t.is Reg.EMB_STATUS_PGOOD_STUCK = true ∧ t.emb.main = false ∧ t.emb.parked = true ∧ t.flash = s.flash) ∧
  (∀ (s : State) (m : Nat),
      s.emb.target ≠ 0 →
      s.emb.resetN = true →
      s.emb.supply = true →
      s.emb.waking = false →
      s.emb.parked = true →
      (m % 64 &&& s.get Reg.EMB_WAKE_MASK_MASK) ≠ 0 →
      Completes (.wake m) s fun t =>
        t.get Reg.EMB_WAKE_SEEN_SEEN = (m % 64 &&& s.get Reg.EMB_WAKE_MASK_MASK) ∧ t.get Reg.EMB_STATUS_WOKE_FROM = s.emb.target % 4 ∧ t.is Reg.EMB_STATUS_RETAINED = s.emb.retained ∧ t.emb.pmicEn = true ∧ t.emb.retEn = true ∧ t.emb.waking = true ∧ t.kin.cause = s.emb.target ∧ t.kin.phase = 0 ∧ t.hm = s.hm) ∧
  (∀ (s : State) (m : Nat),
      s.emb.target ≠ 0 →
      s.emb.resetN = true →
      s.emb.supply = true →
      s.emb.waking = false →
      s.emb.parked = false →
      Completes (.wake m) s fun t =>
        t.emb = { s.emb with seen := s.emb.seen ||| (m % 64 &&& s.get Reg.EMB_WAKE_MASK_MASK) } ∧ t.regs = s.regs ∧ t.hm = s.hm) ∧
  (∀ (s : State) (m : Nat),
      (m % 64 &&& s.get Reg.EMB_WAKE_MASK_MASK) = 0 ∨ s.emb.target = 0 ∨ s.emb.resetN = false →
      exec (.wake m) s = .next ({ s with outbox := [] } : State).settled) ∧
  (∀ (s : State),
      s.emb.pgood = false →
      s.emb.pmicEn = true →
      Completes (.pgoodRise) s fun t =>
        t.emb = { s.emb with pgood := true } ∧ t.regs = s.regs ∧ t.hm = s.hm ∧ (s.kin.cause ≠ 0 → t.kin = s.kin)) ∧
  (∀ (s : State),
      s.emb.pgood = true ∨ s.emb.pmicEn = false →
      exec (.pgoodRise) s = .next ({ s with outbox := [] } : State).settled) ∧
  (∀ (s : State) (b : Nat),
      s.emb.main = false →
      s.emb.pgood = true →
      s.emb.pmicEn = true →
      s.emb.resetN = true →
      s.emb.supply = true →
      (s.src 190).active = false →
      s.emb.retained = false →
      Completes (.mainResetRelease b) s fun t =>
        t.emb.main = true ∧ t.get Reg.AK_STATUS_STATE = 0 ∧ (t.src 190).pend = true ∧ (∀ i, i = 12 ∨ i = 13 ∨ i = 14 → t.get (Reg.PLL_STATUS_STATE i) = 1) ∧
        ((s.kin.cause = 1 ∨ s.kin.cause = 2) → ∀ j, j < 6 → bit (s.get Reg.EMB_WAKE_SEEN_SEEN) j = true → (t.src (216 + j)).pend = true) ∧ (s.kin.cause = 3 → t.safeState = true) ∧ t.sram = s.sram ∧ t.hm = s.hm) ∧
  (∀ (s : State) (b : Nat) (hs : List (Nat × Handle)),
      s.emb.main = false →
      s.emb.pgood = true →
      s.emb.pmicEn = true →
      s.emb.resetN = true →
      s.emb.supply = true →
      s.emb.retained = true →
      s.hm.metaCopies = [(true, hs), (true, hs)] →
      b % 4 = 0 →
      s.hm.heldAcc = [] →
      Completes (.mainResetRelease b) s fun t =>
        t.emb.main = true ∧ t.emb.retained = false ∧ t.hmReady = true ∧ t.hm.handles = hs.map (fun e => (e.1, e.2.restored)) ∧ t.get Reg.HM_STATUS_FENCED = s.emb.fences % 256 ∧ (∀ i, i = 12 ∨ i = 13 ∨ i = 14 → t.get (Reg.PLL_STATUS_STATE i) = 1) ∧ t.sram = s.sram ∧ t.hm.mem = s.hm.mem) ∧
  (∀ (s : State) (b : Nat),
      s.emb.main = true ∨ s.emb.pgood = false ∨ s.emb.resetN = false →
      exec (.mainResetRelease b) s = .next ({ s with outbox := [] } : State).settled) ∧
  (∀ (s : State),
      s.emb.pgood = true →
      s.emb.main = true →
      s.emb.target = 0 →
      Completes (.pgoodLost) s fun t =>
        t.emb.main = false ∧ t.is Reg.EMB_STATUS_PGOOD_LOST = true ∧ t.emb.pmicEn = false ∧ t.emb.retEn = false ∧ t.emb.target = 2 ∧ t.kin.pgoodLoss = true ∧ (s.emb.supply = true → t.pins.faultLow = true) ∧ t.hm = {} ∧ t.flash = s.flash ∧ (∀ o r, t.reaches o r = false)) ∧
  (∀ (s : State),
      s.emb.resetN = true →
      s.emb.supply = true →
      Completes (.resetNAssert) s fun t =>
        t.emb.main = false ∧ t.emb.resetN = false ∧ t.fc.log = [] ∧ t.hm = {} ∧ t.sram = s.sram ∧ t.flash = s.flash ∧ (∀ k, k < 3 → t.get (Reg.OD_FLOOR_FLOOR k) = s.get (Reg.OD_FLOOR_FLOOR k)) ∧ (∀ p, p < 12 → t.mode p = .stopped) ∧ (∀ o r, t.reaches o r = false)) ∧
  (∀ (s : State),
      s.emb.resetN = false →
      s.emb.supply = true →
      Completes (.resetNRelease) s fun t =>
        t.emb.resetN = true ∧ t.emb.pmicEn = true ∧ t.emb.retEn = true ∧ t.kin.cause = 0 ∧ t.regs = s.regs ∧ t.hm = s.hm ∧ t.flash = s.flash) ∧
  (∀ (s : State),
      s.emb.supply = true →
      Completes (.emberSupplyLoss) s fun t =>
        t.emb.supply = false ∧ t.emb.main = false ∧ (∀ a, isEmberReg a = true → t.reg a = regReset a) ∧ t.hm = {} ∧ t.sram = [] ∧ t.flash = s.flash ∧ (∀ o r, t.reaches o r = false)) ∧
  (∀ (s : State),
      s.emb.supply = false →
      Completes (.emberPowerOn) s fun t =>
        t.emb.supply = true ∧ t.emb.pmicEn = true ∧ t.emb.retEn = true ∧ t.kin.cause = 0 ∧ (∀ k, k < 3 → t.get (Reg.OD_FLOOR_FLOOR k) = (SMap.get 0 s.flash.floors k + 4096) % 2 ^ 32) ∧ t.flash = s.flash) ∧
  (∀ (s : State),
      s.emb.supply = true →
      Completes (.crystalStable) s fun t =>
        t.emb = { s.emb with crystal := true } ∧ t.regs = s.regs ∧ t.hm = s.hm)

/-- An accepted PWR_BUDGET write stores the tokens limited to 64 to 288, leaves the budget in force, and shows throttling exactly when the
thermal limit is below them. TH_SENSOR_READ with no injection stores every reading; with all sixteen sensors plausible they are all valid
and Tj is the highest reading, and a reading of 122 °C reports TH_CRIT and brings the safe state; a sensor that stops being plausible is
marked invalid and reported. AVS_PERIOD while the loop is stopped or the CORE PLL not locked has no effect; otherwise the target rises by
10 mV below MLO, falls by 5 mV at the eighth period above MHI, and else holds, within 650 to 850 mV; a failed first exchange that succeeds
at the second is AVS_BUS_RETRY, two failures stop the loop with AVS_BUS, and a margin below 10 ps at 850 mV is AVS_MARGIN and the safe
state. PWR_INJ arms what it writes. -/
def Obligations.BudgetSensorsAndSupplyFollow : Prop :=
  (∀ (s : State) (o : Origin) (v : Word),
      s.accepts o (Reg.a_PWR_BUDGET) v = true →
      Completes (.pwrBudgetWrite o v) s fun t =>
        t.get Reg.PWR_BUDGET_TOKENS = (min 288 (max 64 (bits v.toNat 8 0))) ∧ t.get Reg.PWR_STATUS_IN_FORCE = s.get Reg.PWR_STATUS_IN_FORCE ∧ (t.is Reg.PWR_STATUS_THROTTLE = true ↔ s.get Reg.PWR_STATUS_THERMAL_LIMIT < (min 288 (max 64 (bits v.toNat 8 0)))) ∧ (t.src 205).input = decide (s.get Reg.PWR_STATUS_THERMAL_LIMIT < (min 288 (max 64 (bits v.toNat 8 0)))) ∧ t.orbit = s.orbit ∧ t.hm = s.hm ∧ ∀ a, a ≠ Reg.a_PWR_BUDGET → a ≠ Reg.a_PWR_STATUS → (∀ u, a ≠ Reg.a_OWN u) → t.reg a = s.reg a) ∧
  (∀ (s : State) (ts : List Int) (x : Int) (n : Nat),
      s.is Reg.PWR_INJ_SENSOR = false →
      s.is Reg.PWR_INJ_CRIT = false →
      validAt ts none = rangeFrom 0 16 →
      hottest ts (rangeFrom 0 16) = some (x, n) →
      x < 488 →
      s.fc.conds.contains FaultId.TH_CRIT.code = false →
      Completes (.thSensorRead ts) s fun t =>
        t.get Reg.TH_VALID_VALID = 65535 ∧ (∀ i, i < 16 → sext (t.get (Reg.TH_SENSOR_TEMP i)) 16 = ts.getD i 0) ∧ sext (t.get Reg.TH_STATUS_TJ) 16 = x ∧ t.get Reg.TH_STATUS_HOT = n ∧ t.fc.log = s.fc.log ∧ t.get Reg.PWR_STATUS_THERMAL_LIMIT = s.get Reg.PWR_STATUS_THERMAL_LIMIT ∧ t.hm = s.hm) ∧
  (∀ (s : State) (ts : List Int) (x : Int) (n : Nat),
      s.is Reg.PWR_INJ_SENSOR = false →
      s.is Reg.PWR_INJ_CRIT = false →
      validAt ts none = rangeFrom 0 16 →
      hottest ts (rangeFrom 0 16) = some (x, n) →
      488 ≤ x →
      s.fc.conds.contains FaultId.TH_CRIT.code = false →
      Completes (.thSensorRead ts) s fun t =>
        t.reported .TH_CRIT ∧ t.safeState = true ∧ MemoryKept s t) ∧
  (∀ (s : State) (ts : List Int) (i : Nat),
      s.is Reg.PWR_INJ_SENSOR = false →
      s.is Reg.PWR_INJ_CRIT = false →
      i < 16 →
      bit (s.get Reg.TH_VALID_VALID) i = true →
      (validAt ts none).contains i = false →
      Completes (.thSensorRead ts) s fun t =>
        t.reported .TH_SENSOR ∧ bit (t.get Reg.TH_VALID_VALID) i = false ∧ MemoryKept s t) ∧
  (∀ (s : State) (m : Nat) (r1 r2 : Option Nat),
      s.pwr.avsStopped = true ∨ s.pllLocked 12 = false →
      exec (.avsPeriod m r1 r2) s = .next ({ s with outbox := [] } : State).settled) ∧
  (∀ (s : State) (m : Nat) (r1 r2 : Option Nat),
      s.pwr.avsStopped = false →
      s.pllLocked 12 = true →
      s.is Reg.PWR_INJ_MARGIN = false →
      s.pwr.avsInj = 0 →
      10 ≤ m →
      m < s.get Reg.AVS_CFG_MLO →
      avsGood r1 (min 850 (s.get Reg.AVS_STATUS_TARGET_MV + 10)) = true →
      Completes (.avsPeriod m r1 r2) s fun t =>
        t.get Reg.AVS_STATUS_TARGET_MV = min 850 (s.get Reg.AVS_STATUS_TARGET_MV + 10) ∧ t.get Reg.AVS_STATUS_MARGIN = min 255 m ∧ t.fc = s.fc ∧ t.pwr.avsStopped = false ∧ t.hm = s.hm) ∧
  (∀ (s : State) (m : Nat) (r1 r2 : Option Nat),
      s.pwr.avsStopped = false →
      s.pllLocked 12 = true →
      s.is Reg.PWR_INJ_MARGIN = false →
      s.pwr.avsInj = 0 →
      10 ≤ m →
      s.get Reg.AVS_CFG_MLO ≤ m →
      m ≤ (if s.get Reg.AVS_CFG_MHI ≤ s.get Reg.AVS_CFG_MLO then s.get Reg.AVS_CFG_MLO + 1 else s.get Reg.AVS_CFG_MHI) →
      avsGood r1 (s.get Reg.AVS_STATUS_TARGET_MV) = true →
      Completes (.avsPeriod m r1 r2) s fun t =>
        t.get Reg.AVS_STATUS_TARGET_MV = s.get Reg.AVS_STATUS_TARGET_MV ∧ t.pwr.easy = 0 ∧ t.fc = s.fc ∧ t.pwr.avsStopped = false ∧ t.hm = s.hm) ∧
  (∀ (s : State) (m : Nat) (r1 r2 : Option Nat),
      s.pwr.avsStopped = false →
      s.pllLocked 12 = true →
      s.is Reg.PWR_INJ_MARGIN = false →
      s.pwr.avsInj = 0 →
      10 ≤ m →
      s.get Reg.AVS_CFG_MLO ≤ m →
      (if s.get Reg.AVS_CFG_MHI ≤ s.get Reg.AVS_CFG_MLO then s.get Reg.AVS_CFG_MLO + 1 else s.get Reg.AVS_CFG_MHI) < m →
      s.pwr.easy + 1 = 8 →
      avsGood r1 (max 650 (s.get Reg.AVS_STATUS_TARGET_MV - 5)) = true →
      Completes (.avsPeriod m r1 r2) s fun t =>
        t.get Reg.AVS_STATUS_TARGET_MV = max 650 (s.get Reg.AVS_STATUS_TARGET_MV - 5) ∧ t.pwr.easy = 0 ∧ t.fc = s.fc ∧ t.pwr.avsStopped = false ∧ t.hm = s.hm) ∧
  (∀ (s : State) (m : Nat) (r1 r2 : Option Nat),
      s.pwr.avsStopped = false →
      s.pllLocked 12 = true →
      s.is Reg.PWR_INJ_MARGIN = false →
      s.pwr.avsInj = 0 →
      10 ≤ m →
      s.get Reg.AVS_CFG_MLO ≤ m →
      (if s.get Reg.AVS_CFG_MHI ≤ s.get Reg.AVS_CFG_MLO then s.get Reg.AVS_CFG_MLO + 1 else s.get Reg.AVS_CFG_MHI) < m →
      s.pwr.easy + 1 ≠ 8 →
      avsGood r1 (s.get Reg.AVS_STATUS_TARGET_MV) = true →
      Completes (.avsPeriod m r1 r2) s fun t =>
        t.get Reg.AVS_STATUS_TARGET_MV = s.get Reg.AVS_STATUS_TARGET_MV ∧ t.pwr.easy = s.pwr.easy + 1 ∧ t.fc = s.fc ∧ t.pwr.avsStopped = false ∧ t.hm = s.hm) ∧
  (∀ (s : State) (m : Nat) (r1 r2 : Option Nat),
      s.pwr.avsStopped = false →
      s.pllLocked 12 = true →
      s.is Reg.PWR_INJ_MARGIN = false →
      s.pwr.avsInj = 0 →
      10 ≤ m →
      s.get Reg.AVS_CFG_MLO ≤ m →
      m ≤ (if s.get Reg.AVS_CFG_MHI ≤ s.get Reg.AVS_CFG_MLO then s.get Reg.AVS_CFG_MLO + 1 else s.get Reg.AVS_CFG_MHI) →
      avsGood r1 (s.get Reg.AVS_STATUS_TARGET_MV) = false →
      avsGood r2 (s.get Reg.AVS_STATUS_TARGET_MV) = true →
      Completes (.avsPeriod m r1 r2) s fun t =>
        t.reported .AVS_BUS_RETRY ∧ t.get Reg.AVS_STATUS_TARGET_MV = s.get Reg.AVS_STATUS_TARGET_MV ∧ t.pwr.avsStopped = false ∧ MemoryKept s t) ∧
  (∀ (s : State) (m : Nat) (r1 r2 : Option Nat),
      s.pwr.avsStopped = false →
      s.pllLocked 12 = true →
      s.is Reg.PWR_INJ_MARGIN = false →
      s.pwr.avsInj = 0 →
      10 ≤ m →
      s.get Reg.AVS_CFG_MLO ≤ m →
      m ≤ (if s.get Reg.AVS_CFG_MHI ≤ s.get Reg.AVS_CFG_MLO then s.get Reg.AVS_CFG_MLO + 1 else s.get Reg.AVS_CFG_MHI) →
      avsGood r1 (s.get Reg.AVS_STATUS_TARGET_MV) = false →
      avsGood r2 (s.get Reg.AVS_STATUS_TARGET_MV) = false →
      Completes (.avsPeriod m r1 r2) s fun t =>
        t.reported .AVS_BUS ∧ t.get Reg.AVS_STATUS_TARGET_MV = s.get Reg.AVS_STATUS_TARGET_MV ∧ t.pwr.avsStopped = true ∧ MemoryKept s t) ∧
  (∀ (s : State) (m : Nat) (r1 r2 : Option Nat),
      s.pwr.avsStopped = false →
      s.pllLocked 12 = true →
      m < 10 →
      s.get Reg.AVS_STATUS_TARGET_MV = 850 →
      Completes (.avsPeriod m r1 r2) s fun t =>
        t.reported .AVS_MARGIN ∧ t.safeState = true ∧ MemoryKept s t) ∧
  (∀ (s : State) (o : Origin) (v : Word),
      s.accepts o (Reg.a_PWR_INJ) v = true →
      Completes (.pwrInj o v) s fun t =>
        (∀ f : FRef, f ∈ [Reg.PWR_INJ_ARB, Reg.PWR_INJ_SENSOR, Reg.PWR_INJ_AVS, Reg.PWR_INJ_MARGIN, Reg.PWR_INJ_CRIT] → t.get f = s.get f ||| bits v.toNat f.hi f.lo) ∧ t.get Reg.PWR_INJ_SEL = bits v.toNat 11 8 ∧ t.hm = s.hm ∧ ∀ a, a ≠ Reg.a_PWR_INJ → t.reg a = s.reg a)

/-- A step of Kindling with the main domain in reset, the safety pair held, the list ended, or the warm Kindling stopped by a fault has no
effect. With no Kindling image and no good package in flash it ends FAILED and recovery is active. An entry that addresses the AKNUM,
CLOCK or SECURITY block, or an unknown directive, ends it FAILED with no register changed. END ends the list; an ASSIGN entry sets a
permitted owner; an entry with the address of FW_VERSION writes it. KINDLING_DONE with the list ended and every started pipe counting
frames shows phase 4 and, for a warm Kindling, ends the safe state; a PGOOD loss before it is then reported; the rollback floor never
falls; otherwise it has no effect. -/
def Obligations.KindlingRunsItsList : Prop :=
  (∀ (s : State) (bad : List Nat),
      s.emb.main = false ∨ s.kin.halted = true ∨ s.is Reg.FC_STATUS_PAIR_HELD = true ∨ s.kin.ended = true →
      exec (.kindlingConfig bad) s = .next ({ s with outbox := [] } : State).settled) ∧
  (∀ (s : State) (bad : List Nat),
      s.emb.main = true →
      s.kin.halted = false →
      s.is Reg.FC_STATUS_PAIR_HELD = false →
      s.kin.ended = false →
      s.kin.phase = 0 →
      s.kindlingImage = none →
      packageCheck (s.flashRead 0) slotBytes (s.get Reg.SEC_STATUS_ROLLBACK) ≠ 1 →
      packageCheck (s.flashRead 1) slotBytes (s.get Reg.SEC_STATUS_ROLLBACK) ≠ 1 →
      Completes (.kindlingConfig bad) s fun t =>
        t.kin.phase = 5 ∧ t.kin.ended = true ∧ t.is Reg.SEC_RECOVER_ACTIVE = true ∧ t.flash = s.flash ∧ t.hm = s.hm ∧ t.sram = s.sram ∧ ∀ a, a ≠ Reg.a_SEC_RECOVER → t.reg a = s.reg a) ∧
  (∀ (s : State) (bad : List Nat),
      s.emb.main = true →
      s.kin.halted = false →
      s.is Reg.FC_STATUS_PAIR_HELD = false →
      s.kin.ended = false →
      s.kin.phase ≠ 0 →
      s.kin.phase < 4 →
      s.kin.wait = .none →
      s.kin.pos < s.kinCount →
      kinBarred (s.kinWord s.kin.pos 0) = true →
      Completes (.kindlingConfig bad) s fun t =>
        t.kin.phase = 5 ∧ t.kin.ended = true ∧ t.regs = s.regs ∧ t.hm = s.hm ∧ t.pipes = s.pipes) ∧
  (∀ (s : State) (bad : List Nat),
      s.emb.main = true →
      s.kin.halted = false →
      s.is Reg.FC_STATUS_PAIR_HELD = false →
      s.kin.ended = false →
      s.kin.phase ≠ 0 →
      s.kin.phase < 4 →
      s.kin.wait = .none →
      s.kin.pos < s.kinCount →
      7 ≤ s.kinWord s.kin.pos 0 →
      s.kinWord s.kin.pos 0 < 256 →
      Completes (.kindlingConfig bad) s fun t =>
        t.kin.phase = 5 ∧ t.kin.ended = true ∧ t.regs = s.regs ∧ t.hm = s.hm ∧ t.pipes = s.pipes) ∧
  (∀ (s : State) (bad : List Nat),
      s.emb.main = true →
      s.kin.halted = false →
      s.is Reg.FC_STATUS_PAIR_HELD = false →
      s.kin.ended = false →
      s.kin.phase ≠ 0 →
      s.kin.phase < 4 →
      s.kin.wait = .none →
      s.kin.pos < s.kinCount →
      s.kinWord s.kin.pos 0 = 0 →
      Completes (.kindlingConfig bad) s fun t =>
        t.kin = { s.kin with ended := true } ∧ t.regs = s.regs ∧ t.hm = s.hm) ∧
  (∀ (s : State) (bad : List Nat),
      s.emb.main = true →
      s.kin.halted = false →
      s.is Reg.FC_STATUS_PAIR_HELD = false →
      s.kin.ended = false →
      s.kin.phase ≠ 0 →
      s.kin.phase < 4 →
      s.kin.wait = .none →
      s.kin.pos < s.kinCount →
      s.kinWord s.kin.pos 0 = 6 →
      s.kinWord s.kin.pos 1 % 32 < 17 →
      ownPermitted (s.kinWord s.kin.pos 1 % 32) (bits (s.kinWord s.kin.pos 1) 9 8) = true →
      Completes (.kindlingConfig bad) s fun t =>
        t.owner (s.kinWord s.kin.pos 1 % 32) = bits (s.kinWord s.kin.pos 1) 9 8 ∧ (∀ u, u < 17 → u ≠ s.kinWord s.kin.pos 1 % 32 → t.owner u = s.owner u) ∧ t.kin.pos = s.kin.pos + 1 ∧ t.hm = s.hm) ∧
  (∀ (s : State) (bad : List Nat),
      s.emb.main = true →
      s.kin.halted = false →
      s.is Reg.FC_STATUS_PAIR_HELD = false →
      s.kin.ended = false →
      s.kin.phase ≠ 0 →
      s.kin.phase < 4 →
      s.kin.wait = .none →
      s.kin.pos < s.kinCount →
      s.kinWord s.kin.pos 0 = Reg.a_FW_VERSION →
      s.kin.bad3 = false →
      Completes (.kindlingConfig bad) s fun t =>
        t.reg Reg.a_FW_VERSION = BitVec.ofNat 32 (s.kinWord s.kin.pos 1) ∧ t.kin.pos = s.kin.pos + 1 ∧ t.hm = s.hm ∧ ∀ a, a ≠ Reg.a_FW_VERSION → t.reg a = s.reg a) ∧
  (∀ (s : State),
      s.emb.main = false ∨ s.kin.ended = false ∨ s.kin.phase = 0 ∨ 4 ≤ s.kin.phase ∨ s.kin.pipes.any (fun p => !s.counting p) = true →
      exec (.kindlingDone) s = .next ({ s with outbox := [] } : State).settled) ∧
  (∀ (s : State),
      s.emb.main = true →
      s.kin.halted = false →
      s.is Reg.FC_STATUS_PAIR_HELD = false →
      s.kin.ended = true →
      s.kin.phase ≠ 0 →
      s.kin.phase < 4 →
      s.kin.pipes.any (fun p => !s.counting p) = false →
      headerFind s.kin.header 5 = none →
      s.kin.cause ≠ 3 →
      s.kin.pgoodLoss = false →
      Completes (.kindlingDone) s fun t =>
        t.kin.phase = 4 ∧ t.kin.time = (s.emberTimer + 2 ^ 32 - s.kin.startTick) % 2 ^ 32 ∧ t.get Reg.SEC_STATUS_ROLLBACK = max (s.get Reg.SEC_STATUS_ROLLBACK) (min 64 (headerVersion s.kin.header)) ∧ t.safeState = s.safeState ∧ t.hm = s.hm ∧ t.pipes = s.pipes) ∧
  (∀ (s : State),
      s.emb.main = true →
      s.kin.halted = false →
      s.is Reg.FC_STATUS_PAIR_HELD = false →
      s.kin.ended = true →
      s.kin.phase ≠ 0 →
      s.kin.phase < 4 →
      s.kin.pipes.any (fun p => !s.counting p) = false →
      headerFind s.kin.header 5 = none →
      s.kin.cause = 3 →
      s.kin.pgoodLoss = false →
      Completes (.kindlingDone) s fun t =>
        t.kin.phase = 4 ∧ t.safeState = false ∧ (s.safeState = true → t.is Reg.AK_STATUS_FATAL_TX = false) ∧ t.hm = s.hm) ∧
  (∀ (s : State),
      s.emb.main = true →
      s.kin.halted = false →
      s.is Reg.FC_STATUS_PAIR_HELD = false →
      s.kin.ended = true →
      s.kin.phase ≠ 0 →
      s.kin.phase < 4 →
      s.kin.pipes.any (fun p => !s.counting p) = false →
      headerFind s.kin.header 5 = none →
      s.kin.pgoodLoss = true →
      Completes (.kindlingDone) s fun t =>
        t.kin.phase = 4 ∧ t.kin.pgoodLoss = false ∧ t.reported .PWR_PGOOD_LOSS ∧ MemoryKept s t)

/-- A lifecycle request with the key and a row of Table 19.2 is pending until the next reset; without the row its result is 2; without the key
it changes nothing; the lifecycle state itself does not change. CHAL_REQ gives a new challenge of 16 bytes unless debug access is locked.
SUBMIT in DEVELOP opens a session for the password alone, and every failure counts; the third locks debug access. In FIELD a response is
judged against the challenge once. CLOSE ends the session. PROGRAM, REVOKE, PROGRAM_CPK and PROGRAM_PWD start where the lifecycle state,
the slot and its state permit, answer their code where not, and set OVERRUN while BUSY; no key changes before the programming ends.
OTP_PROGRAM_DONE leaves the slot VALID with its key, REVOKED, or DIRTY with result 3. RECOVER_GO starts the check only while recovery is
active; a package that fails leaves the flash as it was and says why. -/
def Obligations.KeysAndDebugAccessAreGuarded : Prop :=
  (∀ (s : State) (o : Origin) (v : Word),
      s.accepts o (Reg.a_SEC_LC) v = true →
      bits v.toNat 31 16 = 0xA5C3 →
      s.is Reg.SEC_STATUS_LC_PEND = false →
      s.lcAllowed o (bits v.toNat 1 0) = true →
      Completes (.lifecycleRequest o v) s fun t =>
        t.is Reg.SEC_STATUS_LC_PEND = true ∧ t.get Reg.SEC_STATUS_LC_NEXT = bits v.toNat 1 0 ∧ t.get Reg.SEC_STATUS_LC_RESULT = 1 ∧ t.lifecycle = s.lifecycle ∧ t.sec = s.sec ∧ t.hm = s.hm ∧ t.flash = s.flash) ∧
  (∀ (s : State) (o : Origin) (v : Word),
      s.accepts o (Reg.a_SEC_LC) v = true →
      bits v.toNat 31 16 = 0xA5C3 →
      s.is Reg.SEC_STATUS_LC_PEND = true ∨ s.lcAllowed o (bits v.toNat 1 0) = false →
      Completes (.lifecycleRequest o v) s fun t =>
        t.get Reg.SEC_STATUS_LC_RESULT = 2 ∧ t.is Reg.SEC_STATUS_LC_PEND = s.is Reg.SEC_STATUS_LC_PEND ∧ t.get Reg.SEC_STATUS_LC_NEXT = s.get Reg.SEC_STATUS_LC_NEXT ∧ t.lifecycle = s.lifecycle ∧ t.sec = s.sec ∧ t.hm = s.hm ∧ t.flash = s.flash) ∧
  (∀ (s : State) (o : Origin) (v : Word),
      s.accepts o (Reg.a_SEC_LC) v = true →
      bits v.toNat 31 16 ≠ 0xA5C3 →
      exec (.lifecycleRequest o v) s = .next ({ s with outbox := [] } : State).settled) ∧
  (∀ (s : State) (o : Origin),
      s.accepts o (Reg.a_SEC_DBG_CTRL) 1#32 = true →
      s.is Reg.SEC_STATUS_DBG_LOCKED = false →
      Completes (.chalReq o) s fun t =>
        (∃ c, t.sec.chal = some c ∧ c.length = 16 ∧ ∀ k, k < 4 → t.reg (Reg.a_SEC_DBG_CHAL k) = BitVec.ofNat 32 (leNat ((c.drop (4 * k)).take 4))) ∧ t.sec.session = s.sec.session ∧ t.hm = s.hm ∧ t.flash = s.flash) ∧
  (∀ (s : State) (o : Origin),
      s.accepts o (Reg.a_SEC_DBG_CTRL) 1#32 = true →
      s.is Reg.SEC_STATUS_DBG_LOCKED = true →
      exec (.chalReq o) s = .next ({ s with outbox := [] } : State).settled) ∧
  (∀ (s : State) (o : Origin),
      s.accepts o (Reg.a_SEC_DBG_CTRL) 2#32 = true →
      s.is Reg.SEC_STATUS_DBG_LOCKED = false →
      s.lifecycle = lcDevelop →
      s.sec.pwd = some (s.dataBytes (Reg.a_SEC_DBG_RESP 0) 4) →
      Completes (.submit o) s fun t =>
        t.sec.session = true ∧ t.debugOpen = true ∧ t.regs = s.regs ∧ t.hm = s.hm ∧ t.flash = s.flash) ∧
  (∀ (s : State) (o : Origin),
      s.accepts o (Reg.a_SEC_DBG_CTRL) 2#32 = true →
      s.is Reg.SEC_STATUS_DBG_LOCKED = false →
      s.lifecycle = lcDevelop →
      s.sec.pwd ≠ some (s.dataBytes (Reg.a_SEC_DBG_RESP 0) 4) →
      Completes (.submit o) s fun t =>
        t.sec = s.sec ∧ t.get Reg.SEC_STATUS_DBG_FAIL = satAdd (s.get Reg.SEC_STATUS_DBG_FAIL) 1 3 ∧ (2 ≤ s.get Reg.SEC_STATUS_DBG_FAIL → t.is Reg.SEC_STATUS_DBG_LOCKED = true) ∧ (s.get Reg.SEC_STATUS_DBG_FAIL < 2 → t.is Reg.SEC_STATUS_DBG_LOCKED = false) ∧ t.hm = s.hm ∧ t.flash = s.flash) ∧
  (∀ (s : State) (o : Origin) (c : List Byte),
      s.accepts o (Reg.a_SEC_DBG_CTRL) 2#32 = true →
      s.is Reg.SEC_STATUS_DBG_LOCKED = false →
      s.lifecycle = lcField →
      s.sec.chal = some c →
      s.slotValid 7 = false →
      Completes (.submit o) s fun t =>
        t.sec = { s.sec with chal := none } ∧ t.get Reg.SEC_STATUS_DBG_FAIL = satAdd (s.get Reg.SEC_STATUS_DBG_FAIL) 1 3 ∧ t.hm = s.hm ∧ t.flash = s.flash) ∧
  (∀ (s : State) (o : Origin),
      s.accepts o (Reg.a_SEC_DBG_CTRL) 2#32 = true →
      s.is Reg.SEC_STATUS_DBG_LOCKED = false →
      s.lifecycle = lcField →
      s.sec.chal = none →
      exec (.submit o) s = .next ({ s with outbox := [] } : State).settled) ∧
  (∀ (s : State) (o : Origin),
      s.accepts o (Reg.a_SEC_DBG_CTRL) 4#32 = true →
      Completes (.close o) s fun t =>
        t.sec = { s.sec with session := false } ∧ t.regs = s.regs ∧ t.hm = s.hm ∧ t.flash = s.flash) ∧
  (∀ (s : State) (o : Origin) (n : Nat),
      s.accepts o (Reg.a_SEC_KEY_CMD) (BitVec.ofNat 32 (256 * 1 + n % 8)) = true →
      s.is Reg.SEC_KEY_CMD_BUSY = false →
      (s.lifecycle = lcBlank ∨ s.lifecycle = lcDevelop) →
      n % 8 < 7 →
      s.get (keyStateField (n % 8)) = keyEmpty →
      Completes (.program o n) s fun t =>
        t.sec.job = some (.key (n % 8) (s.dataBytes (Reg.a_SEC_KEY_DATA 0) 4)) ∧ t.is Reg.SEC_KEY_CMD_BUSY = true ∧ t.is Reg.SEC_KEY_CMD_VALID = false ∧ t.reg Reg.a_SEC_KEY_STATE = s.reg Reg.a_SEC_KEY_STATE ∧ t.sec.keys = s.sec.keys ∧ t.hm = s.hm ∧ t.flash = s.flash) ∧
  (∀ (s : State) (o : Origin) (n : Nat),
      s.accepts o (Reg.a_SEC_KEY_CMD) (BitVec.ofNat 32 (256 * 1 + n % 8)) = true →
      s.is Reg.SEC_KEY_CMD_BUSY = false →
      (s.lifecycle = lcBlank ∨ s.lifecycle = lcDevelop) →
      n % 8 < 7 →
      s.get (keyStateField (n % 8)) ≠ keyEmpty →
      Completes (.program o n) s fun t =>
        t.get Reg.SEC_KEY_CMD_RESULT = keyNotEmpty ∧ t.is Reg.SEC_KEY_CMD_VALID = true ∧ t.is Reg.SEC_KEY_CMD_BUSY = false ∧ t.sec = s.sec ∧ t.reg Reg.a_SEC_KEY_STATE = s.reg Reg.a_SEC_KEY_STATE ∧ t.hm = s.hm ∧ t.flash = s.flash) ∧
  (∀ (s : State) (o : Origin) (n : Nat),
      s.accepts o (Reg.a_SEC_KEY_CMD) (BitVec.ofNat 32 (256 * 1 + n % 8)) = true →
      s.is Reg.SEC_KEY_CMD_BUSY = false →
      s.lifecycle = lcField →
      Completes (.program o n) s fun t =>
        t.get Reg.SEC_KEY_CMD_RESULT = keyLifecycle ∧ t.is Reg.SEC_KEY_CMD_VALID = true ∧ t.is Reg.SEC_KEY_CMD_BUSY = false ∧ t.sec = s.sec ∧ t.reg Reg.a_SEC_KEY_STATE = s.reg Reg.a_SEC_KEY_STATE ∧ t.hm = s.hm ∧ t.flash = s.flash) ∧
  (∀ (s : State) (o : Origin) (n : Nat),
      s.accepts o (Reg.a_SEC_KEY_CMD) (BitVec.ofNat 32 (256 * 1 + n % 8)) = true →
      s.is Reg.SEC_KEY_CMD_BUSY = false →
      (s.lifecycle = lcBlank ∨ s.lifecycle = lcDevelop) →
      n % 8 = 7 →
      Completes (.program o n) s fun t =>
        t.get Reg.SEC_KEY_CMD_RESULT = keyBadSlot ∧ t.is Reg.SEC_KEY_CMD_VALID = true ∧ t.is Reg.SEC_KEY_CMD_BUSY = false ∧ t.sec = s.sec ∧ t.reg Reg.a_SEC_KEY_STATE = s.reg Reg.a_SEC_KEY_STATE ∧ t.hm = s.hm ∧ t.flash = s.flash) ∧
  (∀ (s : State) (o : Origin) (n : Nat),
      s.accepts o (Reg.a_SEC_KEY_CMD) (BitVec.ofNat 32 (256 * 1 + n % 8)) = true →
      s.is Reg.SEC_KEY_CMD_BUSY = true →
      Completes (.program o n) s fun t =>
        t.is Reg.SEC_KEY_CMD_OVERRUN = true ∧ t.is Reg.SEC_KEY_CMD_BUSY = true ∧ t.sec = s.sec ∧ t.hm = s.hm ∧ t.flash = s.flash) ∧
  (∀ (s : State) (o : Origin) (n : Nat),
      s.accepts o (Reg.a_SEC_KEY_CMD) (BitVec.ofNat 32 (256 * 2 + n % 8)) = true →
      s.is Reg.SEC_KEY_CMD_BUSY = false →
      (s.lifecycle = lcBlank ∨ s.lifecycle = lcDevelop) →
      n % 8 < 7 →
      Completes (.revoke o n) s fun t =>
        t.sec.job = some (.revoke (n % 8)) ∧ t.is Reg.SEC_KEY_CMD_BUSY = true ∧ t.is Reg.SEC_KEY_CMD_VALID = false ∧ t.reg Reg.a_SEC_KEY_STATE = s.reg Reg.a_SEC_KEY_STATE ∧ t.sec.keys = s.sec.keys ∧ t.hm = s.hm ∧ t.flash = s.flash) ∧
  (∀ (s : State) (o : Origin) (n : Nat),
      s.accepts o (Reg.a_SEC_KEY_CMD) (BitVec.ofNat 32 (256 * 2 + n % 8)) = true →
      s.is Reg.SEC_KEY_CMD_BUSY = false →
      s.lifecycle = lcField →
      Completes (.revoke o n) s fun t =>
        t.get Reg.SEC_KEY_CMD_RESULT = keyLifecycle ∧ t.is Reg.SEC_KEY_CMD_VALID = true ∧ t.is Reg.SEC_KEY_CMD_BUSY = false ∧ t.sec = s.sec ∧ t.reg Reg.a_SEC_KEY_STATE = s.reg Reg.a_SEC_KEY_STATE ∧ t.hm = s.hm ∧ t.flash = s.flash) ∧
  (∀ (s : State) (o : Origin) (n : Nat),
      s.accepts o (Reg.a_SEC_KEY_CMD) (BitVec.ofNat 32 (256 * 3 + n % 8)) = true →
      s.is Reg.SEC_KEY_CMD_BUSY = false →
      (s.lifecycle = lcBlank ∨ s.lifecycle = lcDevelop) →
      n % 8 < 2 →
      s.get (keyStateField (8 + n % 8)) = keyEmpty →
      Completes (.programCpk o n) s fun t =>
        t.sec.job = some (.cpk (n % 8) s.cpkData) ∧ t.is Reg.SEC_KEY_CMD_BUSY = true ∧ t.is Reg.SEC_KEY_CMD_VALID = false ∧ t.reg Reg.a_SEC_KEY_STATE = s.reg Reg.a_SEC_KEY_STATE ∧ t.sec.keys = s.sec.keys ∧ t.hm = s.hm ∧ t.flash = s.flash) ∧
  (∀ (s : State) (o : Origin) (n : Nat),
      s.accepts o (Reg.a_SEC_KEY_CMD) (BitVec.ofNat 32 (256 * 3 + n % 8)) = true →
      s.is Reg.SEC_KEY_CMD_BUSY = false →
      (s.lifecycle = lcBlank ∨ s.lifecycle = lcDevelop) →
      2 ≤ n % 8 →
      Completes (.programCpk o n) s fun t =>
        t.get Reg.SEC_KEY_CMD_RESULT = keyBadSlot ∧ t.is Reg.SEC_KEY_CMD_VALID = true ∧ t.is Reg.SEC_KEY_CMD_BUSY = false ∧ t.sec = s.sec ∧ t.reg Reg.a_SEC_KEY_STATE = s.reg Reg.a_SEC_KEY_STATE ∧ t.hm = s.hm ∧ t.flash = s.flash) ∧
  (∀ (s : State) (o : Origin),
      s.accepts o (Reg.a_SEC_KEY_CMD) (BitVec.ofNat 32 (256 * 4 + 0)) = true →
      s.is Reg.SEC_KEY_CMD_BUSY = false →
      s.lifecycle = lcBlank →
      s.sec.pwd = none →
      Completes (.programPwd o) s fun t =>
        t.sec.job = some (.pwd (s.dataBytes (Reg.a_SEC_KEY_DATA 0) 4)) ∧ t.is Reg.SEC_KEY_CMD_BUSY = true ∧ t.is Reg.SEC_KEY_CMD_VALID = false ∧ t.reg Reg.a_SEC_KEY_STATE = s.reg Reg.a_SEC_KEY_STATE ∧ t.sec.keys = s.sec.keys ∧ t.hm = s.hm ∧ t.flash = s.flash) ∧
  (∀ (s : State) (o : Origin),
      s.accepts o (Reg.a_SEC_KEY_CMD) (BitVec.ofNat 32 (256 * 4 + 0)) = true →
      s.is Reg.SEC_KEY_CMD_BUSY = false →
      s.lifecycle ≠ lcBlank →
      Completes (.programPwd o) s fun t =>
        t.get Reg.SEC_KEY_CMD_RESULT = keyLifecycle ∧ t.is Reg.SEC_KEY_CMD_VALID = true ∧ t.is Reg.SEC_KEY_CMD_BUSY = false ∧ t.sec = s.sec ∧ t.reg Reg.a_SEC_KEY_STATE = s.reg Reg.a_SEC_KEY_STATE ∧ t.hm = s.hm ∧ t.flash = s.flash) ∧
  (∀ (s : State) (i : Nat) (k : List Byte),
      i < 7 →
      s.sec.job = some (.key i k) →
      Completes (.otpProgramDone true) s fun t =>
        t.get (keyStateField i) = keyValid ∧ t.slotKey i = k ∧ (∀ j, j ≠ i → j < 10 → t.get (keyStateField j) = s.get (keyStateField j)) ∧ t.get Reg.SEC_KEY_CMD_RESULT = keyOk ∧ t.is Reg.SEC_KEY_CMD_BUSY = false ∧ t.is Reg.SEC_KEY_CMD_VALID = true ∧ t.sec.job = none ∧ t.hm = s.hm ∧ t.flash = s.flash) ∧
  (∀ (s : State) (i : Nat),
      i < 7 →
      s.sec.job = some (.revoke i) →
      Completes (.otpProgramDone true) s fun t =>
        t.get (keyStateField i) = keyRevoked ∧ t.slotValid i = false ∧ t.get Reg.SEC_KEY_CMD_RESULT = keyOk ∧ t.is Reg.SEC_KEY_CMD_BUSY = false ∧ t.is Reg.SEC_KEY_CMD_VALID = true ∧ t.sec.job = none ∧ t.hm = s.hm ∧ t.flash = s.flash) ∧
  (∀ (s : State) (i : Nat) (k : List Byte),
      i < 7 →
      s.sec.job = some (.key i k) →
      Completes (.otpProgramDone false) s fun t =>
        t.get (keyStateField i) = keyDirty ∧ t.sec.keys = s.sec.keys ∧ t.get Reg.SEC_KEY_CMD_RESULT = keyOtpFail ∧ t.is Reg.SEC_KEY_CMD_BUSY = false ∧ t.is Reg.SEC_KEY_CMD_VALID = true ∧ t.sec.job = none ∧ t.hm = s.hm ∧ t.flash = s.flash) ∧
  (∀ (s : State) (b : Bool),
      s.sec.job = none →
      exec (.otpProgramDone b) s = .next ({ s with outbox := [] } : State).settled) ∧
  (∀ (s : State) (o : Origin),
      s.accepts o (Reg.a_SEC_RECOVER) 1#32 = true →
      s.is Reg.SEC_RECOVER_ACTIVE = true →
      Completes (.recoverGo o) s fun t =>
        t.is Reg.SEC_RECOVER_BUSY = true ∧ t.sec = s.sec ∧ t.hm = s.hm ∧ t.flash = s.flash ∧ ∀ a, a ≠ Reg.a_SEC_RECOVER → t.reg a = s.reg a) ∧
  (∀ (s : State) (o : Origin),
      s.accepts o (Reg.a_SEC_RECOVER) 1#32 = true →
      s.is Reg.SEC_RECOVER_ACTIVE = false →
      Completes (.recoverGo o) s fun t =>
        t.reported .ACC_REFUSED ∧ t.is Reg.SEC_RECOVER_BUSY = s.is Reg.SEC_RECOVER_BUSY ∧ t.flash = s.flash ∧ MemoryKept s t) ∧
  (∀ (s : State) (b : Bool),
      s.is Reg.SEC_RECOVER_BUSY = true →
      packageCheck s.hearthPackage (s.get Reg.SEC_RECOVER_LEN_BYTES) (s.get Reg.SEC_STATUS_ROLLBACK) ≠ 1 →
      Completes (.recoverDone b) s fun t =>
        t.get Reg.SEC_RECOVER_RESULT = packageCheck s.hearthPackage (s.get Reg.SEC_RECOVER_LEN_BYTES) (s.get Reg.SEC_STATUS_ROLLBACK) ∧ t.is Reg.SEC_RECOVER_BUSY = false ∧ t.sec = s.sec ∧ t.hm = s.hm ∧ t.flash = s.flash) ∧
  (∀ (s : State) (b : Bool),
      s.is Reg.SEC_RECOVER_BUSY = false →
      exec (.recoverDone b) s = .next ({ s with outbox := [] } : State).settled)
end

