-- ==== Sys2Proof/Laws/Bits.lean ====
section
/-! SUPPORT. What replacing a bit field does, bit by bit. -/
namespace Sys2Proof.Machine

theorem testBit_bits (n hi lo j : Nat) : (bits n hi lo).testBit j = (decide (j < hi - lo + 1) && n.testBit (lo + j)) := by
  simp [bits, Nat.testBit_mod_two_pow, Nat.testBit_shiftRight]

theorem setBits_eq (n hi lo v : Nat) (h : lo ≤ hi) :
    setBits n hi lo v = 2 ^ (hi + 1) * (n / 2 ^ (hi + 1)) + (2 ^ lo * (v % 2 ^ (hi - lo + 1)) + n % 2 ^ lo) := by
  have hw : 2 ^ (hi + 1) = 2 ^ lo * 2 ^ (hi - lo + 1) := by rw [← Nat.pow_add]; congr 1; omega
  have h1 : n = 2 ^ lo * (n / 2 ^ lo) + n % 2 ^ lo := (Nat.div_add_mod n (2 ^ lo)).symm
  have h2 : n / 2 ^ lo = 2 ^ (hi - lo + 1) * (n / 2 ^ (hi + 1)) + n / 2 ^ lo % 2 ^ (hi - lo + 1) := by
    rw [hw, ← Nat.div_div_eq_div_mul]; exact (Nat.div_add_mod _ _).symm
  have h3 : n = 2 ^ (hi + 1) * (n / 2 ^ (hi + 1)) + 2 ^ lo * (n / 2 ^ lo % 2 ^ (hi - lo + 1)) + n % 2 ^ lo := by
    conv => lhs; rw [h1, h2]
    rw [Nat.mul_add, ← Nat.mul_assoc, ← hw]
  unfold setBits bits
  rw [Nat.shiftRight_eq_div_pow]
  generalize 2 ^ (hi + 1) * (n / 2 ^ (hi + 1)) = a at h3 ⊢
  have e1 : n / 2 ^ lo % 2 ^ (hi - lo + 1) * 2 ^ lo = 2 ^ lo * (n / 2 ^ lo % 2 ^ (hi - lo + 1)) := Nat.mul_comm _ _
  have e2 : v % 2 ^ (hi - lo + 1) * 2 ^ lo = 2 ^ lo * (v % 2 ^ (hi - lo + 1)) := Nat.mul_comm _ _
  omega

theorem testBit_setBits (n hi lo v j : Nat) (h : lo ≤ hi) :
    (setBits n hi lo v).testBit j = if lo ≤ j ∧ j ≤ hi then v.testBit (j - lo) else n.testBit j := by
  have hw : 2 ^ (hi + 1) = 2 ^ lo * 2 ^ (hi - lo + 1) := by rw [← Nat.pow_add]; congr 1; omega
  have hC : n % 2 ^ lo < 2 ^ lo := Nat.mod_lt _ (Nat.two_pow_pos lo)
  have hB : 2 ^ lo * (v % 2 ^ (hi - lo + 1)) + n % 2 ^ lo < 2 ^ (hi + 1) := by
    have : v % 2 ^ (hi - lo + 1) < 2 ^ (hi - lo + 1) := Nat.mod_lt _ (Nat.two_pow_pos _)
    rw [hw]
    calc 2 ^ lo * (v % 2 ^ (hi - lo + 1)) + n % 2 ^ lo < 2 ^ lo * (v % 2 ^ (hi - lo + 1)) + 2 ^ lo := by omega
      _ = 2 ^ lo * (v % 2 ^ (hi - lo + 1) + 1) := by rw [Nat.mul_add, Nat.mul_one]
      _ ≤ 2 ^ lo * 2 ^ (hi - lo + 1) := Nat.mul_le_mul_left _ this
  rw [setBits_eq n hi lo v h, Nat.testBit_two_pow_mul_add _ hB, Nat.testBit_two_pow_mul_add _ hC]
  simp only [Nat.testBit_mod_two_pow, Nat.testBit_div_two_pow]
  by_cases h1 : j < lo
  · have : ¬ (lo ≤ j ∧ j ≤ hi) := by omega
    have h2 : j < hi + 1 := by omega
    simp [h1, h2, this]
  · by_cases h2 : j < hi + 1
    · have h3 : lo ≤ j ∧ j ≤ hi := by omega
      have h4 : j - lo < hi - lo + 1 := by omega
      simp [h1, h2, h3, h4]
    · have h3 : ¬ (lo ≤ j ∧ j ≤ hi) := by omega
      have h5 : j - (hi + 1) + (hi + 1) = j := by omega
      simp [h2, h3, h5]

/-- The field that was replaced. -/
theorem bits_setBits_self (n hi lo v : Nat) (h : lo ≤ hi) : bits (setBits n hi lo v) hi lo = v % 2 ^ (hi - lo + 1) := by
  apply Nat.eq_of_testBit_eq
  intro j
  rw [testBit_bits, testBit_setBits _ _ _ _ _ h, Nat.testBit_mod_two_pow]
  by_cases hj : j < hi - lo + 1
  · have : lo ≤ lo + j ∧ lo + j ≤ hi := by omega
    simp [hj, this]
  · simp [hj]

/-- A field apart from the replaced one. -/
theorem bits_setBits_apart (n hi lo v hi' lo' : Nat) (h : lo ≤ hi) (h' : lo' ≤ hi') (ha : hi' < lo ∨ hi < lo') :
    bits (setBits n hi lo v) hi' lo' = bits n hi' lo' := by
  apply Nat.eq_of_testBit_eq
  intro j
  rw [testBit_bits, testBit_bits, testBit_setBits _ _ _ _ _ h]
  by_cases hj : j < hi' - lo' + 1
  · have : ¬ (lo ≤ lo' + j ∧ lo' + j ≤ hi) := by omega
    simp [hj, this]
  · simp [hj]

/-- Replacing a field below bit 32 of a 32-bit word leaves a 32-bit word. -/
theorem setBits_lt (n hi lo v : Nat) (h : lo ≤ hi) (hh : hi < 32) (hn : n < 2 ^ 32) : setBits n hi lo v < 2 ^ 32 := by
  apply Nat.lt_pow_two_of_testBit
  intro j hj
  rw [testBit_setBits _ _ _ _ _ h]
  have : ¬ (lo ≤ j ∧ j ≤ hi) := by omega
  simp only [this, if_false]
  exact Nat.testBit_lt_two_pow (Nat.lt_of_lt_of_le hn (Nat.pow_le_pow_right (by decide) hj))

end Sys2Proof.Machine
end

