-- ==== Sys2Proof/Laws/SMap.lean ====
section
/-! SUPPORT. What the operations of a sparse table do: a read after a write, and the canonical form. -/
namespace Sys2Proof.Machine

variable {α : Type}

@[simp] theorem SMap.get_nil (d : α) (k : Nat) : SMap.get d [] k = d := rfl

theorem SMap.get_erase_self (d : α) (m : List (Nat × α)) (k : Nat) : SMap.get d (SMap.erase m k) k = d := by
  induction m with
  | nil => rfl
  | cons e m ih =>
    obtain ⟨k', v'⟩ := e
    by_cases h : k' = k
    · subst h; simpa [SMap.erase] using ih
    · have h' : ¬ k = k' := fun e => h e.symm
      simpa [SMap.erase, SMap.get, h, h'] using ih

theorem SMap.get_erase_ne (d : α) (m : List (Nat × α)) {j k : Nat} (h : j ≠ k) : SMap.get d (SMap.erase m k) j = SMap.get d m j := by
  induction m with
  | nil => rfl
  | cons e m ih =>
    obtain ⟨k', v'⟩ := e
    by_cases hk : k' = k
    · subst hk; simpa [SMap.erase, SMap.get, h] using ih
    · by_cases hj : j = k'
      · subst hj; simp [SMap.erase, SMap.get, hk]
      · simpa [SMap.erase, SMap.get, hk, hj] using ih

theorem SMap.get_insert_self (d : α) (m : List (Nat × α)) (k : Nat) (v : α) : SMap.get d (SMap.insert m k v) k = v := by
  induction m with
  | nil => simp [SMap.insert, SMap.get]
  | cons e m ih =>
    obtain ⟨k', v'⟩ := e
    simp only [SMap.insert]
    split
    · simp [SMap.get]
    · split
      · simp [SMap.get]
      · simp [SMap.get, *]

theorem SMap.get_insert_ne (d : α) (m : List (Nat × α)) {j k : Nat} (v : α) (h : j ≠ k) :
    SMap.get d (SMap.insert m k v) j = SMap.get d m j := by
  induction m with
  | nil => simp [SMap.insert, SMap.get, h]
  | cons e m ih =>
    obtain ⟨k', v'⟩ := e
    simp only [SMap.insert]
    split
    · simp [SMap.get, h]
    · split
      · rename_i _ hk
        subst hk
        simp [SMap.get, h]
      · simp only [SMap.get, ih]

variable [DecidableEq α]

/-- A read at the key that was written. -/
@[simp] theorem SMap.get_set_self (d : α) (m : List (Nat × α)) (k : Nat) (v : α) : SMap.get d (SMap.set d m k v) k = v := by
  simp only [SMap.set]
  split
  · rename_i h; rw [h]; exact SMap.get_erase_self d m k
  · exact SMap.get_insert_self d m k v

/-- A write leaves every other key alone. -/
theorem SMap.get_set_ne (d d' : α) (m : List (Nat × α)) {j k : Nat} (v : α) (h : j ≠ k) :
    SMap.get d' (SMap.set d m k v) j = SMap.get d' m j := by
  simp only [SMap.set]
  split
  · exact SMap.get_erase_ne d' m h
  · exact SMap.get_insert_ne d' m v h

/-- A read after a write. -/
theorem SMap.get_set (d : α) (m : List (Nat × α)) (j k : Nat) (v : α) :
    SMap.get d (SMap.set d m k v) j = if j = k then v else SMap.get d m j := by
  split
  · rename_i h; subst h; simp
  · rename_i h; exact SMap.get_set_ne d d m v h

/-! ### The canonical form -/

/-- Whether a key lies above a bound. -/
def SMap.above (lo : Option Nat) (k : Nat) : Prop := ∀ l, lo = some l → l < k

theorem SMap.wfFrom_cons (d : Nat → α) (lo : Option Nat) (k : Nat) (v : α) (m : List (Nat × α)) :
    SMap.wfFrom d lo ((k, v) :: m) = true ↔ SMap.above lo k ∧ v ≠ d k ∧ SMap.wfFrom d (some k) m = true := by
  cases lo <;> simp [SMap.wfFrom, SMap.above, and_assoc]

theorem SMap.wfFrom_weaken (d : Nat → α) {lo lo' : Option Nat} (m : List (Nat × α)) (h : ∀ k, SMap.above lo k → SMap.above lo' k)
    (hm : SMap.wfFrom d lo m = true) : SMap.wfFrom d lo' m = true := by
  cases m with
  | nil => cases lo' <;> rfl
  | cons e m =>
    obtain ⟨k, v⟩ := e
    rw [SMap.wfFrom_cons] at hm ⊢
    exact ⟨h k hm.1, hm.2⟩

theorem SMap.wfFrom_erase (d : Nat → α) (m : List (Nat × α)) (k : Nat) (lo : Option Nat) (hm : SMap.wfFrom d lo m = true) :
    SMap.wfFrom d lo (SMap.erase m k) = true := by
  induction m generalizing lo with
  | nil => exact hm
  | cons e m ih =>
    obtain ⟨k', v'⟩ := e
    rw [SMap.wfFrom_cons] at hm
    by_cases h : k' = k
    · have hw : SMap.wfFrom d lo m = true :=
        SMap.wfFrom_weaken d m (fun j hj l hl => Nat.lt_trans (hm.1 l hl) (hj k' rfl)) hm.2.2
      simpa [SMap.erase, h] using ih lo hw
    · have := ih (some k') hm.2.2
      have hc : SMap.erase ((k', v') :: m) k = (k', v') :: SMap.erase m k := by simp [SMap.erase, h]
      rw [hc, SMap.wfFrom_cons]
      exact ⟨hm.1, hm.2.1, this⟩

theorem SMap.wfFrom_insert (d : Nat → α) (m : List (Nat × α)) (k : Nat) (v : α) (lo : Option Nat) (hk : SMap.above lo k) (hv : v ≠ d k)
    (hm : SMap.wfFrom d lo m = true) : SMap.wfFrom d lo (SMap.insert m k v) = true := by
  induction m generalizing lo with
  | nil => rw [SMap.insert, SMap.wfFrom_cons]; exact ⟨hk, hv, rfl⟩
  | cons e m ih =>
    obtain ⟨k', v'⟩ := e
    have hc := (SMap.wfFrom_cons d lo k' v' m).mp hm
    simp only [SMap.insert]
    split
    · rename_i h
      rw [SMap.wfFrom_cons, SMap.wfFrom_cons]
      exact ⟨hk, hv, fun l hl => by cases hl; exact h, hc.2⟩
    · split
      · rename_i _ h
        subst h
        rw [SMap.wfFrom_cons]
        exact ⟨hk, hv, hc.2.2⟩
      · rename_i h1 h2
        rw [SMap.wfFrom_cons]
        exact ⟨hc.1, hc.2.1, ih (some k') (fun l hl => by cases hl; omega) hc.2.2⟩

/-- Every write keeps the canonical form. -/
theorem SMap.wf_set (d : Nat → α) (m : List (Nat × α)) (k : Nat) (v : α) (hm : SMap.wf d m = true) :
    SMap.wf d (SMap.set (d k) m k v) = true := by
  simp only [SMap.set]
  split
  · exact SMap.wfFrom_erase d m k none hm
  · rename_i h
    exact SMap.wfFrom_insert d m k v none (fun l hl => by cases hl) h hm

/-- Dropping entries keeps the canonical form. -/
theorem SMap.wf_filter (d : Nat → α) (m : List (Nat × α)) (p : Nat × α → Bool) (hm : SMap.wf d m = true) :
    SMap.wf d (m.filter p) = true := by
  have key : ∀ (m : List (Nat × α)) (lo : Option Nat), SMap.wfFrom d lo m = true → SMap.wfFrom d lo (m.filter p) = true := by
    intro m
    induction m with
    | nil => intro lo h; exact h
    | cons e m ih =>
      intro lo h
      obtain ⟨k, v⟩ := e
      rw [SMap.wfFrom_cons] at h
      by_cases hp : p (k, v) = true
      · rw [List.filter_cons_of_pos hp, SMap.wfFrom_cons]
        exact ⟨h.1, h.2.1, ih _ h.2.2⟩
      · rw [List.filter_cons_of_neg hp]
        exact ih lo (SMap.wfFrom_weaken d m (fun j hj l hl => Nat.lt_trans (h.1 l hl) (hj k rfl)) h.2.2)
  exact key m none hm

/-- Canonical tables that read alike are equal. -/
theorem SMap.eq_of_get (d : Nat → α) (m m' : List (Nat × α)) (lo : Option Nat) (h : SMap.wfFrom d lo m = true)
    (h' : SMap.wfFrom d lo m' = true) (hg : ∀ k, SMap.get (d k) m k = SMap.get (d k) m' k) : m = m' := by
  have low : ∀ (m : List (Nat × α)) (l k : Nat), SMap.wfFrom d (some l) m = true → k ≤ l → SMap.get (d k) m k = d k := by
    intro m
    induction m with
    | nil => intros; rfl
    | cons e m ih =>
      intro l k h hk
      obtain ⟨k', v'⟩ := e
      rw [SMap.wfFrom_cons] at h
      have h1 := h.1 l rfl
      have h2 : k ≠ k' := by omega
      simp only [SMap.get, h2, if_false]
      exact ih k' k h.2.2 (by omega)
  induction m generalizing lo m' with
  | nil =>
    cases m' with
    | nil => rfl
    | cons e m' =>
      obtain ⟨k, v⟩ := e
      rw [SMap.wfFrom_cons] at h'
      have := hg k
      simp [SMap.get] at this
      exact absurd this.symm h'.2.1
  | cons e m ih =>
    obtain ⟨k, v⟩ := e
    have hc := (SMap.wfFrom_cons d lo k v m).mp h
    cases m' with
    | nil =>
      have := hg k
      simp [SMap.get] at this
      exact absurd this hc.2.1
    | cons e' m' =>
      obtain ⟨k', v'⟩ := e'
      have hc' := (SMap.wfFrom_cons d lo k' v' m').mp h'
      have hkk : k = k' := by
        rcases Nat.lt_trichotomy k k' with hlt | heq | hgt
        · have := hg k
          have hne : k ≠ k' := by omega
          simp only [SMap.get, if_true, hne, if_false] at this
          rw [low m' k' k hc'.2.2 (by omega)] at this
          exact absurd this hc.2.1
        · exact heq
        · have := hg k'
          have hne : k' ≠ k := by omega
          simp only [SMap.get, if_true, hne, if_false] at this
          rw [low m k k' hc.2.2 (by omega)] at this
          exact absurd this.symm hc'.2.1
      subst hkk
      have hv : v = v' := by simpa [SMap.get] using hg k
      subst hv
      congr 1
      refine ih m' (some k) hc.2.2 hc'.2.2 (fun j => ?_)
      by_cases hj : j = k
      · subst hj; rw [low m j j hc.2.2 (Nat.le_refl _), low m' j j hc'.2.2 (Nat.le_refl _)]
      · simpa [SMap.get, hj] using hg j

end Sys2Proof.Machine
end

