-- ==== Sys2Proof/Laws/Regs.lean ====
section
/-! SUPPORT. Reading a field of a register after a field was written: the one place where the register file is unfolded. -/
namespace Sys2Proof.Machine

/-- A field that lies inside a 32-bit register. -/
def FRef.ok (f : FRef) : Bool := f.lo ≤ f.hi && f.hi < 32

/-- Two fields share no bit. -/
def FRef.apart (f g : FRef) : Bool := f.addr != g.addr || g.hi < f.lo || f.hi < g.lo

theorem FRef.ok_iff (f : FRef) : f.ok = true ↔ f.lo ≤ f.hi ∧ f.hi < 32 := by simp [FRef.ok]

theorem imgWord_set_self (m : List (Nat × Word)) (a : Nat) (w : Word) :
    imgWord (SMap.set (regReset a) m a w) a = w := by simp [imgWord]

theorem imgWord_set_ne (m : List (Nat × Word)) {a b : Nat} (w : Word) (h : b ≠ a) :
    imgWord (SMap.set (regReset a) m a w) b = imgWord m b := by simp only [imgWord]; exact SMap.get_set_ne _ _ _ _ h

/-- The field that was written. -/
theorem imgGet_imgPut_self (m : List (Nat × Word)) (f : FRef) (v : Nat) (h : f.ok = true) :
    imgGet (imgPut m f v) f = v % 2 ^ (f.hi - f.lo + 1) := by
  have hb := (FRef.ok_iff f).mp h
  simp only [imgGet, imgPut, imgWord_set_self, BitVec.toNat_ofNat]
  rw [Nat.mod_eq_of_lt (setBits_lt _ _ _ _ hb.1 hb.2 (imgWord m f.addr).isLt), bits_setBits_self _ _ _ _ hb.1]

/-- A field apart from the one that was written. -/
theorem imgGet_imgPut_apart (m : List (Nat × Word)) (f g : FRef) (v : Nat) (hf : f.ok = true) (hg : g.lo ≤ g.hi) (h : f.apart g = true) :
    imgGet (imgPut m f v) g = imgGet m g := by
  have hb := (FRef.ok_iff f).mp hf
  by_cases ha : f.addr = g.addr
  · simp only [imgGet, imgPut]
    rw [← ha, imgWord_set_self, BitVec.toNat_ofNat, Nat.mod_eq_of_lt (setBits_lt _ _ _ _ hb.1 hb.2 (imgWord m f.addr).isLt)]
    refine bits_setBits_apart _ _ _ _ _ _ hb.1 hg ?_
    simpa [FRef.apart, ha] using h
  · simp only [imgGet, imgPut]
    rw [imgWord_set_ne _ _ (fun e => ha e.symm)]

/-- A register at another address than the one written. -/
theorem imgWord_imgPut_ne (m : List (Nat × Word)) (f : FRef) (v a : Nat) (h : a ≠ f.addr) : imgWord (imgPut m f v) a = imgWord m a := by
  simp only [imgPut]; exact imgWord_set_ne _ _ h

namespace State

variable (s : State)

theorem get_put_self (f : FRef) (v : Nat) (h : f.ok = true) : (s.put f v).get f = v % 2 ^ (f.hi - f.lo + 1) := imgGet_imgPut_self _ _ _ h

theorem get_put_apart (f g : FRef) (v : Nat) (hf : f.ok = true) (hg : g.lo ≤ g.hi) (h : f.apart g = true) : (s.put f v).get g = s.get g :=
  imgGet_imgPut_apart _ _ _ _ hf hg h

theorem reg_put_ne (f : FRef) (v a : Nat) (h : a ≠ f.addr) : (s.put f v).reg a = s.reg a := imgWord_imgPut_ne _ _ _ _ h

theorem reg_setReg_self (a : Nat) (w : Word) : (s.setReg a w).reg a = w := imgWord_set_self _ _ _

theorem reg_setReg_ne {a b : Nat} (w : Word) (h : b ≠ a) : (s.setReg a w).reg b = s.reg b := imgWord_set_ne _ _ h

end State

/-! ### Canonical form -/

/-- A register write keeps the register file canonical. -/
theorem regs_wf_setReg (s : State) (a : Nat) (w : Word) (h : SMap.wf regReset s.regs = true) :
    SMap.wf regReset (s.setReg a w).regs = true := SMap.wf_set _ _ _ _ h

theorem regs_wf_put (s : State) (f : FRef) (v : Nat) (h : SMap.wf regReset s.regs = true) :
    SMap.wf regReset (s.put f v).regs = true := SMap.wf_set _ _ _ _ h

end Sys2Proof.Machine
end

