-- ==== Sys2Proof/Laws/State.lean ====
section
/-! SUPPORT. One lemma for every elementary update and every part of the state that it leaves alone, and the read of what it wrote. -/
namespace Sys2Proof.Machine.State

variable (s : State)

/-! ### fresh -/

@[simp] theorem fresh_pending  : (s.fresh).pending = s.pending := rfl
@[simp] theorem fresh_now  : (s.fresh).now = s.now := rfl
@[simp] theorem fresh_freeCtr  : (s.fresh).freeCtr = s.freeCtr := rfl
@[simp] theorem fresh_regs  : (s.fresh).regs = s.regs := rfl
@[simp] theorem fresh_sram  : (s.fresh).sram = s.sram := rfl
@[simp] theorem fresh_latches  : (s.fresh).latches = s.latches := rfl
@[simp] theorem fresh_intc  : (s.fresh).intc = s.intc := rfl
@[simp] theorem fresh_fc  : (s.fresh).fc = s.fc := rfl
@[simp] theorem fresh_orbit  : (s.fresh).orbit = s.orbit := rfl
@[simp] theorem fresh_pipes  : (s.fresh).pipes = s.pipes := rfl
@[simp] theorem fresh_hm  : (s.fresh).hm = s.hm := rfl
@[simp] theorem fresh_bc  : (s.fresh).bc = s.bc := rfl
@[simp] theorem fresh_cg  : (s.fresh).cg = s.cg := rfl
@[simp] theorem fresh_clk  : (s.fresh).clk = s.clk := rfl
@[simp] theorem fresh_pwr  : (s.fresh).pwr = s.pwr := rfl
@[simp] theorem fresh_dma  : (s.fresh).dma = s.dma := rfl
@[simp] theorem fresh_dec  : (s.fresh).dec = s.dec := rfl
@[simp] theorem fresh_enc  : (s.fresh).enc = s.enc := rfl
@[simp] theorem fresh_ak  : (s.fresh).ak = s.ak := rfl
@[simp] theorem fresh_od  : (s.fresh).od = s.od := rfl
@[simp] theorem fresh_emb  : (s.fresh).emb = s.emb := rfl
@[simp] theorem fresh_kin  : (s.fresh).kin = s.kin := rfl
@[simp] theorem fresh_sec  : (s.fresh).sec = s.sec := rfl
@[simp] theorem fresh_flash  : (s.fresh).flash = s.flash := rfl
@[simp] theorem fresh_pins  : (s.fresh).pins = s.pins := rfl
@[simp] theorem fresh_get  (g : FRef) : (s.fresh).get g = s.get g := rfl
@[simp] theorem fresh_is  (g : FRef) : (s.fresh).is g = s.is g := rfl
@[simp] theorem fresh_reg  (a0 : Nat) : (s.fresh).reg a0 = s.reg a0 := rfl
@[simp] theorem fresh_pipe  (p0 : Nat) : (s.fresh).pipe p0 = s.pipe p0 := rfl
@[simp] theorem fresh_handle  (h0 : Nat) : (s.fresh).handle h0 = s.handle h0 := rfl
@[simp] theorem fresh_port  (p0 : Nat) : (s.fresh).port p0 = s.port p0 := rfl
@[simp] theorem fresh_pll  (i0 : Nat) : (s.fresh).pll i0 = s.pll i0 := rfl
@[simp] theorem fresh_src  (n0 : Nat) : (s.fresh).src n0 = s.src n0 := rfl
@[simp] theorem fresh_tgt  (t0 : Nat) : (s.fresh).tgt t0 = s.tgt t0 := rfl
@[simp] theorem fresh_chan  (c0 : Nat) : (s.fresh).chan c0 = s.chan c0 := rfl
@[simp] theorem fresh_dses  (i0 : Nat) : (s.fresh).dses i0 = s.dses i0 := rfl
@[simp] theorem fresh_eses  (i0 : Nat) : (s.fresh).eses i0 = s.eses i0 := rfl
@[simp] theorem fresh_tt  (i0 : Nat) : (s.fresh).tt i0 = s.tt i0 := rfl
@[simp] theorem fresh_entry  (e0 : Nat) : (s.fresh).entry e0 = s.entry e0 := rfl
@[simp] theorem fresh_owner  (u0 : Nat) : (s.fresh).owner u0 = s.owner u0 := rfl
@[simp] theorem fresh_hmByte  (a0 : Nat) : (s.fresh).hmByte a0 = s.hmByte a0 := rfl
@[simp] theorem fresh_sramWord  (a0 : Nat) : (s.fresh).sramWord a0 = s.sramWord a0 := rfl

/-! ### emit -/

@[simp] theorem emit_pending (x : Out) : (s.emit x).pending = s.pending := rfl
@[simp] theorem emit_now (x : Out) : (s.emit x).now = s.now := rfl
@[simp] theorem emit_freeCtr (x : Out) : (s.emit x).freeCtr = s.freeCtr := rfl
@[simp] theorem emit_regs (x : Out) : (s.emit x).regs = s.regs := rfl
@[simp] theorem emit_sram (x : Out) : (s.emit x).sram = s.sram := rfl
@[simp] theorem emit_latches (x : Out) : (s.emit x).latches = s.latches := rfl
@[simp] theorem emit_intc (x : Out) : (s.emit x).intc = s.intc := rfl
@[simp] theorem emit_fc (x : Out) : (s.emit x).fc = s.fc := rfl
@[simp] theorem emit_orbit (x : Out) : (s.emit x).orbit = s.orbit := rfl
@[simp] theorem emit_pipes (x : Out) : (s.emit x).pipes = s.pipes := rfl
@[simp] theorem emit_hm (x : Out) : (s.emit x).hm = s.hm := rfl
@[simp] theorem emit_bc (x : Out) : (s.emit x).bc = s.bc := rfl
@[simp] theorem emit_cg (x : Out) : (s.emit x).cg = s.cg := rfl
@[simp] theorem emit_clk (x : Out) : (s.emit x).clk = s.clk := rfl
@[simp] theorem emit_pwr (x : Out) : (s.emit x).pwr = s.pwr := rfl
@[simp] theorem emit_dma (x : Out) : (s.emit x).dma = s.dma := rfl
@[simp] theorem emit_dec (x : Out) : (s.emit x).dec = s.dec := rfl
@[simp] theorem emit_enc (x : Out) : (s.emit x).enc = s.enc := rfl
@[simp] theorem emit_ak (x : Out) : (s.emit x).ak = s.ak := rfl
@[simp] theorem emit_od (x : Out) : (s.emit x).od = s.od := rfl
@[simp] theorem emit_emb (x : Out) : (s.emit x).emb = s.emb := rfl
@[simp] theorem emit_kin (x : Out) : (s.emit x).kin = s.kin := rfl
@[simp] theorem emit_sec (x : Out) : (s.emit x).sec = s.sec := rfl
@[simp] theorem emit_flash (x : Out) : (s.emit x).flash = s.flash := rfl
@[simp] theorem emit_pins (x : Out) : (s.emit x).pins = s.pins := rfl
@[simp] theorem emit_get (x : Out) (g : FRef) : (s.emit x).get g = s.get g := rfl
@[simp] theorem emit_is (x : Out) (g : FRef) : (s.emit x).is g = s.is g := rfl
@[simp] theorem emit_reg (x : Out) (a0 : Nat) : (s.emit x).reg a0 = s.reg a0 := rfl
@[simp] theorem emit_pipe (x : Out) (p0 : Nat) : (s.emit x).pipe p0 = s.pipe p0 := rfl
@[simp] theorem emit_handle (x : Out) (h0 : Nat) : (s.emit x).handle h0 = s.handle h0 := rfl
@[simp] theorem emit_port (x : Out) (p0 : Nat) : (s.emit x).port p0 = s.port p0 := rfl
@[simp] theorem emit_pll (x : Out) (i0 : Nat) : (s.emit x).pll i0 = s.pll i0 := rfl
@[simp] theorem emit_src (x : Out) (n0 : Nat) : (s.emit x).src n0 = s.src n0 := rfl
@[simp] theorem emit_tgt (x : Out) (t0 : Nat) : (s.emit x).tgt t0 = s.tgt t0 := rfl
@[simp] theorem emit_chan (x : Out) (c0 : Nat) : (s.emit x).chan c0 = s.chan c0 := rfl
@[simp] theorem emit_dses (x : Out) (i0 : Nat) : (s.emit x).dses i0 = s.dses i0 := rfl
@[simp] theorem emit_eses (x : Out) (i0 : Nat) : (s.emit x).eses i0 = s.eses i0 := rfl
@[simp] theorem emit_tt (x : Out) (i0 : Nat) : (s.emit x).tt i0 = s.tt i0 := rfl
@[simp] theorem emit_entry (x : Out) (e0 : Nat) : (s.emit x).entry e0 = s.entry e0 := rfl
@[simp] theorem emit_owner (x : Out) (u0 : Nat) : (s.emit x).owner u0 = s.owner u0 := rfl
@[simp] theorem emit_hmByte (x : Out) (a0 : Nat) : (s.emit x).hmByte a0 = s.hmByte a0 := rfl
@[simp] theorem emit_sramWord (x : Out) (a0 : Nat) : (s.emit x).sramWord a0 = s.sramWord a0 := rfl

/-! ### tick -/

@[simp] theorem tick_pending  : (s.tick).pending = s.pending := rfl
@[simp] theorem tick_outbox  : (s.tick).outbox = s.outbox := rfl
@[simp] theorem tick_now  : (s.tick).now = s.now := rfl
@[simp] theorem tick_regs  : (s.tick).regs = s.regs := rfl
@[simp] theorem tick_sram  : (s.tick).sram = s.sram := rfl
@[simp] theorem tick_latches  : (s.tick).latches = s.latches := rfl
@[simp] theorem tick_intc  : (s.tick).intc = s.intc := rfl
@[simp] theorem tick_fc  : (s.tick).fc = s.fc := rfl
@[simp] theorem tick_orbit  : (s.tick).orbit = s.orbit := rfl
@[simp] theorem tick_pipes  : (s.tick).pipes = s.pipes := rfl
@[simp] theorem tick_hm  : (s.tick).hm = s.hm := rfl
@[simp] theorem tick_bc  : (s.tick).bc = s.bc := rfl
@[simp] theorem tick_cg  : (s.tick).cg = s.cg := rfl
@[simp] theorem tick_clk  : (s.tick).clk = s.clk := rfl
@[simp] theorem tick_pwr  : (s.tick).pwr = s.pwr := rfl
@[simp] theorem tick_dma  : (s.tick).dma = s.dma := rfl
@[simp] theorem tick_dec  : (s.tick).dec = s.dec := rfl
@[simp] theorem tick_enc  : (s.tick).enc = s.enc := rfl
@[simp] theorem tick_ak  : (s.tick).ak = s.ak := rfl
@[simp] theorem tick_od  : (s.tick).od = s.od := rfl
@[simp] theorem tick_emb  : (s.tick).emb = s.emb := rfl
@[simp] theorem tick_kin  : (s.tick).kin = s.kin := rfl
@[simp] theorem tick_sec  : (s.tick).sec = s.sec := rfl
@[simp] theorem tick_flash  : (s.tick).flash = s.flash := rfl
@[simp] theorem tick_pins  : (s.tick).pins = s.pins := rfl
@[simp] theorem tick_get  (g : FRef) : (s.tick).get g = s.get g := rfl
@[simp] theorem tick_is  (g : FRef) : (s.tick).is g = s.is g := rfl
@[simp] theorem tick_reg  (a0 : Nat) : (s.tick).reg a0 = s.reg a0 := rfl
@[simp] theorem tick_pipe  (p0 : Nat) : (s.tick).pipe p0 = s.pipe p0 := rfl
@[simp] theorem tick_handle  (h0 : Nat) : (s.tick).handle h0 = s.handle h0 := rfl
@[simp] theorem tick_port  (p0 : Nat) : (s.tick).port p0 = s.port p0 := rfl
@[simp] theorem tick_pll  (i0 : Nat) : (s.tick).pll i0 = s.pll i0 := rfl
@[simp] theorem tick_src  (n0 : Nat) : (s.tick).src n0 = s.src n0 := rfl
@[simp] theorem tick_tgt  (t0 : Nat) : (s.tick).tgt t0 = s.tgt t0 := rfl
@[simp] theorem tick_chan  (c0 : Nat) : (s.tick).chan c0 = s.chan c0 := rfl
@[simp] theorem tick_dses  (i0 : Nat) : (s.tick).dses i0 = s.dses i0 := rfl
@[simp] theorem tick_eses  (i0 : Nat) : (s.tick).eses i0 = s.eses i0 := rfl
@[simp] theorem tick_tt  (i0 : Nat) : (s.tick).tt i0 = s.tt i0 := rfl
@[simp] theorem tick_entry  (e0 : Nat) : (s.tick).entry e0 = s.entry e0 := rfl
@[simp] theorem tick_owner  (u0 : Nat) : (s.tick).owner u0 = s.owner u0 := rfl
@[simp] theorem tick_hmByte  (a0 : Nat) : (s.tick).hmByte a0 = s.hmByte a0 := rfl
@[simp] theorem tick_sramWord  (a0 : Nat) : (s.tick).sramWord a0 = s.sramWord a0 := rfl

/-! ### settled -/

@[simp] theorem settled_pending  : (s.settled).pending = s.pending := rfl
@[simp] theorem settled_outbox  : (s.settled).outbox = s.outbox := rfl
@[simp] theorem settled_now  : (s.settled).now = s.now := rfl
@[simp] theorem settled_freeCtr  : (s.settled).freeCtr = s.freeCtr := rfl
@[simp] theorem settled_regs  : (s.settled).regs = s.regs := rfl
@[simp] theorem settled_sram  : (s.settled).sram = s.sram := rfl
@[simp] theorem settled_latches  : (s.settled).latches = s.latches := rfl
@[simp] theorem settled_intc  : (s.settled).intc = s.intc := rfl
@[simp] theorem settled_fc  : (s.settled).fc = s.fc := rfl
@[simp] theorem settled_orbit  : (s.settled).orbit = s.orbit := rfl
@[simp] theorem settled_pipes  : (s.settled).pipes = s.pipes := rfl
@[simp] theorem settled_hm  : (s.settled).hm = s.hm := rfl
@[simp] theorem settled_bc  : (s.settled).bc = s.bc := rfl
@[simp] theorem settled_cg  : (s.settled).cg = s.cg := rfl
@[simp] theorem settled_clk  : (s.settled).clk = s.clk := rfl
@[simp] theorem settled_pwr  : (s.settled).pwr = s.pwr := rfl
@[simp] theorem settled_dma  : (s.settled).dma = s.dma := rfl
@[simp] theorem settled_dec  : (s.settled).dec = s.dec := rfl
@[simp] theorem settled_enc  : (s.settled).enc = s.enc := rfl
@[simp] theorem settled_ak  : (s.settled).ak = s.ak := rfl
@[simp] theorem settled_od  : (s.settled).od = s.od := rfl
@[simp] theorem settled_emb  : (s.settled).emb = s.emb := rfl
@[simp] theorem settled_kin  : (s.settled).kin = s.kin := rfl
@[simp] theorem settled_sec  : (s.settled).sec = s.sec := rfl
@[simp] theorem settled_flash  : (s.settled).flash = s.flash := rfl
@[simp] theorem settled_get  (g : FRef) : (s.settled).get g = s.get g := rfl
@[simp] theorem settled_is  (g : FRef) : (s.settled).is g = s.is g := rfl
@[simp] theorem settled_reg  (a0 : Nat) : (s.settled).reg a0 = s.reg a0 := rfl
@[simp] theorem settled_pipe  (p0 : Nat) : (s.settled).pipe p0 = s.pipe p0 := rfl
@[simp] theorem settled_handle  (h0 : Nat) : (s.settled).handle h0 = s.handle h0 := rfl
@[simp] theorem settled_port  (p0 : Nat) : (s.settled).port p0 = s.port p0 := rfl
@[simp] theorem settled_pll  (i0 : Nat) : (s.settled).pll i0 = s.pll i0 := rfl
@[simp] theorem settled_src  (n0 : Nat) : (s.settled).src n0 = s.src n0 := rfl
@[simp] theorem settled_tgt  (t0 : Nat) : (s.settled).tgt t0 = s.tgt t0 := rfl
@[simp] theorem settled_chan  (c0 : Nat) : (s.settled).chan c0 = s.chan c0 := rfl
@[simp] theorem settled_dses  (i0 : Nat) : (s.settled).dses i0 = s.dses i0 := rfl
@[simp] theorem settled_eses  (i0 : Nat) : (s.settled).eses i0 = s.eses i0 := rfl
@[simp] theorem settled_tt  (i0 : Nat) : (s.settled).tt i0 = s.tt i0 := rfl
@[simp] theorem settled_entry  (e0 : Nat) : (s.settled).entry e0 = s.entry e0 := rfl
@[simp] theorem settled_owner  (u0 : Nat) : (s.settled).owner u0 = s.owner u0 := rfl
@[simp] theorem settled_hmByte  (a0 : Nat) : (s.settled).hmByte a0 = s.hmByte a0 := rfl
@[simp] theorem settled_sramWord  (a0 : Nat) : (s.settled).sramWord a0 = s.sramWord a0 := rfl

/-! ### setReg -/

@[simp] theorem setReg_pending (a : Nat) (w : Word) : (s.setReg a w).pending = s.pending := rfl
@[simp] theorem setReg_outbox (a : Nat) (w : Word) : (s.setReg a w).outbox = s.outbox := rfl
@[simp] theorem setReg_now (a : Nat) (w : Word) : (s.setReg a w).now = s.now := rfl
@[simp] theorem setReg_freeCtr (a : Nat) (w : Word) : (s.setReg a w).freeCtr = s.freeCtr := rfl
@[simp] theorem setReg_sram (a : Nat) (w : Word) : (s.setReg a w).sram = s.sram := rfl
@[simp] theorem setReg_latches (a : Nat) (w : Word) : (s.setReg a w).latches = s.latches := rfl
@[simp] theorem setReg_intc (a : Nat) (w : Word) : (s.setReg a w).intc = s.intc := rfl
@[simp] theorem setReg_fc (a : Nat) (w : Word) : (s.setReg a w).fc = s.fc := rfl
@[simp] theorem setReg_orbit (a : Nat) (w : Word) : (s.setReg a w).orbit = s.orbit := rfl
@[simp] theorem setReg_pipes (a : Nat) (w : Word) : (s.setReg a w).pipes = s.pipes := rfl
@[simp] theorem setReg_hm (a : Nat) (w : Word) : (s.setReg a w).hm = s.hm := rfl
@[simp] theorem setReg_bc (a : Nat) (w : Word) : (s.setReg a w).bc = s.bc := rfl
@[simp] theorem setReg_cg (a : Nat) (w : Word) : (s.setReg a w).cg = s.cg := rfl
@[simp] theorem setReg_clk (a : Nat) (w : Word) : (s.setReg a w).clk = s.clk := rfl
@[simp] theorem setReg_pwr (a : Nat) (w : Word) : (s.setReg a w).pwr = s.pwr := rfl
@[simp] theorem setReg_dma (a : Nat) (w : Word) : (s.setReg a w).dma = s.dma := rfl
@[simp] theorem setReg_dec (a : Nat) (w : Word) : (s.setReg a w).dec = s.dec := rfl
@[simp] theorem setReg_enc (a : Nat) (w : Word) : (s.setReg a w).enc = s.enc := rfl
@[simp] theorem setReg_ak (a : Nat) (w : Word) : (s.setReg a w).ak = s.ak := rfl
@[simp] theorem setReg_od (a : Nat) (w : Word) : (s.setReg a w).od = s.od := rfl
@[simp] theorem setReg_emb (a : Nat) (w : Word) : (s.setReg a w).emb = s.emb := rfl
@[simp] theorem setReg_kin (a : Nat) (w : Word) : (s.setReg a w).kin = s.kin := rfl
@[simp] theorem setReg_sec (a : Nat) (w : Word) : (s.setReg a w).sec = s.sec := rfl
@[simp] theorem setReg_flash (a : Nat) (w : Word) : (s.setReg a w).flash = s.flash := rfl
@[simp] theorem setReg_pins (a : Nat) (w : Word) : (s.setReg a w).pins = s.pins := rfl
@[simp] theorem setReg_pipe (a : Nat) (w : Word) (p0 : Nat) : (s.setReg a w).pipe p0 = s.pipe p0 := rfl
@[simp] theorem setReg_handle (a : Nat) (w : Word) (h0 : Nat) : (s.setReg a w).handle h0 = s.handle h0 := rfl
@[simp] theorem setReg_port (a : Nat) (w : Word) (p0 : Nat) : (s.setReg a w).port p0 = s.port p0 := rfl
@[simp] theorem setReg_pll (a : Nat) (w : Word) (i0 : Nat) : (s.setReg a w).pll i0 = s.pll i0 := rfl
@[simp] theorem setReg_src (a : Nat) (w : Word) (n0 : Nat) : (s.setReg a w).src n0 = s.src n0 := rfl
@[simp] theorem setReg_tgt (a : Nat) (w : Word) (t0 : Nat) : (s.setReg a w).tgt t0 = s.tgt t0 := rfl
@[simp] theorem setReg_chan (a : Nat) (w : Word) (c0 : Nat) : (s.setReg a w).chan c0 = s.chan c0 := rfl
@[simp] theorem setReg_dses (a : Nat) (w : Word) (i0 : Nat) : (s.setReg a w).dses i0 = s.dses i0 := rfl
@[simp] theorem setReg_eses (a : Nat) (w : Word) (i0 : Nat) : (s.setReg a w).eses i0 = s.eses i0 := rfl
@[simp] theorem setReg_tt (a : Nat) (w : Word) (i0 : Nat) : (s.setReg a w).tt i0 = s.tt i0 := rfl
@[simp] theorem setReg_entry (a : Nat) (w : Word) (e0 : Nat) : (s.setReg a w).entry e0 = s.entry e0 := rfl
@[simp] theorem setReg_hmByte (a : Nat) (w : Word) (a0 : Nat) : (s.setReg a w).hmByte a0 = s.hmByte a0 := rfl
@[simp] theorem setReg_sramWord (a : Nat) (w : Word) (a0 : Nat) : (s.setReg a w).sramWord a0 = s.sramWord a0 := rfl

/-! ### put -/

@[simp] theorem put_pending (f : FRef) (v : Nat) : (s.put f v).pending = s.pending := rfl
@[simp] theorem put_outbox (f : FRef) (v : Nat) : (s.put f v).outbox = s.outbox := rfl
@[simp] theorem put_now (f : FRef) (v : Nat) : (s.put f v).now = s.now := rfl
@[simp] theorem put_freeCtr (f : FRef) (v : Nat) : (s.put f v).freeCtr = s.freeCtr := rfl
@[simp] theorem put_sram (f : FRef) (v : Nat) : (s.put f v).sram = s.sram := rfl
@[simp] theorem put_latches (f : FRef) (v : Nat) : (s.put f v).latches = s.latches := rfl
@[simp] theorem put_intc (f : FRef) (v : Nat) : (s.put f v).intc = s.intc := rfl
@[simp] theorem put_fc (f : FRef) (v : Nat) : (s.put f v).fc = s.fc := rfl
@[simp] theorem put_orbit (f : FRef) (v : Nat) : (s.put f v).orbit = s.orbit := rfl
@[simp] theorem put_pipes (f : FRef) (v : Nat) : (s.put f v).pipes = s.pipes := rfl
@[simp] theorem put_hm (f : FRef) (v : Nat) : (s.put f v).hm = s.hm := rfl
@[simp] theorem put_bc (f : FRef) (v : Nat) : (s.put f v).bc = s.bc := rfl
@[simp] theorem put_cg (f : FRef) (v : Nat) : (s.put f v).cg = s.cg := rfl
@[simp] theorem put_clk (f : FRef) (v : Nat) : (s.put f v).clk = s.clk := rfl
@[simp] theorem put_pwr (f : FRef) (v : Nat) : (s.put f v).pwr = s.pwr := rfl
@[simp] theorem put_dma (f : FRef) (v : Nat) : (s.put f v).dma = s.dma := rfl
@[simp] theorem put_dec (f : FRef) (v : Nat) : (s.put f v).dec = s.dec := rfl
@[simp] theorem put_enc (f : FRef) (v : Nat) : (s.put f v).enc = s.enc := rfl
@[simp] theorem put_ak (f : FRef) (v : Nat) : (s.put f v).ak = s.ak := rfl
@[simp] theorem put_od (f : FRef) (v : Nat) : (s.put f v).od = s.od := rfl
@[simp] theorem put_emb (f : FRef) (v : Nat) : (s.put f v).emb = s.emb := rfl
@[simp] theorem put_kin (f : FRef) (v : Nat) : (s.put f v).kin = s.kin := rfl
@[simp] theorem put_sec (f : FRef) (v : Nat) : (s.put f v).sec = s.sec := rfl
@[simp] theorem put_flash (f : FRef) (v : Nat) : (s.put f v).flash = s.flash := rfl
@[simp] theorem put_pins (f : FRef) (v : Nat) : (s.put f v).pins = s.pins := rfl
@[simp] theorem put_pipe (f : FRef) (v : Nat) (p0 : Nat) : (s.put f v).pipe p0 = s.pipe p0 := rfl
@[simp] theorem put_handle (f : FRef) (v : Nat) (h0 : Nat) : (s.put f v).handle h0 = s.handle h0 := rfl
@[simp] theorem put_port (f : FRef) (v : Nat) (p0 : Nat) : (s.put f v).port p0 = s.port p0 := rfl
@[simp] theorem put_pll (f : FRef) (v : Nat) (i0 : Nat) : (s.put f v).pll i0 = s.pll i0 := rfl
@[simp] theorem put_src (f : FRef) (v : Nat) (n0 : Nat) : (s.put f v).src n0 = s.src n0 := rfl
@[simp] theorem put_tgt (f : FRef) (v : Nat) (t0 : Nat) : (s.put f v).tgt t0 = s.tgt t0 := rfl
@[simp] theorem put_chan (f : FRef) (v : Nat) (c0 : Nat) : (s.put f v).chan c0 = s.chan c0 := rfl
@[simp] theorem put_dses (f : FRef) (v : Nat) (i0 : Nat) : (s.put f v).dses i0 = s.dses i0 := rfl
@[simp] theorem put_eses (f : FRef) (v : Nat) (i0 : Nat) : (s.put f v).eses i0 = s.eses i0 := rfl
@[simp] theorem put_tt (f : FRef) (v : Nat) (i0 : Nat) : (s.put f v).tt i0 = s.tt i0 := rfl
@[simp] theorem put_entry (f : FRef) (v : Nat) (e0 : Nat) : (s.put f v).entry e0 = s.entry e0 := rfl
@[simp] theorem put_hmByte (f : FRef) (v : Nat) (a0 : Nat) : (s.put f v).hmByte a0 = s.hmByte a0 := rfl
@[simp] theorem put_sramWord (f : FRef) (v : Nat) (a0 : Nat) : (s.put f v).sramWord a0 = s.sramWord a0 := rfl

/-! ### stampReport -/

@[simp] theorem stampReport_pending (f : FaultId) : (s.stampReport f).pending = s.pending := rfl
@[simp] theorem stampReport_outbox (f : FaultId) : (s.stampReport f).outbox = s.outbox := rfl
@[simp] theorem stampReport_now (f : FaultId) : (s.stampReport f).now = s.now := rfl
@[simp] theorem stampReport_freeCtr (f : FaultId) : (s.stampReport f).freeCtr = s.freeCtr := rfl
@[simp] theorem stampReport_regs (f : FaultId) : (s.stampReport f).regs = s.regs := rfl
@[simp] theorem stampReport_sram (f : FaultId) : (s.stampReport f).sram = s.sram := rfl
@[simp] theorem stampReport_latches (f : FaultId) : (s.stampReport f).latches = s.latches := rfl
@[simp] theorem stampReport_intc (f : FaultId) : (s.stampReport f).intc = s.intc := rfl
@[simp] theorem stampReport_orbit (f : FaultId) : (s.stampReport f).orbit = s.orbit := rfl
@[simp] theorem stampReport_pipes (f : FaultId) : (s.stampReport f).pipes = s.pipes := rfl
@[simp] theorem stampReport_hm (f : FaultId) : (s.stampReport f).hm = s.hm := rfl
@[simp] theorem stampReport_bc (f : FaultId) : (s.stampReport f).bc = s.bc := rfl
@[simp] theorem stampReport_cg (f : FaultId) : (s.stampReport f).cg = s.cg := rfl
@[simp] theorem stampReport_clk (f : FaultId) : (s.stampReport f).clk = s.clk := rfl
@[simp] theorem stampReport_pwr (f : FaultId) : (s.stampReport f).pwr = s.pwr := rfl
@[simp] theorem stampReport_dma (f : FaultId) : (s.stampReport f).dma = s.dma := rfl
@[simp] theorem stampReport_dec (f : FaultId) : (s.stampReport f).dec = s.dec := rfl
@[simp] theorem stampReport_enc (f : FaultId) : (s.stampReport f).enc = s.enc := rfl
@[simp] theorem stampReport_ak (f : FaultId) : (s.stampReport f).ak = s.ak := rfl
@[simp] theorem stampReport_od (f : FaultId) : (s.stampReport f).od = s.od := rfl
@[simp] theorem stampReport_emb (f : FaultId) : (s.stampReport f).emb = s.emb := rfl
@[simp] theorem stampReport_kin (f : FaultId) : (s.stampReport f).kin = s.kin := rfl
@[simp] theorem stampReport_sec (f : FaultId) : (s.stampReport f).sec = s.sec := rfl
@[simp] theorem stampReport_flash (f : FaultId) : (s.stampReport f).flash = s.flash := rfl
@[simp] theorem stampReport_pins (f : FaultId) : (s.stampReport f).pins = s.pins := rfl
@[simp] theorem stampReport_get (f : FaultId) (g : FRef) : (s.stampReport f).get g = s.get g := rfl
@[simp] theorem stampReport_is (f : FaultId) (g : FRef) : (s.stampReport f).is g = s.is g := rfl
@[simp] theorem stampReport_reg (f : FaultId) (a0 : Nat) : (s.stampReport f).reg a0 = s.reg a0 := rfl
@[simp] theorem stampReport_pipe (f : FaultId) (p0 : Nat) : (s.stampReport f).pipe p0 = s.pipe p0 := rfl
@[simp] theorem stampReport_handle (f : FaultId) (h0 : Nat) : (s.stampReport f).handle h0 = s.handle h0 := rfl
@[simp] theorem stampReport_port (f : FaultId) (p0 : Nat) : (s.stampReport f).port p0 = s.port p0 := rfl
@[simp] theorem stampReport_pll (f : FaultId) (i0 : Nat) : (s.stampReport f).pll i0 = s.pll i0 := rfl
@[simp] theorem stampReport_src (f : FaultId) (n0 : Nat) : (s.stampReport f).src n0 = s.src n0 := rfl
@[simp] theorem stampReport_tgt (f : FaultId) (t0 : Nat) : (s.stampReport f).tgt t0 = s.tgt t0 := rfl
@[simp] theorem stampReport_chan (f : FaultId) (c0 : Nat) : (s.stampReport f).chan c0 = s.chan c0 := rfl
@[simp] theorem stampReport_dses (f : FaultId) (i0 : Nat) : (s.stampReport f).dses i0 = s.dses i0 := rfl
@[simp] theorem stampReport_eses (f : FaultId) (i0 : Nat) : (s.stampReport f).eses i0 = s.eses i0 := rfl
@[simp] theorem stampReport_tt (f : FaultId) (i0 : Nat) : (s.stampReport f).tt i0 = s.tt i0 := rfl
@[simp] theorem stampReport_entry (f : FaultId) (e0 : Nat) : (s.stampReport f).entry e0 = s.entry e0 := rfl
@[simp] theorem stampReport_owner (f : FaultId) (u0 : Nat) : (s.stampReport f).owner u0 = s.owner u0 := rfl
@[simp] theorem stampReport_hmByte (f : FaultId) (a0 : Nat) : (s.stampReport f).hmByte a0 = s.hmByte a0 := rfl
@[simp] theorem stampReport_sramWord (f : FaultId) (a0 : Nat) : (s.stampReport f).sramWord a0 = s.sramWord a0 := rfl

/-! ### logFault -/

@[simp] theorem logFault_pending (e : LogEntry) : (s.logFault e).pending = s.pending := rfl
@[simp] theorem logFault_outbox (e : LogEntry) : (s.logFault e).outbox = s.outbox := rfl
@[simp] theorem logFault_now (e : LogEntry) : (s.logFault e).now = s.now := rfl
@[simp] theorem logFault_freeCtr (e : LogEntry) : (s.logFault e).freeCtr = s.freeCtr := rfl
@[simp] theorem logFault_sram (e : LogEntry) : (s.logFault e).sram = s.sram := rfl
@[simp] theorem logFault_latches (e : LogEntry) : (s.logFault e).latches = s.latches := rfl
@[simp] theorem logFault_intc (e : LogEntry) : (s.logFault e).intc = s.intc := rfl
@[simp] theorem logFault_orbit (e : LogEntry) : (s.logFault e).orbit = s.orbit := rfl
@[simp] theorem logFault_pipes (e : LogEntry) : (s.logFault e).pipes = s.pipes := rfl
@[simp] theorem logFault_hm (e : LogEntry) : (s.logFault e).hm = s.hm := rfl
@[simp] theorem logFault_bc (e : LogEntry) : (s.logFault e).bc = s.bc := rfl
@[simp] theorem logFault_cg (e : LogEntry) : (s.logFault e).cg = s.cg := rfl
@[simp] theorem logFault_clk (e : LogEntry) : (s.logFault e).clk = s.clk := rfl
@[simp] theorem logFault_pwr (e : LogEntry) : (s.logFault e).pwr = s.pwr := rfl
@[simp] theorem logFault_dma (e : LogEntry) : (s.logFault e).dma = s.dma := rfl
@[simp] theorem logFault_dec (e : LogEntry) : (s.logFault e).dec = s.dec := rfl
@[simp] theorem logFault_enc (e : LogEntry) : (s.logFault e).enc = s.enc := rfl
@[simp] theorem logFault_ak (e : LogEntry) : (s.logFault e).ak = s.ak := rfl
@[simp] theorem logFault_od (e : LogEntry) : (s.logFault e).od = s.od := rfl
@[simp] theorem logFault_emb (e : LogEntry) : (s.logFault e).emb = s.emb := rfl
@[simp] theorem logFault_kin (e : LogEntry) : (s.logFault e).kin = s.kin := rfl
@[simp] theorem logFault_sec (e : LogEntry) : (s.logFault e).sec = s.sec := rfl
@[simp] theorem logFault_flash (e : LogEntry) : (s.logFault e).flash = s.flash := rfl
@[simp] theorem logFault_pins (e : LogEntry) : (s.logFault e).pins = s.pins := rfl
@[simp] theorem logFault_pipe (e : LogEntry) (p0 : Nat) : (s.logFault e).pipe p0 = s.pipe p0 := rfl
@[simp] theorem logFault_handle (e : LogEntry) (h0 : Nat) : (s.logFault e).handle h0 = s.handle h0 := rfl
@[simp] theorem logFault_port (e : LogEntry) (p0 : Nat) : (s.logFault e).port p0 = s.port p0 := rfl
@[simp] theorem logFault_pll (e : LogEntry) (i0 : Nat) : (s.logFault e).pll i0 = s.pll i0 := rfl
@[simp] theorem logFault_src (e : LogEntry) (n0 : Nat) : (s.logFault e).src n0 = s.src n0 := rfl
@[simp] theorem logFault_tgt (e : LogEntry) (t0 : Nat) : (s.logFault e).tgt t0 = s.tgt t0 := rfl
@[simp] theorem logFault_chan (e : LogEntry) (c0 : Nat) : (s.logFault e).chan c0 = s.chan c0 := rfl
@[simp] theorem logFault_dses (e : LogEntry) (i0 : Nat) : (s.logFault e).dses i0 = s.dses i0 := rfl
@[simp] theorem logFault_eses (e : LogEntry) (i0 : Nat) : (s.logFault e).eses i0 = s.eses i0 := rfl
@[simp] theorem logFault_tt (e : LogEntry) (i0 : Nat) : (s.logFault e).tt i0 = s.tt i0 := rfl
@[simp] theorem logFault_entry (e : LogEntry) (e0 : Nat) : (s.logFault e).entry e0 = s.entry e0 := rfl
@[simp] theorem logFault_hmByte (e : LogEntry) (a0 : Nat) : (s.logFault e).hmByte a0 = s.hmByte a0 := rfl
@[simp] theorem logFault_sramWord (e : LogEntry) (a0 : Nat) : (s.logFault e).sramWord a0 = s.sramWord a0 := rfl

/-! ### orBits -/

@[simp] theorem orBits_pending (f : FRef) (m : Nat) : (s.orBits f m).pending = s.pending := rfl
@[simp] theorem orBits_outbox (f : FRef) (m : Nat) : (s.orBits f m).outbox = s.outbox := rfl
@[simp] theorem orBits_now (f : FRef) (m : Nat) : (s.orBits f m).now = s.now := rfl
@[simp] theorem orBits_freeCtr (f : FRef) (m : Nat) : (s.orBits f m).freeCtr = s.freeCtr := rfl
@[simp] theorem orBits_sram (f : FRef) (m : Nat) : (s.orBits f m).sram = s.sram := rfl
@[simp] theorem orBits_latches (f : FRef) (m : Nat) : (s.orBits f m).latches = s.latches := rfl
@[simp] theorem orBits_intc (f : FRef) (m : Nat) : (s.orBits f m).intc = s.intc := rfl
@[simp] theorem orBits_fc (f : FRef) (m : Nat) : (s.orBits f m).fc = s.fc := rfl
@[simp] theorem orBits_orbit (f : FRef) (m : Nat) : (s.orBits f m).orbit = s.orbit := rfl
@[simp] theorem orBits_pipes (f : FRef) (m : Nat) : (s.orBits f m).pipes = s.pipes := rfl
@[simp] theorem orBits_hm (f : FRef) (m : Nat) : (s.orBits f m).hm = s.hm := rfl
@[simp] theorem orBits_bc (f : FRef) (m : Nat) : (s.orBits f m).bc = s.bc := rfl
@[simp] theorem orBits_cg (f : FRef) (m : Nat) : (s.orBits f m).cg = s.cg := rfl
@[simp] theorem orBits_clk (f : FRef) (m : Nat) : (s.orBits f m).clk = s.clk := rfl
@[simp] theorem orBits_pwr (f : FRef) (m : Nat) : (s.orBits f m).pwr = s.pwr := rfl
@[simp] theorem orBits_dma (f : FRef) (m : Nat) : (s.orBits f m).dma = s.dma := rfl
@[simp] theorem orBits_dec (f : FRef) (m : Nat) : (s.orBits f m).dec = s.dec := rfl
@[simp] theorem orBits_enc (f : FRef) (m : Nat) : (s.orBits f m).enc = s.enc := rfl
@[simp] theorem orBits_ak (f : FRef) (m : Nat) : (s.orBits f m).ak = s.ak := rfl
@[simp] theorem orBits_od (f : FRef) (m : Nat) : (s.orBits f m).od = s.od := rfl
@[simp] theorem orBits_emb (f : FRef) (m : Nat) : (s.orBits f m).emb = s.emb := rfl
@[simp] theorem orBits_kin (f : FRef) (m : Nat) : (s.orBits f m).kin = s.kin := rfl
@[simp] theorem orBits_sec (f : FRef) (m : Nat) : (s.orBits f m).sec = s.sec := rfl
@[simp] theorem orBits_flash (f : FRef) (m : Nat) : (s.orBits f m).flash = s.flash := rfl
@[simp] theorem orBits_pins (f : FRef) (m : Nat) : (s.orBits f m).pins = s.pins := rfl
@[simp] theorem orBits_pipe (f : FRef) (m : Nat) (p0 : Nat) : (s.orBits f m).pipe p0 = s.pipe p0 := rfl
@[simp] theorem orBits_handle (f : FRef) (m : Nat) (h0 : Nat) : (s.orBits f m).handle h0 = s.handle h0 := rfl
@[simp] theorem orBits_port (f : FRef) (m : Nat) (p0 : Nat) : (s.orBits f m).port p0 = s.port p0 := rfl
@[simp] theorem orBits_pll (f : FRef) (m : Nat) (i0 : Nat) : (s.orBits f m).pll i0 = s.pll i0 := rfl
@[simp] theorem orBits_src (f : FRef) (m : Nat) (n0 : Nat) : (s.orBits f m).src n0 = s.src n0 := rfl
@[simp] theorem orBits_tgt (f : FRef) (m : Nat) (t0 : Nat) : (s.orBits f m).tgt t0 = s.tgt t0 := rfl
@[simp] theorem orBits_chan (f : FRef) (m : Nat) (c0 : Nat) : (s.orBits f m).chan c0 = s.chan c0 := rfl
@[simp] theorem orBits_dses (f : FRef) (m : Nat) (i0 : Nat) : (s.orBits f m).dses i0 = s.dses i0 := rfl
@[simp] theorem orBits_eses (f : FRef) (m : Nat) (i0 : Nat) : (s.orBits f m).eses i0 = s.eses i0 := rfl
@[simp] theorem orBits_tt (f : FRef) (m : Nat) (i0 : Nat) : (s.orBits f m).tt i0 = s.tt i0 := rfl
@[simp] theorem orBits_entry (f : FRef) (m : Nat) (e0 : Nat) : (s.orBits f m).entry e0 = s.entry e0 := rfl
@[simp] theorem orBits_hmByte (f : FRef) (m : Nat) (a0 : Nat) : (s.orBits f m).hmByte a0 = s.hmByte a0 := rfl
@[simp] theorem orBits_sramWord (f : FRef) (m : Nat) (a0 : Nat) : (s.orBits f m).sramWord a0 = s.sramWord a0 := rfl

/-! ### clrBits -/

@[simp] theorem clrBits_pending (f : FRef) (m : Nat) : (s.clrBits f m).pending = s.pending := rfl
@[simp] theorem clrBits_outbox (f : FRef) (m : Nat) : (s.clrBits f m).outbox = s.outbox := rfl
@[simp] theorem clrBits_now (f : FRef) (m : Nat) : (s.clrBits f m).now = s.now := rfl
@[simp] theorem clrBits_freeCtr (f : FRef) (m : Nat) : (s.clrBits f m).freeCtr = s.freeCtr := rfl
@[simp] theorem clrBits_sram (f : FRef) (m : Nat) : (s.clrBits f m).sram = s.sram := rfl
@[simp] theorem clrBits_latches (f : FRef) (m : Nat) : (s.clrBits f m).latches = s.latches := rfl
@[simp] theorem clrBits_intc (f : FRef) (m : Nat) : (s.clrBits f m).intc = s.intc := rfl
@[simp] theorem clrBits_fc (f : FRef) (m : Nat) : (s.clrBits f m).fc = s.fc := rfl
@[simp] theorem clrBits_orbit (f : FRef) (m : Nat) : (s.clrBits f m).orbit = s.orbit := rfl
@[simp] theorem clrBits_pipes (f : FRef) (m : Nat) : (s.clrBits f m).pipes = s.pipes := rfl
@[simp] theorem clrBits_hm (f : FRef) (m : Nat) : (s.clrBits f m).hm = s.hm := rfl
@[simp] theorem clrBits_bc (f : FRef) (m : Nat) : (s.clrBits f m).bc = s.bc := rfl
@[simp] theorem clrBits_cg (f : FRef) (m : Nat) : (s.clrBits f m).cg = s.cg := rfl
@[simp] theorem clrBits_clk (f : FRef) (m : Nat) : (s.clrBits f m).clk = s.clk := rfl
@[simp] theorem clrBits_pwr (f : FRef) (m : Nat) : (s.clrBits f m).pwr = s.pwr := rfl
@[simp] theorem clrBits_dma (f : FRef) (m : Nat) : (s.clrBits f m).dma = s.dma := rfl
@[simp] theorem clrBits_dec (f : FRef) (m : Nat) : (s.clrBits f m).dec = s.dec := rfl
@[simp] theorem clrBits_enc (f : FRef) (m : Nat) : (s.clrBits f m).enc = s.enc := rfl
@[simp] theorem clrBits_ak (f : FRef) (m : Nat) : (s.clrBits f m).ak = s.ak := rfl
@[simp] theorem clrBits_od (f : FRef) (m : Nat) : (s.clrBits f m).od = s.od := rfl
@[simp] theorem clrBits_emb (f : FRef) (m : Nat) : (s.clrBits f m).emb = s.emb := rfl
@[simp] theorem clrBits_kin (f : FRef) (m : Nat) : (s.clrBits f m).kin = s.kin := rfl
@[simp] theorem clrBits_sec (f : FRef) (m : Nat) : (s.clrBits f m).sec = s.sec := rfl
@[simp] theorem clrBits_flash (f : FRef) (m : Nat) : (s.clrBits f m).flash = s.flash := rfl
@[simp] theorem clrBits_pins (f : FRef) (m : Nat) : (s.clrBits f m).pins = s.pins := rfl
@[simp] theorem clrBits_pipe (f : FRef) (m : Nat) (p0 : Nat) : (s.clrBits f m).pipe p0 = s.pipe p0 := rfl
@[simp] theorem clrBits_handle (f : FRef) (m : Nat) (h0 : Nat) : (s.clrBits f m).handle h0 = s.handle h0 := rfl
@[simp] theorem clrBits_port (f : FRef) (m : Nat) (p0 : Nat) : (s.clrBits f m).port p0 = s.port p0 := rfl
@[simp] theorem clrBits_pll (f : FRef) (m : Nat) (i0 : Nat) : (s.clrBits f m).pll i0 = s.pll i0 := rfl
@[simp] theorem clrBits_src (f : FRef) (m : Nat) (n0 : Nat) : (s.clrBits f m).src n0 = s.src n0 := rfl
@[simp] theorem clrBits_tgt (f : FRef) (m : Nat) (t0 : Nat) : (s.clrBits f m).tgt t0 = s.tgt t0 := rfl
@[simp] theorem clrBits_chan (f : FRef) (m : Nat) (c0 : Nat) : (s.clrBits f m).chan c0 = s.chan c0 := rfl
@[simp] theorem clrBits_dses (f : FRef) (m : Nat) (i0 : Nat) : (s.clrBits f m).dses i0 = s.dses i0 := rfl
@[simp] theorem clrBits_eses (f : FRef) (m : Nat) (i0 : Nat) : (s.clrBits f m).eses i0 = s.eses i0 := rfl
@[simp] theorem clrBits_tt (f : FRef) (m : Nat) (i0 : Nat) : (s.clrBits f m).tt i0 = s.tt i0 := rfl
@[simp] theorem clrBits_entry (f : FRef) (m : Nat) (e0 : Nat) : (s.clrBits f m).entry e0 = s.entry e0 := rfl
@[simp] theorem clrBits_hmByte (f : FRef) (m : Nat) (a0 : Nat) : (s.clrBits f m).hmByte a0 = s.hmByte a0 := rfl
@[simp] theorem clrBits_sramWord (f : FRef) (m : Nat) (a0 : Nat) : (s.clrBits f m).sramWord a0 = s.sramWord a0 := rfl

/-! ### count -/

@[simp] theorem count_pending (f : FRef) (k : Nat) : (s.count f k).pending = s.pending := rfl
@[simp] theorem count_outbox (f : FRef) (k : Nat) : (s.count f k).outbox = s.outbox := rfl
@[simp] theorem count_now (f : FRef) (k : Nat) : (s.count f k).now = s.now := rfl
@[simp] theorem count_freeCtr (f : FRef) (k : Nat) : (s.count f k).freeCtr = s.freeCtr := rfl
@[simp] theorem count_sram (f : FRef) (k : Nat) : (s.count f k).sram = s.sram := rfl
@[simp] theorem count_latches (f : FRef) (k : Nat) : (s.count f k).latches = s.latches := rfl
@[simp] theorem count_intc (f : FRef) (k : Nat) : (s.count f k).intc = s.intc := rfl
@[simp] theorem count_fc (f : FRef) (k : Nat) : (s.count f k).fc = s.fc := rfl
@[simp] theorem count_orbit (f : FRef) (k : Nat) : (s.count f k).orbit = s.orbit := rfl
@[simp] theorem count_pipes (f : FRef) (k : Nat) : (s.count f k).pipes = s.pipes := rfl
@[simp] theorem count_hm (f : FRef) (k : Nat) : (s.count f k).hm = s.hm := rfl
@[simp] theorem count_bc (f : FRef) (k : Nat) : (s.count f k).bc = s.bc := rfl
@[simp] theorem count_cg (f : FRef) (k : Nat) : (s.count f k).cg = s.cg := rfl
@[simp] theorem count_clk (f : FRef) (k : Nat) : (s.count f k).clk = s.clk := rfl
@[simp] theorem count_pwr (f : FRef) (k : Nat) : (s.count f k).pwr = s.pwr := rfl
@[simp] theorem count_dma (f : FRef) (k : Nat) : (s.count f k).dma = s.dma := rfl
@[simp] theorem count_dec (f : FRef) (k : Nat) : (s.count f k).dec = s.dec := rfl
@[simp] theorem count_enc (f : FRef) (k : Nat) : (s.count f k).enc = s.enc := rfl
@[simp] theorem count_ak (f : FRef) (k : Nat) : (s.count f k).ak = s.ak := rfl
@[simp] theorem count_od (f : FRef) (k : Nat) : (s.count f k).od = s.od := rfl
@[simp] theorem count_emb (f : FRef) (k : Nat) : (s.count f k).emb = s.emb := rfl
@[simp] theorem count_kin (f : FRef) (k : Nat) : (s.count f k).kin = s.kin := rfl
@[simp] theorem count_sec (f : FRef) (k : Nat) : (s.count f k).sec = s.sec := rfl
@[simp] theorem count_flash (f : FRef) (k : Nat) : (s.count f k).flash = s.flash := rfl
@[simp] theorem count_pins (f : FRef) (k : Nat) : (s.count f k).pins = s.pins := rfl
@[simp] theorem count_pipe (f : FRef) (k : Nat) (p0 : Nat) : (s.count f k).pipe p0 = s.pipe p0 := rfl
@[simp] theorem count_handle (f : FRef) (k : Nat) (h0 : Nat) : (s.count f k).handle h0 = s.handle h0 := rfl
@[simp] theorem count_port (f : FRef) (k : Nat) (p0 : Nat) : (s.count f k).port p0 = s.port p0 := rfl
@[simp] theorem count_pll (f : FRef) (k : Nat) (i0 : Nat) : (s.count f k).pll i0 = s.pll i0 := rfl
@[simp] theorem count_src (f : FRef) (k : Nat) (n0 : Nat) : (s.count f k).src n0 = s.src n0 := rfl
@[simp] theorem count_tgt (f : FRef) (k : Nat) (t0 : Nat) : (s.count f k).tgt t0 = s.tgt t0 := rfl
@[simp] theorem count_chan (f : FRef) (k : Nat) (c0 : Nat) : (s.count f k).chan c0 = s.chan c0 := rfl
@[simp] theorem count_dses (f : FRef) (k : Nat) (i0 : Nat) : (s.count f k).dses i0 = s.dses i0 := rfl
@[simp] theorem count_eses (f : FRef) (k : Nat) (i0 : Nat) : (s.count f k).eses i0 = s.eses i0 := rfl
@[simp] theorem count_tt (f : FRef) (k : Nat) (i0 : Nat) : (s.count f k).tt i0 = s.tt i0 := rfl
@[simp] theorem count_entry (f : FRef) (k : Nat) (e0 : Nat) : (s.count f k).entry e0 = s.entry e0 := rfl
@[simp] theorem count_hmByte (f : FRef) (k : Nat) (a0 : Nat) : (s.count f k).hmByte a0 = s.hmByte a0 := rfl
@[simp] theorem count_sramWord (f : FRef) (k : Nat) (a0 : Nat) : (s.count f k).sramWord a0 = s.sramWord a0 := rfl

/-! ### incr -/

@[simp] theorem incr_pending (f : FRef) : (s.incr f).pending = s.pending := rfl
@[simp] theorem incr_outbox (f : FRef) : (s.incr f).outbox = s.outbox := rfl
@[simp] theorem incr_now (f : FRef) : (s.incr f).now = s.now := rfl
@[simp] theorem incr_freeCtr (f : FRef) : (s.incr f).freeCtr = s.freeCtr := rfl
@[simp] theorem incr_sram (f : FRef) : (s.incr f).sram = s.sram := rfl
@[simp] theorem incr_latches (f : FRef) : (s.incr f).latches = s.latches := rfl
@[simp] theorem incr_intc (f : FRef) : (s.incr f).intc = s.intc := rfl
@[simp] theorem incr_fc (f : FRef) : (s.incr f).fc = s.fc := rfl
@[simp] theorem incr_orbit (f : FRef) : (s.incr f).orbit = s.orbit := rfl
@[simp] theorem incr_pipes (f : FRef) : (s.incr f).pipes = s.pipes := rfl
@[simp] theorem incr_hm (f : FRef) : (s.incr f).hm = s.hm := rfl
@[simp] theorem incr_bc (f : FRef) : (s.incr f).bc = s.bc := rfl
@[simp] theorem incr_cg (f : FRef) : (s.incr f).cg = s.cg := rfl
@[simp] theorem incr_clk (f : FRef) : (s.incr f).clk = s.clk := rfl
@[simp] theorem incr_pwr (f : FRef) : (s.incr f).pwr = s.pwr := rfl
@[simp] theorem incr_dma (f : FRef) : (s.incr f).dma = s.dma := rfl
@[simp] theorem incr_dec (f : FRef) : (s.incr f).dec = s.dec := rfl
@[simp] theorem incr_enc (f : FRef) : (s.incr f).enc = s.enc := rfl
@[simp] theorem incr_ak (f : FRef) : (s.incr f).ak = s.ak := rfl
@[simp] theorem incr_od (f : FRef) : (s.incr f).od = s.od := rfl
@[simp] theorem incr_emb (f : FRef) : (s.incr f).emb = s.emb := rfl
@[simp] theorem incr_kin (f : FRef) : (s.incr f).kin = s.kin := rfl
@[simp] theorem incr_sec (f : FRef) : (s.incr f).sec = s.sec := rfl
@[simp] theorem incr_flash (f : FRef) : (s.incr f).flash = s.flash := rfl
@[simp] theorem incr_pins (f : FRef) : (s.incr f).pins = s.pins := rfl
@[simp] theorem incr_pipe (f : FRef) (p0 : Nat) : (s.incr f).pipe p0 = s.pipe p0 := rfl
@[simp] theorem incr_handle (f : FRef) (h0 : Nat) : (s.incr f).handle h0 = s.handle h0 := rfl
@[simp] theorem incr_port (f : FRef) (p0 : Nat) : (s.incr f).port p0 = s.port p0 := rfl
@[simp] theorem incr_pll (f : FRef) (i0 : Nat) : (s.incr f).pll i0 = s.pll i0 := rfl
@[simp] theorem incr_src (f : FRef) (n0 : Nat) : (s.incr f).src n0 = s.src n0 := rfl
@[simp] theorem incr_tgt (f : FRef) (t0 : Nat) : (s.incr f).tgt t0 = s.tgt t0 := rfl
@[simp] theorem incr_chan (f : FRef) (c0 : Nat) : (s.incr f).chan c0 = s.chan c0 := rfl
@[simp] theorem incr_dses (f : FRef) (i0 : Nat) : (s.incr f).dses i0 = s.dses i0 := rfl
@[simp] theorem incr_eses (f : FRef) (i0 : Nat) : (s.incr f).eses i0 = s.eses i0 := rfl
@[simp] theorem incr_tt (f : FRef) (i0 : Nat) : (s.incr f).tt i0 = s.tt i0 := rfl
@[simp] theorem incr_entry (f : FRef) (e0 : Nat) : (s.incr f).entry e0 = s.entry e0 := rfl
@[simp] theorem incr_hmByte (f : FRef) (a0 : Nat) : (s.incr f).hmByte a0 = s.hmByte a0 := rfl
@[simp] theorem incr_sramWord (f : FRef) (a0 : Nat) : (s.incr f).sramWord a0 = s.sramWord a0 := rfl

/-! ### setMode -/

@[simp] theorem setMode_pending (p : Nat) (m : TgMode) : (s.setMode p m).pending = s.pending := rfl
@[simp] theorem setMode_outbox (p : Nat) (m : TgMode) : (s.setMode p m).outbox = s.outbox := rfl
@[simp] theorem setMode_now (p : Nat) (m : TgMode) : (s.setMode p m).now = s.now := rfl
@[simp] theorem setMode_freeCtr (p : Nat) (m : TgMode) : (s.setMode p m).freeCtr = s.freeCtr := rfl
@[simp] theorem setMode_sram (p : Nat) (m : TgMode) : (s.setMode p m).sram = s.sram := rfl
@[simp] theorem setMode_latches (p : Nat) (m : TgMode) : (s.setMode p m).latches = s.latches := rfl
@[simp] theorem setMode_intc (p : Nat) (m : TgMode) : (s.setMode p m).intc = s.intc := rfl
@[simp] theorem setMode_fc (p : Nat) (m : TgMode) : (s.setMode p m).fc = s.fc := rfl
@[simp] theorem setMode_orbit (p : Nat) (m : TgMode) : (s.setMode p m).orbit = s.orbit := rfl
@[simp] theorem setMode_pipes (p : Nat) (m : TgMode) : (s.setMode p m).pipes = s.pipes := rfl
@[simp] theorem setMode_hm (p : Nat) (m : TgMode) : (s.setMode p m).hm = s.hm := rfl
@[simp] theorem setMode_bc (p : Nat) (m : TgMode) : (s.setMode p m).bc = s.bc := rfl
@[simp] theorem setMode_cg (p : Nat) (m : TgMode) : (s.setMode p m).cg = s.cg := rfl
@[simp] theorem setMode_clk (p : Nat) (m : TgMode) : (s.setMode p m).clk = s.clk := rfl
@[simp] theorem setMode_pwr (p : Nat) (m : TgMode) : (s.setMode p m).pwr = s.pwr := rfl
@[simp] theorem setMode_dma (p : Nat) (m : TgMode) : (s.setMode p m).dma = s.dma := rfl
@[simp] theorem setMode_dec (p : Nat) (m : TgMode) : (s.setMode p m).dec = s.dec := rfl
@[simp] theorem setMode_enc (p : Nat) (m : TgMode) : (s.setMode p m).enc = s.enc := rfl
@[simp] theorem setMode_ak (p : Nat) (m : TgMode) : (s.setMode p m).ak = s.ak := rfl
@[simp] theorem setMode_od (p : Nat) (m : TgMode) : (s.setMode p m).od = s.od := rfl
@[simp] theorem setMode_emb (p : Nat) (m : TgMode) : (s.setMode p m).emb = s.emb := rfl
@[simp] theorem setMode_kin (p : Nat) (m : TgMode) : (s.setMode p m).kin = s.kin := rfl
@[simp] theorem setMode_sec (p : Nat) (m : TgMode) : (s.setMode p m).sec = s.sec := rfl
@[simp] theorem setMode_flash (p : Nat) (m : TgMode) : (s.setMode p m).flash = s.flash := rfl
@[simp] theorem setMode_pins (p : Nat) (m : TgMode) : (s.setMode p m).pins = s.pins := rfl
@[simp] theorem setMode_pipe (p : Nat) (m : TgMode) (p0 : Nat) : (s.setMode p m).pipe p0 = s.pipe p0 := rfl
@[simp] theorem setMode_handle (p : Nat) (m : TgMode) (h0 : Nat) : (s.setMode p m).handle h0 = s.handle h0 := rfl
@[simp] theorem setMode_port (p : Nat) (m : TgMode) (p0 : Nat) : (s.setMode p m).port p0 = s.port p0 := rfl
@[simp] theorem setMode_pll (p : Nat) (m : TgMode) (i0 : Nat) : (s.setMode p m).pll i0 = s.pll i0 := rfl
@[simp] theorem setMode_src (p : Nat) (m : TgMode) (n0 : Nat) : (s.setMode p m).src n0 = s.src n0 := rfl
@[simp] theorem setMode_tgt (p : Nat) (m : TgMode) (t0 : Nat) : (s.setMode p m).tgt t0 = s.tgt t0 := rfl
@[simp] theorem setMode_chan (p : Nat) (m : TgMode) (c0 : Nat) : (s.setMode p m).chan c0 = s.chan c0 := rfl
@[simp] theorem setMode_dses (p : Nat) (m : TgMode) (i0 : Nat) : (s.setMode p m).dses i0 = s.dses i0 := rfl
@[simp] theorem setMode_eses (p : Nat) (m : TgMode) (i0 : Nat) : (s.setMode p m).eses i0 = s.eses i0 := rfl
@[simp] theorem setMode_tt (p : Nat) (m : TgMode) (i0 : Nat) : (s.setMode p m).tt i0 = s.tt i0 := rfl
@[simp] theorem setMode_entry (p : Nat) (m : TgMode) (e0 : Nat) : (s.setMode p m).entry e0 = s.entry e0 := rfl
@[simp] theorem setMode_hmByte (p : Nat) (m : TgMode) (a0 : Nat) : (s.setMode p m).hmByte a0 = s.hmByte a0 := rfl
@[simp] theorem setMode_sramWord (p : Nat) (m : TgMode) (a0 : Nat) : (s.setMode p m).sramWord a0 = s.sramWord a0 := rfl

/-! ### setTx -/

@[simp] theorem setTx_pending (p tx : Nat) : (s.setTx p tx).pending = s.pending := rfl
@[simp] theorem setTx_outbox (p tx : Nat) : (s.setTx p tx).outbox = s.outbox := rfl
@[simp] theorem setTx_now (p tx : Nat) : (s.setTx p tx).now = s.now := rfl
@[simp] theorem setTx_freeCtr (p tx : Nat) : (s.setTx p tx).freeCtr = s.freeCtr := rfl
@[simp] theorem setTx_sram (p tx : Nat) : (s.setTx p tx).sram = s.sram := rfl
@[simp] theorem setTx_latches (p tx : Nat) : (s.setTx p tx).latches = s.latches := rfl
@[simp] theorem setTx_intc (p tx : Nat) : (s.setTx p tx).intc = s.intc := rfl
@[simp] theorem setTx_fc (p tx : Nat) : (s.setTx p tx).fc = s.fc := rfl
@[simp] theorem setTx_orbit (p tx : Nat) : (s.setTx p tx).orbit = s.orbit := rfl
@[simp] theorem setTx_pipes (p tx : Nat) : (s.setTx p tx).pipes = s.pipes := rfl
@[simp] theorem setTx_hm (p tx : Nat) : (s.setTx p tx).hm = s.hm := rfl
@[simp] theorem setTx_bc (p tx : Nat) : (s.setTx p tx).bc = s.bc := rfl
@[simp] theorem setTx_cg (p tx : Nat) : (s.setTx p tx).cg = s.cg := rfl
@[simp] theorem setTx_clk (p tx : Nat) : (s.setTx p tx).clk = s.clk := rfl
@[simp] theorem setTx_pwr (p tx : Nat) : (s.setTx p tx).pwr = s.pwr := rfl
@[simp] theorem setTx_dma (p tx : Nat) : (s.setTx p tx).dma = s.dma := rfl
@[simp] theorem setTx_dec (p tx : Nat) : (s.setTx p tx).dec = s.dec := rfl
@[simp] theorem setTx_enc (p tx : Nat) : (s.setTx p tx).enc = s.enc := rfl
@[simp] theorem setTx_ak (p tx : Nat) : (s.setTx p tx).ak = s.ak := rfl
@[simp] theorem setTx_od (p tx : Nat) : (s.setTx p tx).od = s.od := rfl
@[simp] theorem setTx_emb (p tx : Nat) : (s.setTx p tx).emb = s.emb := rfl
@[simp] theorem setTx_kin (p tx : Nat) : (s.setTx p tx).kin = s.kin := rfl
@[simp] theorem setTx_sec (p tx : Nat) : (s.setTx p tx).sec = s.sec := rfl
@[simp] theorem setTx_flash (p tx : Nat) : (s.setTx p tx).flash = s.flash := rfl
@[simp] theorem setTx_pins (p tx : Nat) : (s.setTx p tx).pins = s.pins := rfl
@[simp] theorem setTx_pipe (p tx : Nat) (p0 : Nat) : (s.setTx p tx).pipe p0 = s.pipe p0 := rfl
@[simp] theorem setTx_handle (p tx : Nat) (h0 : Nat) : (s.setTx p tx).handle h0 = s.handle h0 := rfl
@[simp] theorem setTx_port (p tx : Nat) (p0 : Nat) : (s.setTx p tx).port p0 = s.port p0 := rfl
@[simp] theorem setTx_pll (p tx : Nat) (i0 : Nat) : (s.setTx p tx).pll i0 = s.pll i0 := rfl
@[simp] theorem setTx_src (p tx : Nat) (n0 : Nat) : (s.setTx p tx).src n0 = s.src n0 := rfl
@[simp] theorem setTx_tgt (p tx : Nat) (t0 : Nat) : (s.setTx p tx).tgt t0 = s.tgt t0 := rfl
@[simp] theorem setTx_chan (p tx : Nat) (c0 : Nat) : (s.setTx p tx).chan c0 = s.chan c0 := rfl
@[simp] theorem setTx_dses (p tx : Nat) (i0 : Nat) : (s.setTx p tx).dses i0 = s.dses i0 := rfl
@[simp] theorem setTx_eses (p tx : Nat) (i0 : Nat) : (s.setTx p tx).eses i0 = s.eses i0 := rfl
@[simp] theorem setTx_tt (p tx : Nat) (i0 : Nat) : (s.setTx p tx).tt i0 = s.tt i0 := rfl
@[simp] theorem setTx_entry (p tx : Nat) (e0 : Nat) : (s.setTx p tx).entry e0 = s.entry e0 := rfl
@[simp] theorem setTx_hmByte (p tx : Nat) (a0 : Nat) : (s.setTx p tx).hmByte a0 = s.hmByte a0 := rfl
@[simp] theorem setTx_sramWord (p tx : Nat) (a0 : Nat) : (s.setTx p tx).sramWord a0 = s.sramWord a0 := rfl

/-! ### setPipe -/

@[simp] theorem setPipe_pending (p : Nat) (x : PipeSt) : (s.setPipe p x).pending = s.pending := rfl
@[simp] theorem setPipe_outbox (p : Nat) (x : PipeSt) : (s.setPipe p x).outbox = s.outbox := rfl
@[simp] theorem setPipe_now (p : Nat) (x : PipeSt) : (s.setPipe p x).now = s.now := rfl
@[simp] theorem setPipe_freeCtr (p : Nat) (x : PipeSt) : (s.setPipe p x).freeCtr = s.freeCtr := rfl
@[simp] theorem setPipe_regs (p : Nat) (x : PipeSt) : (s.setPipe p x).regs = s.regs := rfl
@[simp] theorem setPipe_sram (p : Nat) (x : PipeSt) : (s.setPipe p x).sram = s.sram := rfl
@[simp] theorem setPipe_latches (p : Nat) (x : PipeSt) : (s.setPipe p x).latches = s.latches := rfl
@[simp] theorem setPipe_intc (p : Nat) (x : PipeSt) : (s.setPipe p x).intc = s.intc := rfl
@[simp] theorem setPipe_fc (p : Nat) (x : PipeSt) : (s.setPipe p x).fc = s.fc := rfl
@[simp] theorem setPipe_orbit (p : Nat) (x : PipeSt) : (s.setPipe p x).orbit = s.orbit := rfl
@[simp] theorem setPipe_hm (p : Nat) (x : PipeSt) : (s.setPipe p x).hm = s.hm := rfl
@[simp] theorem setPipe_bc (p : Nat) (x : PipeSt) : (s.setPipe p x).bc = s.bc := rfl
@[simp] theorem setPipe_cg (p : Nat) (x : PipeSt) : (s.setPipe p x).cg = s.cg := rfl
@[simp] theorem setPipe_clk (p : Nat) (x : PipeSt) : (s.setPipe p x).clk = s.clk := rfl
@[simp] theorem setPipe_pwr (p : Nat) (x : PipeSt) : (s.setPipe p x).pwr = s.pwr := rfl
@[simp] theorem setPipe_dma (p : Nat) (x : PipeSt) : (s.setPipe p x).dma = s.dma := rfl
@[simp] theorem setPipe_dec (p : Nat) (x : PipeSt) : (s.setPipe p x).dec = s.dec := rfl
@[simp] theorem setPipe_enc (p : Nat) (x : PipeSt) : (s.setPipe p x).enc = s.enc := rfl
@[simp] theorem setPipe_ak (p : Nat) (x : PipeSt) : (s.setPipe p x).ak = s.ak := rfl
@[simp] theorem setPipe_od (p : Nat) (x : PipeSt) : (s.setPipe p x).od = s.od := rfl
@[simp] theorem setPipe_emb (p : Nat) (x : PipeSt) : (s.setPipe p x).emb = s.emb := rfl
@[simp] theorem setPipe_kin (p : Nat) (x : PipeSt) : (s.setPipe p x).kin = s.kin := rfl
@[simp] theorem setPipe_sec (p : Nat) (x : PipeSt) : (s.setPipe p x).sec = s.sec := rfl
@[simp] theorem setPipe_flash (p : Nat) (x : PipeSt) : (s.setPipe p x).flash = s.flash := rfl
@[simp] theorem setPipe_pins (p : Nat) (x : PipeSt) : (s.setPipe p x).pins = s.pins := rfl
@[simp] theorem setPipe_get (p : Nat) (x : PipeSt) (g : FRef) : (s.setPipe p x).get g = s.get g := rfl
@[simp] theorem setPipe_is (p : Nat) (x : PipeSt) (g : FRef) : (s.setPipe p x).is g = s.is g := rfl
@[simp] theorem setPipe_reg (p : Nat) (x : PipeSt) (a0 : Nat) : (s.setPipe p x).reg a0 = s.reg a0 := rfl
@[simp] theorem setPipe_handle (p : Nat) (x : PipeSt) (h0 : Nat) : (s.setPipe p x).handle h0 = s.handle h0 := rfl
@[simp] theorem setPipe_port (p : Nat) (x : PipeSt) (p0 : Nat) : (s.setPipe p x).port p0 = s.port p0 := rfl
@[simp] theorem setPipe_pll (p : Nat) (x : PipeSt) (i0 : Nat) : (s.setPipe p x).pll i0 = s.pll i0 := rfl
@[simp] theorem setPipe_src (p : Nat) (x : PipeSt) (n0 : Nat) : (s.setPipe p x).src n0 = s.src n0 := rfl
@[simp] theorem setPipe_tgt (p : Nat) (x : PipeSt) (t0 : Nat) : (s.setPipe p x).tgt t0 = s.tgt t0 := rfl
@[simp] theorem setPipe_chan (p : Nat) (x : PipeSt) (c0 : Nat) : (s.setPipe p x).chan c0 = s.chan c0 := rfl
@[simp] theorem setPipe_dses (p : Nat) (x : PipeSt) (i0 : Nat) : (s.setPipe p x).dses i0 = s.dses i0 := rfl
@[simp] theorem setPipe_eses (p : Nat) (x : PipeSt) (i0 : Nat) : (s.setPipe p x).eses i0 = s.eses i0 := rfl
@[simp] theorem setPipe_tt (p : Nat) (x : PipeSt) (i0 : Nat) : (s.setPipe p x).tt i0 = s.tt i0 := rfl
@[simp] theorem setPipe_entry (p : Nat) (x : PipeSt) (e0 : Nat) : (s.setPipe p x).entry e0 = s.entry e0 := rfl
@[simp] theorem setPipe_owner (p : Nat) (x : PipeSt) (u0 : Nat) : (s.setPipe p x).owner u0 = s.owner u0 := rfl
@[simp] theorem setPipe_hmByte (p : Nat) (x : PipeSt) (a0 : Nat) : (s.setPipe p x).hmByte a0 = s.hmByte a0 := rfl
@[simp] theorem setPipe_sramWord (p : Nat) (x : PipeSt) (a0 : Nat) : (s.setPipe p x).sramWord a0 = s.sramWord a0 := rfl

/-! ### modPipe -/

@[simp] theorem modPipe_pending (p : Nat) (f : PipeSt → PipeSt) : (s.modPipe p f).pending = s.pending := rfl
@[simp] theorem modPipe_outbox (p : Nat) (f : PipeSt → PipeSt) : (s.modPipe p f).outbox = s.outbox := rfl
@[simp] theorem modPipe_now (p : Nat) (f : PipeSt → PipeSt) : (s.modPipe p f).now = s.now := rfl
@[simp] theorem modPipe_freeCtr (p : Nat) (f : PipeSt → PipeSt) : (s.modPipe p f).freeCtr = s.freeCtr := rfl
@[simp] theorem modPipe_regs (p : Nat) (f : PipeSt → PipeSt) : (s.modPipe p f).regs = s.regs := rfl
@[simp] theorem modPipe_sram (p : Nat) (f : PipeSt → PipeSt) : (s.modPipe p f).sram = s.sram := rfl
@[simp] theorem modPipe_latches (p : Nat) (f : PipeSt → PipeSt) : (s.modPipe p f).latches = s.latches := rfl
@[simp] theorem modPipe_intc (p : Nat) (f : PipeSt → PipeSt) : (s.modPipe p f).intc = s.intc := rfl
@[simp] theorem modPipe_fc (p : Nat) (f : PipeSt → PipeSt) : (s.modPipe p f).fc = s.fc := rfl
@[simp] theorem modPipe_orbit (p : Nat) (f : PipeSt → PipeSt) : (s.modPipe p f).orbit = s.orbit := rfl
@[simp] theorem modPipe_hm (p : Nat) (f : PipeSt → PipeSt) : (s.modPipe p f).hm = s.hm := rfl
@[simp] theorem modPipe_bc (p : Nat) (f : PipeSt → PipeSt) : (s.modPipe p f).bc = s.bc := rfl
@[simp] theorem modPipe_cg (p : Nat) (f : PipeSt → PipeSt) : (s.modPipe p f).cg = s.cg := rfl
@[simp] theorem modPipe_clk (p : Nat) (f : PipeSt → PipeSt) : (s.modPipe p f).clk = s.clk := rfl
@[simp] theorem modPipe_pwr (p : Nat) (f : PipeSt → PipeSt) : (s.modPipe p f).pwr = s.pwr := rfl
@[simp] theorem modPipe_dma (p : Nat) (f : PipeSt → PipeSt) : (s.modPipe p f).dma = s.dma := rfl
@[simp] theorem modPipe_dec (p : Nat) (f : PipeSt → PipeSt) : (s.modPipe p f).dec = s.dec := rfl
@[simp] theorem modPipe_enc (p : Nat) (f : PipeSt → PipeSt) : (s.modPipe p f).enc = s.enc := rfl
@[simp] theorem modPipe_ak (p : Nat) (f : PipeSt → PipeSt) : (s.modPipe p f).ak = s.ak := rfl
@[simp] theorem modPipe_od (p : Nat) (f : PipeSt → PipeSt) : (s.modPipe p f).od = s.od := rfl
@[simp] theorem modPipe_emb (p : Nat) (f : PipeSt → PipeSt) : (s.modPipe p f).emb = s.emb := rfl
@[simp] theorem modPipe_kin (p : Nat) (f : PipeSt → PipeSt) : (s.modPipe p f).kin = s.kin := rfl
@[simp] theorem modPipe_sec (p : Nat) (f : PipeSt → PipeSt) : (s.modPipe p f).sec = s.sec := rfl
@[simp] theorem modPipe_flash (p : Nat) (f : PipeSt → PipeSt) : (s.modPipe p f).flash = s.flash := rfl
@[simp] theorem modPipe_pins (p : Nat) (f : PipeSt → PipeSt) : (s.modPipe p f).pins = s.pins := rfl
@[simp] theorem modPipe_get (p : Nat) (f : PipeSt → PipeSt) (g : FRef) : (s.modPipe p f).get g = s.get g := rfl
@[simp] theorem modPipe_is (p : Nat) (f : PipeSt → PipeSt) (g : FRef) : (s.modPipe p f).is g = s.is g := rfl
@[simp] theorem modPipe_reg (p : Nat) (f : PipeSt → PipeSt) (a0 : Nat) : (s.modPipe p f).reg a0 = s.reg a0 := rfl
@[simp] theorem modPipe_handle (p : Nat) (f : PipeSt → PipeSt) (h0 : Nat) : (s.modPipe p f).handle h0 = s.handle h0 := rfl
@[simp] theorem modPipe_port (p : Nat) (f : PipeSt → PipeSt) (p0 : Nat) : (s.modPipe p f).port p0 = s.port p0 := rfl
@[simp] theorem modPipe_pll (p : Nat) (f : PipeSt → PipeSt) (i0 : Nat) : (s.modPipe p f).pll i0 = s.pll i0 := rfl
@[simp] theorem modPipe_src (p : Nat) (f : PipeSt → PipeSt) (n0 : Nat) : (s.modPipe p f).src n0 = s.src n0 := rfl
@[simp] theorem modPipe_tgt (p : Nat) (f : PipeSt → PipeSt) (t0 : Nat) : (s.modPipe p f).tgt t0 = s.tgt t0 := rfl
@[simp] theorem modPipe_chan (p : Nat) (f : PipeSt → PipeSt) (c0 : Nat) : (s.modPipe p f).chan c0 = s.chan c0 := rfl
@[simp] theorem modPipe_dses (p : Nat) (f : PipeSt → PipeSt) (i0 : Nat) : (s.modPipe p f).dses i0 = s.dses i0 := rfl
@[simp] theorem modPipe_eses (p : Nat) (f : PipeSt → PipeSt) (i0 : Nat) : (s.modPipe p f).eses i0 = s.eses i0 := rfl
@[simp] theorem modPipe_tt (p : Nat) (f : PipeSt → PipeSt) (i0 : Nat) : (s.modPipe p f).tt i0 = s.tt i0 := rfl
@[simp] theorem modPipe_entry (p : Nat) (f : PipeSt → PipeSt) (e0 : Nat) : (s.modPipe p f).entry e0 = s.entry e0 := rfl
@[simp] theorem modPipe_owner (p : Nat) (f : PipeSt → PipeSt) (u0 : Nat) : (s.modPipe p f).owner u0 = s.owner u0 := rfl
@[simp] theorem modPipe_hmByte (p : Nat) (f : PipeSt → PipeSt) (a0 : Nat) : (s.modPipe p f).hmByte a0 = s.hmByte a0 := rfl
@[simp] theorem modPipe_sramWord (p : Nat) (f : PipeSt → PipeSt) (a0 : Nat) : (s.modPipe p f).sramWord a0 = s.sramWord a0 := rfl

/-! ### setHandle -/

@[simp] theorem setHandle_pending (h : Nat) (x : Handle) : (s.setHandle h x).pending = s.pending := rfl
@[simp] theorem setHandle_outbox (h : Nat) (x : Handle) : (s.setHandle h x).outbox = s.outbox := rfl
@[simp] theorem setHandle_now (h : Nat) (x : Handle) : (s.setHandle h x).now = s.now := rfl
@[simp] theorem setHandle_freeCtr (h : Nat) (x : Handle) : (s.setHandle h x).freeCtr = s.freeCtr := rfl
@[simp] theorem setHandle_regs (h : Nat) (x : Handle) : (s.setHandle h x).regs = s.regs := rfl
@[simp] theorem setHandle_sram (h : Nat) (x : Handle) : (s.setHandle h x).sram = s.sram := rfl
@[simp] theorem setHandle_latches (h : Nat) (x : Handle) : (s.setHandle h x).latches = s.latches := rfl
@[simp] theorem setHandle_intc (h : Nat) (x : Handle) : (s.setHandle h x).intc = s.intc := rfl
@[simp] theorem setHandle_fc (h : Nat) (x : Handle) : (s.setHandle h x).fc = s.fc := rfl
@[simp] theorem setHandle_orbit (h : Nat) (x : Handle) : (s.setHandle h x).orbit = s.orbit := rfl
@[simp] theorem setHandle_pipes (h : Nat) (x : Handle) : (s.setHandle h x).pipes = s.pipes := rfl
@[simp] theorem setHandle_bc (h : Nat) (x : Handle) : (s.setHandle h x).bc = s.bc := rfl
@[simp] theorem setHandle_cg (h : Nat) (x : Handle) : (s.setHandle h x).cg = s.cg := rfl
@[simp] theorem setHandle_clk (h : Nat) (x : Handle) : (s.setHandle h x).clk = s.clk := rfl
@[simp] theorem setHandle_pwr (h : Nat) (x : Handle) : (s.setHandle h x).pwr = s.pwr := rfl
@[simp] theorem setHandle_dma (h : Nat) (x : Handle) : (s.setHandle h x).dma = s.dma := rfl
@[simp] theorem setHandle_dec (h : Nat) (x : Handle) : (s.setHandle h x).dec = s.dec := rfl
@[simp] theorem setHandle_enc (h : Nat) (x : Handle) : (s.setHandle h x).enc = s.enc := rfl
@[simp] theorem setHandle_ak (h : Nat) (x : Handle) : (s.setHandle h x).ak = s.ak := rfl
@[simp] theorem setHandle_od (h : Nat) (x : Handle) : (s.setHandle h x).od = s.od := rfl
@[simp] theorem setHandle_emb (h : Nat) (x : Handle) : (s.setHandle h x).emb = s.emb := rfl
@[simp] theorem setHandle_kin (h : Nat) (x : Handle) : (s.setHandle h x).kin = s.kin := rfl
@[simp] theorem setHandle_sec (h : Nat) (x : Handle) : (s.setHandle h x).sec = s.sec := rfl
@[simp] theorem setHandle_flash (h : Nat) (x : Handle) : (s.setHandle h x).flash = s.flash := rfl
@[simp] theorem setHandle_pins (h : Nat) (x : Handle) : (s.setHandle h x).pins = s.pins := rfl
@[simp] theorem setHandle_get (h : Nat) (x : Handle) (g : FRef) : (s.setHandle h x).get g = s.get g := rfl
@[simp] theorem setHandle_is (h : Nat) (x : Handle) (g : FRef) : (s.setHandle h x).is g = s.is g := rfl
@[simp] theorem setHandle_reg (h : Nat) (x : Handle) (a0 : Nat) : (s.setHandle h x).reg a0 = s.reg a0 := rfl
@[simp] theorem setHandle_pipe (h : Nat) (x : Handle) (p0 : Nat) : (s.setHandle h x).pipe p0 = s.pipe p0 := rfl
@[simp] theorem setHandle_port (h : Nat) (x : Handle) (p0 : Nat) : (s.setHandle h x).port p0 = s.port p0 := rfl
@[simp] theorem setHandle_pll (h : Nat) (x : Handle) (i0 : Nat) : (s.setHandle h x).pll i0 = s.pll i0 := rfl
@[simp] theorem setHandle_src (h : Nat) (x : Handle) (n0 : Nat) : (s.setHandle h x).src n0 = s.src n0 := rfl
@[simp] theorem setHandle_tgt (h : Nat) (x : Handle) (t0 : Nat) : (s.setHandle h x).tgt t0 = s.tgt t0 := rfl
@[simp] theorem setHandle_chan (h : Nat) (x : Handle) (c0 : Nat) : (s.setHandle h x).chan c0 = s.chan c0 := rfl
@[simp] theorem setHandle_dses (h : Nat) (x : Handle) (i0 : Nat) : (s.setHandle h x).dses i0 = s.dses i0 := rfl
@[simp] theorem setHandle_eses (h : Nat) (x : Handle) (i0 : Nat) : (s.setHandle h x).eses i0 = s.eses i0 := rfl
@[simp] theorem setHandle_tt (h : Nat) (x : Handle) (i0 : Nat) : (s.setHandle h x).tt i0 = s.tt i0 := rfl
@[simp] theorem setHandle_entry (h : Nat) (x : Handle) (e0 : Nat) : (s.setHandle h x).entry e0 = s.entry e0 := rfl
@[simp] theorem setHandle_owner (h : Nat) (x : Handle) (u0 : Nat) : (s.setHandle h x).owner u0 = s.owner u0 := rfl
@[simp] theorem setHandle_sramWord (h : Nat) (x : Handle) (a0 : Nat) : (s.setHandle h x).sramWord a0 = s.sramWord a0 := rfl

/-! ### hmStore -/

@[simp] theorem hmStore_pending (a : Nat) (bs : List Byte) : (s.hmStore a bs).pending = s.pending := rfl
@[simp] theorem hmStore_outbox (a : Nat) (bs : List Byte) : (s.hmStore a bs).outbox = s.outbox := rfl
@[simp] theorem hmStore_now (a : Nat) (bs : List Byte) : (s.hmStore a bs).now = s.now := rfl
@[simp] theorem hmStore_freeCtr (a : Nat) (bs : List Byte) : (s.hmStore a bs).freeCtr = s.freeCtr := rfl
@[simp] theorem hmStore_regs (a : Nat) (bs : List Byte) : (s.hmStore a bs).regs = s.regs := rfl
@[simp] theorem hmStore_sram (a : Nat) (bs : List Byte) : (s.hmStore a bs).sram = s.sram := rfl
@[simp] theorem hmStore_latches (a : Nat) (bs : List Byte) : (s.hmStore a bs).latches = s.latches := rfl
@[simp] theorem hmStore_intc (a : Nat) (bs : List Byte) : (s.hmStore a bs).intc = s.intc := rfl
@[simp] theorem hmStore_fc (a : Nat) (bs : List Byte) : (s.hmStore a bs).fc = s.fc := rfl
@[simp] theorem hmStore_orbit (a : Nat) (bs : List Byte) : (s.hmStore a bs).orbit = s.orbit := rfl
@[simp] theorem hmStore_pipes (a : Nat) (bs : List Byte) : (s.hmStore a bs).pipes = s.pipes := rfl
@[simp] theorem hmStore_bc (a : Nat) (bs : List Byte) : (s.hmStore a bs).bc = s.bc := rfl
@[simp] theorem hmStore_cg (a : Nat) (bs : List Byte) : (s.hmStore a bs).cg = s.cg := rfl
@[simp] theorem hmStore_clk (a : Nat) (bs : List Byte) : (s.hmStore a bs).clk = s.clk := rfl
@[simp] theorem hmStore_pwr (a : Nat) (bs : List Byte) : (s.hmStore a bs).pwr = s.pwr := rfl
@[simp] theorem hmStore_dma (a : Nat) (bs : List Byte) : (s.hmStore a bs).dma = s.dma := rfl
@[simp] theorem hmStore_dec (a : Nat) (bs : List Byte) : (s.hmStore a bs).dec = s.dec := rfl
@[simp] theorem hmStore_enc (a : Nat) (bs : List Byte) : (s.hmStore a bs).enc = s.enc := rfl
@[simp] theorem hmStore_ak (a : Nat) (bs : List Byte) : (s.hmStore a bs).ak = s.ak := rfl
@[simp] theorem hmStore_od (a : Nat) (bs : List Byte) : (s.hmStore a bs).od = s.od := rfl
@[simp] theorem hmStore_emb (a : Nat) (bs : List Byte) : (s.hmStore a bs).emb = s.emb := rfl
@[simp] theorem hmStore_kin (a : Nat) (bs : List Byte) : (s.hmStore a bs).kin = s.kin := rfl
@[simp] theorem hmStore_sec (a : Nat) (bs : List Byte) : (s.hmStore a bs).sec = s.sec := rfl
@[simp] theorem hmStore_flash (a : Nat) (bs : List Byte) : (s.hmStore a bs).flash = s.flash := rfl
@[simp] theorem hmStore_pins (a : Nat) (bs : List Byte) : (s.hmStore a bs).pins = s.pins := rfl
@[simp] theorem hmStore_get (a : Nat) (bs : List Byte) (g : FRef) : (s.hmStore a bs).get g = s.get g := rfl
@[simp] theorem hmStore_is (a : Nat) (bs : List Byte) (g : FRef) : (s.hmStore a bs).is g = s.is g := rfl
@[simp] theorem hmStore_reg (a : Nat) (bs : List Byte) (a0 : Nat) : (s.hmStore a bs).reg a0 = s.reg a0 := rfl
@[simp] theorem hmStore_pipe (a : Nat) (bs : List Byte) (p0 : Nat) : (s.hmStore a bs).pipe p0 = s.pipe p0 := rfl
@[simp] theorem hmStore_port (a : Nat) (bs : List Byte) (p0 : Nat) : (s.hmStore a bs).port p0 = s.port p0 := rfl
@[simp] theorem hmStore_pll (a : Nat) (bs : List Byte) (i0 : Nat) : (s.hmStore a bs).pll i0 = s.pll i0 := rfl
@[simp] theorem hmStore_src (a : Nat) (bs : List Byte) (n0 : Nat) : (s.hmStore a bs).src n0 = s.src n0 := rfl
@[simp] theorem hmStore_tgt (a : Nat) (bs : List Byte) (t0 : Nat) : (s.hmStore a bs).tgt t0 = s.tgt t0 := rfl
@[simp] theorem hmStore_chan (a : Nat) (bs : List Byte) (c0 : Nat) : (s.hmStore a bs).chan c0 = s.chan c0 := rfl
@[simp] theorem hmStore_dses (a : Nat) (bs : List Byte) (i0 : Nat) : (s.hmStore a bs).dses i0 = s.dses i0 := rfl
@[simp] theorem hmStore_eses (a : Nat) (bs : List Byte) (i0 : Nat) : (s.hmStore a bs).eses i0 = s.eses i0 := rfl
@[simp] theorem hmStore_tt (a : Nat) (bs : List Byte) (i0 : Nat) : (s.hmStore a bs).tt i0 = s.tt i0 := rfl
@[simp] theorem hmStore_entry (a : Nat) (bs : List Byte) (e0 : Nat) : (s.hmStore a bs).entry e0 = s.entry e0 := rfl
@[simp] theorem hmStore_owner (a : Nat) (bs : List Byte) (u0 : Nat) : (s.hmStore a bs).owner u0 = s.owner u0 := rfl
@[simp] theorem hmStore_sramWord (a : Nat) (bs : List Byte) (a0 : Nat) : (s.hmStore a bs).sramWord a0 = s.sramWord a0 := rfl

/-! ### sramStore -/

@[simp] theorem sramStore_pending (a : Nat) (bs : List Byte) : (s.sramStore a bs).pending = s.pending := rfl
@[simp] theorem sramStore_outbox (a : Nat) (bs : List Byte) : (s.sramStore a bs).outbox = s.outbox := rfl
@[simp] theorem sramStore_now (a : Nat) (bs : List Byte) : (s.sramStore a bs).now = s.now := rfl
@[simp] theorem sramStore_freeCtr (a : Nat) (bs : List Byte) : (s.sramStore a bs).freeCtr = s.freeCtr := rfl
@[simp] theorem sramStore_regs (a : Nat) (bs : List Byte) : (s.sramStore a bs).regs = s.regs := rfl
@[simp] theorem sramStore_latches (a : Nat) (bs : List Byte) : (s.sramStore a bs).latches = s.latches := rfl
@[simp] theorem sramStore_intc (a : Nat) (bs : List Byte) : (s.sramStore a bs).intc = s.intc := rfl
@[simp] theorem sramStore_fc (a : Nat) (bs : List Byte) : (s.sramStore a bs).fc = s.fc := rfl
@[simp] theorem sramStore_orbit (a : Nat) (bs : List Byte) : (s.sramStore a bs).orbit = s.orbit := rfl
@[simp] theorem sramStore_pipes (a : Nat) (bs : List Byte) : (s.sramStore a bs).pipes = s.pipes := rfl
@[simp] theorem sramStore_hm (a : Nat) (bs : List Byte) : (s.sramStore a bs).hm = s.hm := rfl
@[simp] theorem sramStore_bc (a : Nat) (bs : List Byte) : (s.sramStore a bs).bc = s.bc := rfl
@[simp] theorem sramStore_cg (a : Nat) (bs : List Byte) : (s.sramStore a bs).cg = s.cg := rfl
@[simp] theorem sramStore_clk (a : Nat) (bs : List Byte) : (s.sramStore a bs).clk = s.clk := rfl
@[simp] theorem sramStore_pwr (a : Nat) (bs : List Byte) : (s.sramStore a bs).pwr = s.pwr := rfl
@[simp] theorem sramStore_dma (a : Nat) (bs : List Byte) : (s.sramStore a bs).dma = s.dma := rfl
@[simp] theorem sramStore_dec (a : Nat) (bs : List Byte) : (s.sramStore a bs).dec = s.dec := rfl
@[simp] theorem sramStore_enc (a : Nat) (bs : List Byte) : (s.sramStore a bs).enc = s.enc := rfl
@[simp] theorem sramStore_ak (a : Nat) (bs : List Byte) : (s.sramStore a bs).ak = s.ak := rfl
@[simp] theorem sramStore_od (a : Nat) (bs : List Byte) : (s.sramStore a bs).od = s.od := rfl
@[simp] theorem sramStore_emb (a : Nat) (bs : List Byte) : (s.sramStore a bs).emb = s.emb := rfl
@[simp] theorem sramStore_kin (a : Nat) (bs : List Byte) : (s.sramStore a bs).kin = s.kin := rfl
@[simp] theorem sramStore_sec (a : Nat) (bs : List Byte) : (s.sramStore a bs).sec = s.sec := rfl
@[simp] theorem sramStore_flash (a : Nat) (bs : List Byte) : (s.sramStore a bs).flash = s.flash := rfl
@[simp] theorem sramStore_pins (a : Nat) (bs : List Byte) : (s.sramStore a bs).pins = s.pins := rfl
@[simp] theorem sramStore_get (a : Nat) (bs : List Byte) (g : FRef) : (s.sramStore a bs).get g = s.get g := rfl
@[simp] theorem sramStore_is (a : Nat) (bs : List Byte) (g : FRef) : (s.sramStore a bs).is g = s.is g := rfl
@[simp] theorem sramStore_reg (a : Nat) (bs : List Byte) (a0 : Nat) : (s.sramStore a bs).reg a0 = s.reg a0 := rfl
@[simp] theorem sramStore_pipe (a : Nat) (bs : List Byte) (p0 : Nat) : (s.sramStore a bs).pipe p0 = s.pipe p0 := rfl
@[simp] theorem sramStore_handle (a : Nat) (bs : List Byte) (h0 : Nat) : (s.sramStore a bs).handle h0 = s.handle h0 := rfl
@[simp] theorem sramStore_port (a : Nat) (bs : List Byte) (p0 : Nat) : (s.sramStore a bs).port p0 = s.port p0 := rfl
@[simp] theorem sramStore_pll (a : Nat) (bs : List Byte) (i0 : Nat) : (s.sramStore a bs).pll i0 = s.pll i0 := rfl
@[simp] theorem sramStore_src (a : Nat) (bs : List Byte) (n0 : Nat) : (s.sramStore a bs).src n0 = s.src n0 := rfl
@[simp] theorem sramStore_tgt (a : Nat) (bs : List Byte) (t0 : Nat) : (s.sramStore a bs).tgt t0 = s.tgt t0 := rfl
@[simp] theorem sramStore_chan (a : Nat) (bs : List Byte) (c0 : Nat) : (s.sramStore a bs).chan c0 = s.chan c0 := rfl
@[simp] theorem sramStore_dses (a : Nat) (bs : List Byte) (i0 : Nat) : (s.sramStore a bs).dses i0 = s.dses i0 := rfl
@[simp] theorem sramStore_eses (a : Nat) (bs : List Byte) (i0 : Nat) : (s.sramStore a bs).eses i0 = s.eses i0 := rfl
@[simp] theorem sramStore_tt (a : Nat) (bs : List Byte) (i0 : Nat) : (s.sramStore a bs).tt i0 = s.tt i0 := rfl
@[simp] theorem sramStore_entry (a : Nat) (bs : List Byte) (e0 : Nat) : (s.sramStore a bs).entry e0 = s.entry e0 := rfl
@[simp] theorem sramStore_owner (a : Nat) (bs : List Byte) (u0 : Nat) : (s.sramStore a bs).owner u0 = s.owner u0 := rfl
@[simp] theorem sramStore_hmByte (a : Nat) (bs : List Byte) (a0 : Nat) : (s.sramStore a bs).hmByte a0 = s.hmByte a0 := rfl

/-! ### setSrc -/

@[simp] theorem setSrc_pending (n : Nat) (x : Src) : (s.setSrc n x).pending = s.pending := rfl
@[simp] theorem setSrc_outbox (n : Nat) (x : Src) : (s.setSrc n x).outbox = s.outbox := rfl
@[simp] theorem setSrc_now (n : Nat) (x : Src) : (s.setSrc n x).now = s.now := rfl
@[simp] theorem setSrc_freeCtr (n : Nat) (x : Src) : (s.setSrc n x).freeCtr = s.freeCtr := rfl
@[simp] theorem setSrc_regs (n : Nat) (x : Src) : (s.setSrc n x).regs = s.regs := rfl
@[simp] theorem setSrc_sram (n : Nat) (x : Src) : (s.setSrc n x).sram = s.sram := rfl
@[simp] theorem setSrc_latches (n : Nat) (x : Src) : (s.setSrc n x).latches = s.latches := rfl
@[simp] theorem setSrc_fc (n : Nat) (x : Src) : (s.setSrc n x).fc = s.fc := rfl
@[simp] theorem setSrc_orbit (n : Nat) (x : Src) : (s.setSrc n x).orbit = s.orbit := rfl
@[simp] theorem setSrc_pipes (n : Nat) (x : Src) : (s.setSrc n x).pipes = s.pipes := rfl
@[simp] theorem setSrc_hm (n : Nat) (x : Src) : (s.setSrc n x).hm = s.hm := rfl
@[simp] theorem setSrc_bc (n : Nat) (x : Src) : (s.setSrc n x).bc = s.bc := rfl
@[simp] theorem setSrc_cg (n : Nat) (x : Src) : (s.setSrc n x).cg = s.cg := rfl
@[simp] theorem setSrc_clk (n : Nat) (x : Src) : (s.setSrc n x).clk = s.clk := rfl
@[simp] theorem setSrc_pwr (n : Nat) (x : Src) : (s.setSrc n x).pwr = s.pwr := rfl
@[simp] theorem setSrc_dma (n : Nat) (x : Src) : (s.setSrc n x).dma = s.dma := rfl
@[simp] theorem setSrc_dec (n : Nat) (x : Src) : (s.setSrc n x).dec = s.dec := rfl
@[simp] theorem setSrc_enc (n : Nat) (x : Src) : (s.setSrc n x).enc = s.enc := rfl
@[simp] theorem setSrc_ak (n : Nat) (x : Src) : (s.setSrc n x).ak = s.ak := rfl
@[simp] theorem setSrc_od (n : Nat) (x : Src) : (s.setSrc n x).od = s.od := rfl
@[simp] theorem setSrc_emb (n : Nat) (x : Src) : (s.setSrc n x).emb = s.emb := rfl
@[simp] theorem setSrc_kin (n : Nat) (x : Src) : (s.setSrc n x).kin = s.kin := rfl
@[simp] theorem setSrc_sec (n : Nat) (x : Src) : (s.setSrc n x).sec = s.sec := rfl
@[simp] theorem setSrc_flash (n : Nat) (x : Src) : (s.setSrc n x).flash = s.flash := rfl
@[simp] theorem setSrc_pins (n : Nat) (x : Src) : (s.setSrc n x).pins = s.pins := rfl
@[simp] theorem setSrc_get (n : Nat) (x : Src) (g : FRef) : (s.setSrc n x).get g = s.get g := rfl
@[simp] theorem setSrc_is (n : Nat) (x : Src) (g : FRef) : (s.setSrc n x).is g = s.is g := rfl
@[simp] theorem setSrc_reg (n : Nat) (x : Src) (a0 : Nat) : (s.setSrc n x).reg a0 = s.reg a0 := rfl
@[simp] theorem setSrc_pipe (n : Nat) (x : Src) (p0 : Nat) : (s.setSrc n x).pipe p0 = s.pipe p0 := rfl
@[simp] theorem setSrc_handle (n : Nat) (x : Src) (h0 : Nat) : (s.setSrc n x).handle h0 = s.handle h0 := rfl
@[simp] theorem setSrc_port (n : Nat) (x : Src) (p0 : Nat) : (s.setSrc n x).port p0 = s.port p0 := rfl
@[simp] theorem setSrc_pll (n : Nat) (x : Src) (i0 : Nat) : (s.setSrc n x).pll i0 = s.pll i0 := rfl
@[simp] theorem setSrc_chan (n : Nat) (x : Src) (c0 : Nat) : (s.setSrc n x).chan c0 = s.chan c0 := rfl
@[simp] theorem setSrc_dses (n : Nat) (x : Src) (i0 : Nat) : (s.setSrc n x).dses i0 = s.dses i0 := rfl
@[simp] theorem setSrc_eses (n : Nat) (x : Src) (i0 : Nat) : (s.setSrc n x).eses i0 = s.eses i0 := rfl
@[simp] theorem setSrc_tt (n : Nat) (x : Src) (i0 : Nat) : (s.setSrc n x).tt i0 = s.tt i0 := rfl
@[simp] theorem setSrc_entry (n : Nat) (x : Src) (e0 : Nat) : (s.setSrc n x).entry e0 = s.entry e0 := rfl
@[simp] theorem setSrc_owner (n : Nat) (x : Src) (u0 : Nat) : (s.setSrc n x).owner u0 = s.owner u0 := rfl
@[simp] theorem setSrc_hmByte (n : Nat) (x : Src) (a0 : Nat) : (s.setSrc n x).hmByte a0 = s.hmByte a0 := rfl
@[simp] theorem setSrc_sramWord (n : Nat) (x : Src) (a0 : Nat) : (s.setSrc n x).sramWord a0 = s.sramWord a0 := rfl

/-! ### setTgt -/

@[simp] theorem setTgt_pending (t : Nat) (x : Tgt) : (s.setTgt t x).pending = s.pending := rfl
@[simp] theorem setTgt_outbox (t : Nat) (x : Tgt) : (s.setTgt t x).outbox = s.outbox := rfl
@[simp] theorem setTgt_now (t : Nat) (x : Tgt) : (s.setTgt t x).now = s.now := rfl
@[simp] theorem setTgt_freeCtr (t : Nat) (x : Tgt) : (s.setTgt t x).freeCtr = s.freeCtr := rfl
@[simp] theorem setTgt_regs (t : Nat) (x : Tgt) : (s.setTgt t x).regs = s.regs := rfl
@[simp] theorem setTgt_sram (t : Nat) (x : Tgt) : (s.setTgt t x).sram = s.sram := rfl
@[simp] theorem setTgt_latches (t : Nat) (x : Tgt) : (s.setTgt t x).latches = s.latches := rfl
@[simp] theorem setTgt_fc (t : Nat) (x : Tgt) : (s.setTgt t x).fc = s.fc := rfl
@[simp] theorem setTgt_orbit (t : Nat) (x : Tgt) : (s.setTgt t x).orbit = s.orbit := rfl
@[simp] theorem setTgt_pipes (t : Nat) (x : Tgt) : (s.setTgt t x).pipes = s.pipes := rfl
@[simp] theorem setTgt_hm (t : Nat) (x : Tgt) : (s.setTgt t x).hm = s.hm := rfl
@[simp] theorem setTgt_bc (t : Nat) (x : Tgt) : (s.setTgt t x).bc = s.bc := rfl
@[simp] theorem setTgt_cg (t : Nat) (x : Tgt) : (s.setTgt t x).cg = s.cg := rfl
@[simp] theorem setTgt_clk (t : Nat) (x : Tgt) : (s.setTgt t x).clk = s.clk := rfl
@[simp] theorem setTgt_pwr (t : Nat) (x : Tgt) : (s.setTgt t x).pwr = s.pwr := rfl
@[simp] theorem setTgt_dma (t : Nat) (x : Tgt) : (s.setTgt t x).dma = s.dma := rfl
@[simp] theorem setTgt_dec (t : Nat) (x : Tgt) : (s.setTgt t x).dec = s.dec := rfl
@[simp] theorem setTgt_enc (t : Nat) (x : Tgt) : (s.setTgt t x).enc = s.enc := rfl
@[simp] theorem setTgt_ak (t : Nat) (x : Tgt) : (s.setTgt t x).ak = s.ak := rfl
@[simp] theorem setTgt_od (t : Nat) (x : Tgt) : (s.setTgt t x).od = s.od := rfl
@[simp] theorem setTgt_emb (t : Nat) (x : Tgt) : (s.setTgt t x).emb = s.emb := rfl
@[simp] theorem setTgt_kin (t : Nat) (x : Tgt) : (s.setTgt t x).kin = s.kin := rfl
@[simp] theorem setTgt_sec (t : Nat) (x : Tgt) : (s.setTgt t x).sec = s.sec := rfl
@[simp] theorem setTgt_flash (t : Nat) (x : Tgt) : (s.setTgt t x).flash = s.flash := rfl
@[simp] theorem setTgt_pins (t : Nat) (x : Tgt) : (s.setTgt t x).pins = s.pins := rfl
@[simp] theorem setTgt_get (t : Nat) (x : Tgt) (g : FRef) : (s.setTgt t x).get g = s.get g := rfl
@[simp] theorem setTgt_is (t : Nat) (x : Tgt) (g : FRef) : (s.setTgt t x).is g = s.is g := rfl
@[simp] theorem setTgt_reg (t : Nat) (x : Tgt) (a0 : Nat) : (s.setTgt t x).reg a0 = s.reg a0 := rfl
@[simp] theorem setTgt_pipe (t : Nat) (x : Tgt) (p0 : Nat) : (s.setTgt t x).pipe p0 = s.pipe p0 := rfl
@[simp] theorem setTgt_handle (t : Nat) (x : Tgt) (h0 : Nat) : (s.setTgt t x).handle h0 = s.handle h0 := rfl
@[simp] theorem setTgt_port (t : Nat) (x : Tgt) (p0 : Nat) : (s.setTgt t x).port p0 = s.port p0 := rfl
@[simp] theorem setTgt_pll (t : Nat) (x : Tgt) (i0 : Nat) : (s.setTgt t x).pll i0 = s.pll i0 := rfl
@[simp] theorem setTgt_chan (t : Nat) (x : Tgt) (c0 : Nat) : (s.setTgt t x).chan c0 = s.chan c0 := rfl
@[simp] theorem setTgt_dses (t : Nat) (x : Tgt) (i0 : Nat) : (s.setTgt t x).dses i0 = s.dses i0 := rfl
@[simp] theorem setTgt_eses (t : Nat) (x : Tgt) (i0 : Nat) : (s.setTgt t x).eses i0 = s.eses i0 := rfl
@[simp] theorem setTgt_tt (t : Nat) (x : Tgt) (i0 : Nat) : (s.setTgt t x).tt i0 = s.tt i0 := rfl
@[simp] theorem setTgt_entry (t : Nat) (x : Tgt) (e0 : Nat) : (s.setTgt t x).entry e0 = s.entry e0 := rfl
@[simp] theorem setTgt_owner (t : Nat) (x : Tgt) (u0 : Nat) : (s.setTgt t x).owner u0 = s.owner u0 := rfl
@[simp] theorem setTgt_hmByte (t : Nat) (x : Tgt) (a0 : Nat) : (s.setTgt t x).hmByte a0 = s.hmByte a0 := rfl
@[simp] theorem setTgt_sramWord (t : Nat) (x : Tgt) (a0 : Nat) : (s.setTgt t x).sramWord a0 = s.sramWord a0 := rfl

/-! ### setPort -/

@[simp] theorem setPort_pending (p : Nat) (x : CgSt) : (s.setPort p x).pending = s.pending := rfl
@[simp] theorem setPort_outbox (p : Nat) (x : CgSt) : (s.setPort p x).outbox = s.outbox := rfl
@[simp] theorem setPort_now (p : Nat) (x : CgSt) : (s.setPort p x).now = s.now := rfl
@[simp] theorem setPort_freeCtr (p : Nat) (x : CgSt) : (s.setPort p x).freeCtr = s.freeCtr := rfl
@[simp] theorem setPort_regs (p : Nat) (x : CgSt) : (s.setPort p x).regs = s.regs := rfl
@[simp] theorem setPort_sram (p : Nat) (x : CgSt) : (s.setPort p x).sram = s.sram := rfl
@[simp] theorem setPort_latches (p : Nat) (x : CgSt) : (s.setPort p x).latches = s.latches := rfl
@[simp] theorem setPort_intc (p : Nat) (x : CgSt) : (s.setPort p x).intc = s.intc := rfl
@[simp] theorem setPort_fc (p : Nat) (x : CgSt) : (s.setPort p x).fc = s.fc := rfl
@[simp] theorem setPort_orbit (p : Nat) (x : CgSt) : (s.setPort p x).orbit = s.orbit := rfl
@[simp] theorem setPort_pipes (p : Nat) (x : CgSt) : (s.setPort p x).pipes = s.pipes := rfl
@[simp] theorem setPort_hm (p : Nat) (x : CgSt) : (s.setPort p x).hm = s.hm := rfl
@[simp] theorem setPort_bc (p : Nat) (x : CgSt) : (s.setPort p x).bc = s.bc := rfl
@[simp] theorem setPort_clk (p : Nat) (x : CgSt) : (s.setPort p x).clk = s.clk := rfl
@[simp] theorem setPort_pwr (p : Nat) (x : CgSt) : (s.setPort p x).pwr = s.pwr := rfl
@[simp] theorem setPort_dma (p : Nat) (x : CgSt) : (s.setPort p x).dma = s.dma := rfl
@[simp] theorem setPort_dec (p : Nat) (x : CgSt) : (s.setPort p x).dec = s.dec := rfl
@[simp] theorem setPort_enc (p : Nat) (x : CgSt) : (s.setPort p x).enc = s.enc := rfl
@[simp] theorem setPort_ak (p : Nat) (x : CgSt) : (s.setPort p x).ak = s.ak := rfl
@[simp] theorem setPort_od (p : Nat) (x : CgSt) : (s.setPort p x).od = s.od := rfl
@[simp] theorem setPort_emb (p : Nat) (x : CgSt) : (s.setPort p x).emb = s.emb := rfl
@[simp] theorem setPort_kin (p : Nat) (x : CgSt) : (s.setPort p x).kin = s.kin := rfl
@[simp] theorem setPort_sec (p : Nat) (x : CgSt) : (s.setPort p x).sec = s.sec := rfl
@[simp] theorem setPort_flash (p : Nat) (x : CgSt) : (s.setPort p x).flash = s.flash := rfl
@[simp] theorem setPort_pins (p : Nat) (x : CgSt) : (s.setPort p x).pins = s.pins := rfl
@[simp] theorem setPort_get (p : Nat) (x : CgSt) (g : FRef) : (s.setPort p x).get g = s.get g := rfl
@[simp] theorem setPort_is (p : Nat) (x : CgSt) (g : FRef) : (s.setPort p x).is g = s.is g := rfl
@[simp] theorem setPort_reg (p : Nat) (x : CgSt) (a0 : Nat) : (s.setPort p x).reg a0 = s.reg a0 := rfl
@[simp] theorem setPort_pipe (p : Nat) (x : CgSt) (p0 : Nat) : (s.setPort p x).pipe p0 = s.pipe p0 := rfl
@[simp] theorem setPort_handle (p : Nat) (x : CgSt) (h0 : Nat) : (s.setPort p x).handle h0 = s.handle h0 := rfl
@[simp] theorem setPort_pll (p : Nat) (x : CgSt) (i0 : Nat) : (s.setPort p x).pll i0 = s.pll i0 := rfl
@[simp] theorem setPort_src (p : Nat) (x : CgSt) (n0 : Nat) : (s.setPort p x).src n0 = s.src n0 := rfl
@[simp] theorem setPort_tgt (p : Nat) (x : CgSt) (t0 : Nat) : (s.setPort p x).tgt t0 = s.tgt t0 := rfl
@[simp] theorem setPort_chan (p : Nat) (x : CgSt) (c0 : Nat) : (s.setPort p x).chan c0 = s.chan c0 := rfl
@[simp] theorem setPort_dses (p : Nat) (x : CgSt) (i0 : Nat) : (s.setPort p x).dses i0 = s.dses i0 := rfl
@[simp] theorem setPort_eses (p : Nat) (x : CgSt) (i0 : Nat) : (s.setPort p x).eses i0 = s.eses i0 := rfl
@[simp] theorem setPort_tt (p : Nat) (x : CgSt) (i0 : Nat) : (s.setPort p x).tt i0 = s.tt i0 := rfl
@[simp] theorem setPort_entry (p : Nat) (x : CgSt) (e0 : Nat) : (s.setPort p x).entry e0 = s.entry e0 := rfl
@[simp] theorem setPort_owner (p : Nat) (x : CgSt) (u0 : Nat) : (s.setPort p x).owner u0 = s.owner u0 := rfl
@[simp] theorem setPort_hmByte (p : Nat) (x : CgSt) (a0 : Nat) : (s.setPort p x).hmByte a0 = s.hmByte a0 := rfl
@[simp] theorem setPort_sramWord (p : Nat) (x : CgSt) (a0 : Nat) : (s.setPort p x).sramWord a0 = s.sramWord a0 := rfl

/-! ### setPll -/

@[simp] theorem setPll_pending (i : Nat) (x : PllSt) : (s.setPll i x).pending = s.pending := rfl
@[simp] theorem setPll_outbox (i : Nat) (x : PllSt) : (s.setPll i x).outbox = s.outbox := rfl
@[simp] theorem setPll_now (i : Nat) (x : PllSt) : (s.setPll i x).now = s.now := rfl
@[simp] theorem setPll_freeCtr (i : Nat) (x : PllSt) : (s.setPll i x).freeCtr = s.freeCtr := rfl
@[simp] theorem setPll_regs (i : Nat) (x : PllSt) : (s.setPll i x).regs = s.regs := rfl
@[simp] theorem setPll_sram (i : Nat) (x : PllSt) : (s.setPll i x).sram = s.sram := rfl
@[simp] theorem setPll_latches (i : Nat) (x : PllSt) : (s.setPll i x).latches = s.latches := rfl
@[simp] theorem setPll_intc (i : Nat) (x : PllSt) : (s.setPll i x).intc = s.intc := rfl
@[simp] theorem setPll_fc (i : Nat) (x : PllSt) : (s.setPll i x).fc = s.fc := rfl
@[simp] theorem setPll_orbit (i : Nat) (x : PllSt) : (s.setPll i x).orbit = s.orbit := rfl
@[simp] theorem setPll_pipes (i : Nat) (x : PllSt) : (s.setPll i x).pipes = s.pipes := rfl
@[simp] theorem setPll_hm (i : Nat) (x : PllSt) : (s.setPll i x).hm = s.hm := rfl
@[simp] theorem setPll_bc (i : Nat) (x : PllSt) : (s.setPll i x).bc = s.bc := rfl
@[simp] theorem setPll_cg (i : Nat) (x : PllSt) : (s.setPll i x).cg = s.cg := rfl
@[simp] theorem setPll_pwr (i : Nat) (x : PllSt) : (s.setPll i x).pwr = s.pwr := rfl
@[simp] theorem setPll_dma (i : Nat) (x : PllSt) : (s.setPll i x).dma = s.dma := rfl
@[simp] theorem setPll_dec (i : Nat) (x : PllSt) : (s.setPll i x).dec = s.dec := rfl
@[simp] theorem setPll_enc (i : Nat) (x : PllSt) : (s.setPll i x).enc = s.enc := rfl
@[simp] theorem setPll_ak (i : Nat) (x : PllSt) : (s.setPll i x).ak = s.ak := rfl
@[simp] theorem setPll_od (i : Nat) (x : PllSt) : (s.setPll i x).od = s.od := rfl
@[simp] theorem setPll_emb (i : Nat) (x : PllSt) : (s.setPll i x).emb = s.emb := rfl
@[simp] theorem setPll_kin (i : Nat) (x : PllSt) : (s.setPll i x).kin = s.kin := rfl
@[simp] theorem setPll_sec (i : Nat) (x : PllSt) : (s.setPll i x).sec = s.sec := rfl
@[simp] theorem setPll_flash (i : Nat) (x : PllSt) : (s.setPll i x).flash = s.flash := rfl
@[simp] theorem setPll_pins (i : Nat) (x : PllSt) : (s.setPll i x).pins = s.pins := rfl
@[simp] theorem setPll_get (i : Nat) (x : PllSt) (g : FRef) : (s.setPll i x).get g = s.get g := rfl
@[simp] theorem setPll_is (i : Nat) (x : PllSt) (g : FRef) : (s.setPll i x).is g = s.is g := rfl
@[simp] theorem setPll_reg (i : Nat) (x : PllSt) (a0 : Nat) : (s.setPll i x).reg a0 = s.reg a0 := rfl
@[simp] theorem setPll_pipe (i : Nat) (x : PllSt) (p0 : Nat) : (s.setPll i x).pipe p0 = s.pipe p0 := rfl
@[simp] theorem setPll_handle (i : Nat) (x : PllSt) (h0 : Nat) : (s.setPll i x).handle h0 = s.handle h0 := rfl
@[simp] theorem setPll_port (i : Nat) (x : PllSt) (p0 : Nat) : (s.setPll i x).port p0 = s.port p0 := rfl
@[simp] theorem setPll_src (i : Nat) (x : PllSt) (n0 : Nat) : (s.setPll i x).src n0 = s.src n0 := rfl
@[simp] theorem setPll_tgt (i : Nat) (x : PllSt) (t0 : Nat) : (s.setPll i x).tgt t0 = s.tgt t0 := rfl
@[simp] theorem setPll_chan (i : Nat) (x : PllSt) (c0 : Nat) : (s.setPll i x).chan c0 = s.chan c0 := rfl
@[simp] theorem setPll_dses (i : Nat) (x : PllSt) (i0 : Nat) : (s.setPll i x).dses i0 = s.dses i0 := rfl
@[simp] theorem setPll_eses (i : Nat) (x : PllSt) (i0 : Nat) : (s.setPll i x).eses i0 = s.eses i0 := rfl
@[simp] theorem setPll_tt (i : Nat) (x : PllSt) (i0 : Nat) : (s.setPll i x).tt i0 = s.tt i0 := rfl
@[simp] theorem setPll_entry (i : Nat) (x : PllSt) (e0 : Nat) : (s.setPll i x).entry e0 = s.entry e0 := rfl
@[simp] theorem setPll_owner (i : Nat) (x : PllSt) (u0 : Nat) : (s.setPll i x).owner u0 = s.owner u0 := rfl
@[simp] theorem setPll_hmByte (i : Nat) (x : PllSt) (a0 : Nat) : (s.setPll i x).hmByte a0 = s.hmByte a0 := rfl
@[simp] theorem setPll_sramWord (i : Nat) (x : PllSt) (a0 : Nat) : (s.setPll i x).sramWord a0 = s.sramWord a0 := rfl

/-! ### setChan -/

@[simp] theorem setChan_pending (c : Nat) (x : Chan) : (s.setChan c x).pending = s.pending := rfl
@[simp] theorem setChan_outbox (c : Nat) (x : Chan) : (s.setChan c x).outbox = s.outbox := rfl
@[simp] theorem setChan_now (c : Nat) (x : Chan) : (s.setChan c x).now = s.now := rfl
@[simp] theorem setChan_freeCtr (c : Nat) (x : Chan) : (s.setChan c x).freeCtr = s.freeCtr := rfl
@[simp] theorem setChan_regs (c : Nat) (x : Chan) : (s.setChan c x).regs = s.regs := rfl
@[simp] theorem setChan_sram (c : Nat) (x : Chan) : (s.setChan c x).sram = s.sram := rfl
@[simp] theorem setChan_latches (c : Nat) (x : Chan) : (s.setChan c x).latches = s.latches := rfl
@[simp] theorem setChan_intc (c : Nat) (x : Chan) : (s.setChan c x).intc = s.intc := rfl
@[simp] theorem setChan_fc (c : Nat) (x : Chan) : (s.setChan c x).fc = s.fc := rfl
@[simp] theorem setChan_orbit (c : Nat) (x : Chan) : (s.setChan c x).orbit = s.orbit := rfl
@[simp] theorem setChan_pipes (c : Nat) (x : Chan) : (s.setChan c x).pipes = s.pipes := rfl
@[simp] theorem setChan_hm (c : Nat) (x : Chan) : (s.setChan c x).hm = s.hm := rfl
@[simp] theorem setChan_bc (c : Nat) (x : Chan) : (s.setChan c x).bc = s.bc := rfl
@[simp] theorem setChan_cg (c : Nat) (x : Chan) : (s.setChan c x).cg = s.cg := rfl
@[simp] theorem setChan_clk (c : Nat) (x : Chan) : (s.setChan c x).clk = s.clk := rfl
@[simp] theorem setChan_pwr (c : Nat) (x : Chan) : (s.setChan c x).pwr = s.pwr := rfl
@[simp] theorem setChan_dec (c : Nat) (x : Chan) : (s.setChan c x).dec = s.dec := rfl
@[simp] theorem setChan_enc (c : Nat) (x : Chan) : (s.setChan c x).enc = s.enc := rfl
@[simp] theorem setChan_ak (c : Nat) (x : Chan) : (s.setChan c x).ak = s.ak := rfl
@[simp] theorem setChan_od (c : Nat) (x : Chan) : (s.setChan c x).od = s.od := rfl
@[simp] theorem setChan_emb (c : Nat) (x : Chan) : (s.setChan c x).emb = s.emb := rfl
@[simp] theorem setChan_kin (c : Nat) (x : Chan) : (s.setChan c x).kin = s.kin := rfl
@[simp] theorem setChan_sec (c : Nat) (x : Chan) : (s.setChan c x).sec = s.sec := rfl
@[simp] theorem setChan_flash (c : Nat) (x : Chan) : (s.setChan c x).flash = s.flash := rfl
@[simp] theorem setChan_pins (c : Nat) (x : Chan) : (s.setChan c x).pins = s.pins := rfl
@[simp] theorem setChan_get (c : Nat) (x : Chan) (g : FRef) : (s.setChan c x).get g = s.get g := rfl
@[simp] theorem setChan_is (c : Nat) (x : Chan) (g : FRef) : (s.setChan c x).is g = s.is g := rfl
@[simp] theorem setChan_reg (c : Nat) (x : Chan) (a0 : Nat) : (s.setChan c x).reg a0 = s.reg a0 := rfl
@[simp] theorem setChan_pipe (c : Nat) (x : Chan) (p0 : Nat) : (s.setChan c x).pipe p0 = s.pipe p0 := rfl
@[simp] theorem setChan_handle (c : Nat) (x : Chan) (h0 : Nat) : (s.setChan c x).handle h0 = s.handle h0 := rfl
@[simp] theorem setChan_port (c : Nat) (x : Chan) (p0 : Nat) : (s.setChan c x).port p0 = s.port p0 := rfl
@[simp] theorem setChan_pll (c : Nat) (x : Chan) (i0 : Nat) : (s.setChan c x).pll i0 = s.pll i0 := rfl
@[simp] theorem setChan_src (c : Nat) (x : Chan) (n0 : Nat) : (s.setChan c x).src n0 = s.src n0 := rfl
@[simp] theorem setChan_tgt (c : Nat) (x : Chan) (t0 : Nat) : (s.setChan c x).tgt t0 = s.tgt t0 := rfl
@[simp] theorem setChan_dses (c : Nat) (x : Chan) (i0 : Nat) : (s.setChan c x).dses i0 = s.dses i0 := rfl
@[simp] theorem setChan_eses (c : Nat) (x : Chan) (i0 : Nat) : (s.setChan c x).eses i0 = s.eses i0 := rfl
@[simp] theorem setChan_tt (c : Nat) (x : Chan) (i0 : Nat) : (s.setChan c x).tt i0 = s.tt i0 := rfl
@[simp] theorem setChan_entry (c : Nat) (x : Chan) (e0 : Nat) : (s.setChan c x).entry e0 = s.entry e0 := rfl
@[simp] theorem setChan_owner (c : Nat) (x : Chan) (u0 : Nat) : (s.setChan c x).owner u0 = s.owner u0 := rfl
@[simp] theorem setChan_hmByte (c : Nat) (x : Chan) (a0 : Nat) : (s.setChan c x).hmByte a0 = s.hmByte a0 := rfl
@[simp] theorem setChan_sramWord (c : Nat) (x : Chan) (a0 : Nat) : (s.setChan c x).sramWord a0 = s.sramWord a0 := rfl

/-! ### setDses -/

@[simp] theorem setDses_pending (i : Nat) (x : DecSes) : (s.setDses i x).pending = s.pending := rfl
@[simp] theorem setDses_outbox (i : Nat) (x : DecSes) : (s.setDses i x).outbox = s.outbox := rfl
@[simp] theorem setDses_now (i : Nat) (x : DecSes) : (s.setDses i x).now = s.now := rfl
@[simp] theorem setDses_freeCtr (i : Nat) (x : DecSes) : (s.setDses i x).freeCtr = s.freeCtr := rfl
@[simp] theorem setDses_regs (i : Nat) (x : DecSes) : (s.setDses i x).regs = s.regs := rfl
@[simp] theorem setDses_sram (i : Nat) (x : DecSes) : (s.setDses i x).sram = s.sram := rfl
@[simp] theorem setDses_latches (i : Nat) (x : DecSes) : (s.setDses i x).latches = s.latches := rfl
@[simp] theorem setDses_intc (i : Nat) (x : DecSes) : (s.setDses i x).intc = s.intc := rfl
@[simp] theorem setDses_fc (i : Nat) (x : DecSes) : (s.setDses i x).fc = s.fc := rfl
@[simp] theorem setDses_orbit (i : Nat) (x : DecSes) : (s.setDses i x).orbit = s.orbit := rfl
@[simp] theorem setDses_pipes (i : Nat) (x : DecSes) : (s.setDses i x).pipes = s.pipes := rfl
@[simp] theorem setDses_hm (i : Nat) (x : DecSes) : (s.setDses i x).hm = s.hm := rfl
@[simp] theorem setDses_bc (i : Nat) (x : DecSes) : (s.setDses i x).bc = s.bc := rfl
@[simp] theorem setDses_cg (i : Nat) (x : DecSes) : (s.setDses i x).cg = s.cg := rfl
@[simp] theorem setDses_clk (i : Nat) (x : DecSes) : (s.setDses i x).clk = s.clk := rfl
@[simp] theorem setDses_pwr (i : Nat) (x : DecSes) : (s.setDses i x).pwr = s.pwr := rfl
@[simp] theorem setDses_dma (i : Nat) (x : DecSes) : (s.setDses i x).dma = s.dma := rfl
@[simp] theorem setDses_enc (i : Nat) (x : DecSes) : (s.setDses i x).enc = s.enc := rfl
@[simp] theorem setDses_ak (i : Nat) (x : DecSes) : (s.setDses i x).ak = s.ak := rfl
@[simp] theorem setDses_od (i : Nat) (x : DecSes) : (s.setDses i x).od = s.od := rfl
@[simp] theorem setDses_emb (i : Nat) (x : DecSes) : (s.setDses i x).emb = s.emb := rfl
@[simp] theorem setDses_kin (i : Nat) (x : DecSes) : (s.setDses i x).kin = s.kin := rfl
@[simp] theorem setDses_sec (i : Nat) (x : DecSes) : (s.setDses i x).sec = s.sec := rfl
@[simp] theorem setDses_flash (i : Nat) (x : DecSes) : (s.setDses i x).flash = s.flash := rfl
@[simp] theorem setDses_pins (i : Nat) (x : DecSes) : (s.setDses i x).pins = s.pins := rfl
@[simp] theorem setDses_get (i : Nat) (x : DecSes) (g : FRef) : (s.setDses i x).get g = s.get g := rfl
@[simp] theorem setDses_is (i : Nat) (x : DecSes) (g : FRef) : (s.setDses i x).is g = s.is g := rfl
@[simp] theorem setDses_reg (i : Nat) (x : DecSes) (a0 : Nat) : (s.setDses i x).reg a0 = s.reg a0 := rfl
@[simp] theorem setDses_pipe (i : Nat) (x : DecSes) (p0 : Nat) : (s.setDses i x).pipe p0 = s.pipe p0 := rfl
@[simp] theorem setDses_handle (i : Nat) (x : DecSes) (h0 : Nat) : (s.setDses i x).handle h0 = s.handle h0 := rfl
@[simp] theorem setDses_port (i : Nat) (x : DecSes) (p0 : Nat) : (s.setDses i x).port p0 = s.port p0 := rfl
@[simp] theorem setDses_pll (i : Nat) (x : DecSes) (i0 : Nat) : (s.setDses i x).pll i0 = s.pll i0 := rfl
@[simp] theorem setDses_src (i : Nat) (x : DecSes) (n0 : Nat) : (s.setDses i x).src n0 = s.src n0 := rfl
@[simp] theorem setDses_tgt (i : Nat) (x : DecSes) (t0 : Nat) : (s.setDses i x).tgt t0 = s.tgt t0 := rfl
@[simp] theorem setDses_chan (i : Nat) (x : DecSes) (c0 : Nat) : (s.setDses i x).chan c0 = s.chan c0 := rfl
@[simp] theorem setDses_eses (i : Nat) (x : DecSes) (i0 : Nat) : (s.setDses i x).eses i0 = s.eses i0 := rfl
@[simp] theorem setDses_tt (i : Nat) (x : DecSes) (i0 : Nat) : (s.setDses i x).tt i0 = s.tt i0 := rfl
@[simp] theorem setDses_entry (i : Nat) (x : DecSes) (e0 : Nat) : (s.setDses i x).entry e0 = s.entry e0 := rfl
@[simp] theorem setDses_owner (i : Nat) (x : DecSes) (u0 : Nat) : (s.setDses i x).owner u0 = s.owner u0 := rfl
@[simp] theorem setDses_hmByte (i : Nat) (x : DecSes) (a0 : Nat) : (s.setDses i x).hmByte a0 = s.hmByte a0 := rfl
@[simp] theorem setDses_sramWord (i : Nat) (x : DecSes) (a0 : Nat) : (s.setDses i x).sramWord a0 = s.sramWord a0 := rfl

/-! ### setEses -/

@[simp] theorem setEses_pending (i : Nat) (x : EncSes) : (s.setEses i x).pending = s.pending := rfl
@[simp] theorem setEses_outbox (i : Nat) (x : EncSes) : (s.setEses i x).outbox = s.outbox := rfl
@[simp] theorem setEses_now (i : Nat) (x : EncSes) : (s.setEses i x).now = s.now := rfl
@[simp] theorem setEses_freeCtr (i : Nat) (x : EncSes) : (s.setEses i x).freeCtr = s.freeCtr := rfl
@[simp] theorem setEses_regs (i : Nat) (x : EncSes) : (s.setEses i x).regs = s.regs := rfl
@[simp] theorem setEses_sram (i : Nat) (x : EncSes) : (s.setEses i x).sram = s.sram := rfl
@[simp] theorem setEses_latches (i : Nat) (x : EncSes) : (s.setEses i x).latches = s.latches := rfl
@[simp] theorem setEses_intc (i : Nat) (x : EncSes) : (s.setEses i x).intc = s.intc := rfl
@[simp] theorem setEses_fc (i : Nat) (x : EncSes) : (s.setEses i x).fc = s.fc := rfl
@[simp] theorem setEses_orbit (i : Nat) (x : EncSes) : (s.setEses i x).orbit = s.orbit := rfl
@[simp] theorem setEses_pipes (i : Nat) (x : EncSes) : (s.setEses i x).pipes = s.pipes := rfl
@[simp] theorem setEses_hm (i : Nat) (x : EncSes) : (s.setEses i x).hm = s.hm := rfl
@[simp] theorem setEses_bc (i : Nat) (x : EncSes) : (s.setEses i x).bc = s.bc := rfl
@[simp] theorem setEses_cg (i : Nat) (x : EncSes) : (s.setEses i x).cg = s.cg := rfl
@[simp] theorem setEses_clk (i : Nat) (x : EncSes) : (s.setEses i x).clk = s.clk := rfl
@[simp] theorem setEses_pwr (i : Nat) (x : EncSes) : (s.setEses i x).pwr = s.pwr := rfl
@[simp] theorem setEses_dma (i : Nat) (x : EncSes) : (s.setEses i x).dma = s.dma := rfl
@[simp] theorem setEses_dec (i : Nat) (x : EncSes) : (s.setEses i x).dec = s.dec := rfl
@[simp] theorem setEses_ak (i : Nat) (x : EncSes) : (s.setEses i x).ak = s.ak := rfl
@[simp] theorem setEses_od (i : Nat) (x : EncSes) : (s.setEses i x).od = s.od := rfl
@[simp] theorem setEses_emb (i : Nat) (x : EncSes) : (s.setEses i x).emb = s.emb := rfl
@[simp] theorem setEses_kin (i : Nat) (x : EncSes) : (s.setEses i x).kin = s.kin := rfl
@[simp] theorem setEses_sec (i : Nat) (x : EncSes) : (s.setEses i x).sec = s.sec := rfl
@[simp] theorem setEses_flash (i : Nat) (x : EncSes) : (s.setEses i x).flash = s.flash := rfl
@[simp] theorem setEses_pins (i : Nat) (x : EncSes) : (s.setEses i x).pins = s.pins := rfl
@[simp] theorem setEses_get (i : Nat) (x : EncSes) (g : FRef) : (s.setEses i x).get g = s.get g := rfl
@[simp] theorem setEses_is (i : Nat) (x : EncSes) (g : FRef) : (s.setEses i x).is g = s.is g := rfl
@[simp] theorem setEses_reg (i : Nat) (x : EncSes) (a0 : Nat) : (s.setEses i x).reg a0 = s.reg a0 := rfl
@[simp] theorem setEses_pipe (i : Nat) (x : EncSes) (p0 : Nat) : (s.setEses i x).pipe p0 = s.pipe p0 := rfl
@[simp] theorem setEses_handle (i : Nat) (x : EncSes) (h0 : Nat) : (s.setEses i x).handle h0 = s.handle h0 := rfl
@[simp] theorem setEses_port (i : Nat) (x : EncSes) (p0 : Nat) : (s.setEses i x).port p0 = s.port p0 := rfl
@[simp] theorem setEses_pll (i : Nat) (x : EncSes) (i0 : Nat) : (s.setEses i x).pll i0 = s.pll i0 := rfl
@[simp] theorem setEses_src (i : Nat) (x : EncSes) (n0 : Nat) : (s.setEses i x).src n0 = s.src n0 := rfl
@[simp] theorem setEses_tgt (i : Nat) (x : EncSes) (t0 : Nat) : (s.setEses i x).tgt t0 = s.tgt t0 := rfl
@[simp] theorem setEses_chan (i : Nat) (x : EncSes) (c0 : Nat) : (s.setEses i x).chan c0 = s.chan c0 := rfl
@[simp] theorem setEses_dses (i : Nat) (x : EncSes) (i0 : Nat) : (s.setEses i x).dses i0 = s.dses i0 := rfl
@[simp] theorem setEses_tt (i : Nat) (x : EncSes) (i0 : Nat) : (s.setEses i x).tt i0 = s.tt i0 := rfl
@[simp] theorem setEses_entry (i : Nat) (x : EncSes) (e0 : Nat) : (s.setEses i x).entry e0 = s.entry e0 := rfl
@[simp] theorem setEses_owner (i : Nat) (x : EncSes) (u0 : Nat) : (s.setEses i x).owner u0 = s.owner u0 := rfl
@[simp] theorem setEses_hmByte (i : Nat) (x : EncSes) (a0 : Nat) : (s.setEses i x).hmByte a0 = s.hmByte a0 := rfl
@[simp] theorem setEses_sramWord (i : Nat) (x : EncSes) (a0 : Nat) : (s.setEses i x).sramWord a0 = s.sramWord a0 := rfl

/-! ### setTt -/

@[simp] theorem setTt_pending (i : Nat) (x : TtSt) : (s.setTt i x).pending = s.pending := rfl
@[simp] theorem setTt_outbox (i : Nat) (x : TtSt) : (s.setTt i x).outbox = s.outbox := rfl
@[simp] theorem setTt_now (i : Nat) (x : TtSt) : (s.setTt i x).now = s.now := rfl
@[simp] theorem setTt_freeCtr (i : Nat) (x : TtSt) : (s.setTt i x).freeCtr = s.freeCtr := rfl
@[simp] theorem setTt_regs (i : Nat) (x : TtSt) : (s.setTt i x).regs = s.regs := rfl
@[simp] theorem setTt_sram (i : Nat) (x : TtSt) : (s.setTt i x).sram = s.sram := rfl
@[simp] theorem setTt_latches (i : Nat) (x : TtSt) : (s.setTt i x).latches = s.latches := rfl
@[simp] theorem setTt_intc (i : Nat) (x : TtSt) : (s.setTt i x).intc = s.intc := rfl
@[simp] theorem setTt_fc (i : Nat) (x : TtSt) : (s.setTt i x).fc = s.fc := rfl
@[simp] theorem setTt_orbit (i : Nat) (x : TtSt) : (s.setTt i x).orbit = s.orbit := rfl
@[simp] theorem setTt_pipes (i : Nat) (x : TtSt) : (s.setTt i x).pipes = s.pipes := rfl
@[simp] theorem setTt_hm (i : Nat) (x : TtSt) : (s.setTt i x).hm = s.hm := rfl
@[simp] theorem setTt_cg (i : Nat) (x : TtSt) : (s.setTt i x).cg = s.cg := rfl
@[simp] theorem setTt_clk (i : Nat) (x : TtSt) : (s.setTt i x).clk = s.clk := rfl
@[simp] theorem setTt_pwr (i : Nat) (x : TtSt) : (s.setTt i x).pwr = s.pwr := rfl
@[simp] theorem setTt_dma (i : Nat) (x : TtSt) : (s.setTt i x).dma = s.dma := rfl
@[simp] theorem setTt_dec (i : Nat) (x : TtSt) : (s.setTt i x).dec = s.dec := rfl
@[simp] theorem setTt_enc (i : Nat) (x : TtSt) : (s.setTt i x).enc = s.enc := rfl
@[simp] theorem setTt_ak (i : Nat) (x : TtSt) : (s.setTt i x).ak = s.ak := rfl
@[simp] theorem setTt_od (i : Nat) (x : TtSt) : (s.setTt i x).od = s.od := rfl
@[simp] theorem setTt_emb (i : Nat) (x : TtSt) : (s.setTt i x).emb = s.emb := rfl
@[simp] theorem setTt_kin (i : Nat) (x : TtSt) : (s.setTt i x).kin = s.kin := rfl
@[simp] theorem setTt_sec (i : Nat) (x : TtSt) : (s.setTt i x).sec = s.sec := rfl
@[simp] theorem setTt_flash (i : Nat) (x : TtSt) : (s.setTt i x).flash = s.flash := rfl
@[simp] theorem setTt_pins (i : Nat) (x : TtSt) : (s.setTt i x).pins = s.pins := rfl
@[simp] theorem setTt_get (i : Nat) (x : TtSt) (g : FRef) : (s.setTt i x).get g = s.get g := rfl
@[simp] theorem setTt_is (i : Nat) (x : TtSt) (g : FRef) : (s.setTt i x).is g = s.is g := rfl
@[simp] theorem setTt_reg (i : Nat) (x : TtSt) (a0 : Nat) : (s.setTt i x).reg a0 = s.reg a0 := rfl
@[simp] theorem setTt_pipe (i : Nat) (x : TtSt) (p0 : Nat) : (s.setTt i x).pipe p0 = s.pipe p0 := rfl
@[simp] theorem setTt_handle (i : Nat) (x : TtSt) (h0 : Nat) : (s.setTt i x).handle h0 = s.handle h0 := rfl
@[simp] theorem setTt_port (i : Nat) (x : TtSt) (p0 : Nat) : (s.setTt i x).port p0 = s.port p0 := rfl
@[simp] theorem setTt_pll (i : Nat) (x : TtSt) (i0 : Nat) : (s.setTt i x).pll i0 = s.pll i0 := rfl
@[simp] theorem setTt_src (i : Nat) (x : TtSt) (n0 : Nat) : (s.setTt i x).src n0 = s.src n0 := rfl
@[simp] theorem setTt_tgt (i : Nat) (x : TtSt) (t0 : Nat) : (s.setTt i x).tgt t0 = s.tgt t0 := rfl
@[simp] theorem setTt_chan (i : Nat) (x : TtSt) (c0 : Nat) : (s.setTt i x).chan c0 = s.chan c0 := rfl
@[simp] theorem setTt_dses (i : Nat) (x : TtSt) (i0 : Nat) : (s.setTt i x).dses i0 = s.dses i0 := rfl
@[simp] theorem setTt_eses (i : Nat) (x : TtSt) (i0 : Nat) : (s.setTt i x).eses i0 = s.eses i0 := rfl
@[simp] theorem setTt_owner (i : Nat) (x : TtSt) (u0 : Nat) : (s.setTt i x).owner u0 = s.owner u0 := rfl
@[simp] theorem setTt_hmByte (i : Nat) (x : TtSt) (a0 : Nat) : (s.setTt i x).hmByte a0 = s.hmByte a0 := rfl
@[simp] theorem setTt_sramWord (i : Nat) (x : TtSt) (a0 : Nat) : (s.setTt i x).sramWord a0 = s.sramWord a0 := rfl

@[simp] theorem setPipe_pipe_self (p : Nat) (x : PipeSt) : (s.setPipe p x).pipe p = x := SMap.get_set_self _ _ _ _
theorem setPipe_pipe_ne {p j : Nat} (x : PipeSt) (hne : j ≠ p) : (s.setPipe p x).pipe j = s.pipe j := SMap.get_set_ne _ _ _ _ hne
@[simp] theorem setHandle_handle_self (h : Nat) (x : Handle) : (s.setHandle h x).handle h = x := SMap.get_set_self _ _ _ _
theorem setHandle_handle_ne {h j : Nat} (x : Handle) (hne : j ≠ h) : (s.setHandle h x).handle j = s.handle j := SMap.get_set_ne _ _ _ _ hne
@[simp] theorem setSrc_src_self (n : Nat) (x : Src) : (s.setSrc n x).src n = x := SMap.get_set_self _ _ _ _
theorem setSrc_src_ne {n j : Nat} (x : Src) (hne : j ≠ n) : (s.setSrc n x).src j = s.src j := SMap.get_set_ne _ _ _ _ hne
@[simp] theorem setTgt_tgt_self (t : Nat) (x : Tgt) : (s.setTgt t x).tgt t = x := SMap.get_set_self _ _ _ _
theorem setTgt_tgt_ne {t j : Nat} (x : Tgt) (hne : j ≠ t) : (s.setTgt t x).tgt j = s.tgt j := SMap.get_set_ne _ _ _ _ hne
@[simp] theorem setPort_port_self (p : Nat) (x : CgSt) : (s.setPort p x).port p = x := SMap.get_set_self _ _ _ _
theorem setPort_port_ne {p j : Nat} (x : CgSt) (hne : j ≠ p) : (s.setPort p x).port j = s.port j := SMap.get_set_ne _ _ _ _ hne
@[simp] theorem setPll_pll_self (i : Nat) (x : PllSt) : (s.setPll i x).pll i = x := SMap.get_set_self _ _ _ _
theorem setPll_pll_ne {i j : Nat} (x : PllSt) (hne : j ≠ i) : (s.setPll i x).pll j = s.pll j := SMap.get_set_ne _ _ _ _ hne
@[simp] theorem setChan_chan_self (c : Nat) (x : Chan) : (s.setChan c x).chan c = x := SMap.get_set_self _ _ _ _
theorem setChan_chan_ne {c j : Nat} (x : Chan) (hne : j ≠ c) : (s.setChan c x).chan j = s.chan j := SMap.get_set_ne _ _ _ _ hne
@[simp] theorem setDses_dses_self (i : Nat) (x : DecSes) : (s.setDses i x).dses i = x := SMap.get_set_self _ _ _ _
theorem setDses_dses_ne {i j : Nat} (x : DecSes) (hne : j ≠ i) : (s.setDses i x).dses j = s.dses j := SMap.get_set_ne _ _ _ _ hne
@[simp] theorem setEses_eses_self (i : Nat) (x : EncSes) : (s.setEses i x).eses i = x := SMap.get_set_self _ _ _ _
theorem setEses_eses_ne {i j : Nat} (x : EncSes) (hne : j ≠ i) : (s.setEses i x).eses j = s.eses j := SMap.get_set_ne _ _ _ _ hne
@[simp] theorem setTt_tt_self (i : Nat) (x : TtSt) : (s.setTt i x).tt i = x := SMap.get_set_self _ _ _ _
theorem setTt_tt_ne {i j : Nat} (x : TtSt) (hne : j ≠ i) : (s.setTt i x).tt j = s.tt j := SMap.get_set_ne _ _ _ _ hne
/-- A fold keeps what each of its steps keeps. -/
theorem foldl_keeps {β γ : Type} (g : State → γ) (f : State → β → State) (h : ∀ s x, g (f s x) = g s) (xs : List β) (s : State) :
    g (xs.foldl f s) = g s := by
  induction xs generalizing s with
  | nil => rfl
  | cons x xs ih => rw [List.foldl_cons, ih, h]

theorem forAll_keeps {γ : Type} (g : State → γ) (f : Nat → State → State) (h : ∀ x s, g (f x s) = g s) (xs : List Nat) (s : State) :
    g (forAll xs f s) = g s := foldl_keeps g _ (fun s x => h x s) xs s

/-! ### occur -/

theorem occur_frame (n : Nat) : s.occur n = { s with intc := (s.occur n).intc } := by unfold State.occur State.setPending; split <;> rfl
@[simp] theorem occur_pending (n : Nat) : (s.occur n).pending = s.pending := congrArg (fun x => x.pending) (occur_frame s n)
@[simp] theorem occur_outbox (n : Nat) : (s.occur n).outbox = s.outbox := congrArg (fun x => x.outbox) (occur_frame s n)
@[simp] theorem occur_now (n : Nat) : (s.occur n).now = s.now := congrArg (fun x => x.now) (occur_frame s n)
@[simp] theorem occur_freeCtr (n : Nat) : (s.occur n).freeCtr = s.freeCtr := congrArg (fun x => x.freeCtr) (occur_frame s n)
@[simp] theorem occur_regs (n : Nat) : (s.occur n).regs = s.regs := congrArg (fun x => x.regs) (occur_frame s n)
@[simp] theorem occur_sram (n : Nat) : (s.occur n).sram = s.sram := congrArg (fun x => x.sram) (occur_frame s n)
@[simp] theorem occur_latches (n : Nat) : (s.occur n).latches = s.latches := congrArg (fun x => x.latches) (occur_frame s n)
@[simp] theorem occur_fc (n : Nat) : (s.occur n).fc = s.fc := congrArg (fun x => x.fc) (occur_frame s n)
@[simp] theorem occur_orbit (n : Nat) : (s.occur n).orbit = s.orbit := congrArg (fun x => x.orbit) (occur_frame s n)
@[simp] theorem occur_pipes (n : Nat) : (s.occur n).pipes = s.pipes := congrArg (fun x => x.pipes) (occur_frame s n)
@[simp] theorem occur_hm (n : Nat) : (s.occur n).hm = s.hm := congrArg (fun x => x.hm) (occur_frame s n)
@[simp] theorem occur_bc (n : Nat) : (s.occur n).bc = s.bc := congrArg (fun x => x.bc) (occur_frame s n)
@[simp] theorem occur_cg (n : Nat) : (s.occur n).cg = s.cg := congrArg (fun x => x.cg) (occur_frame s n)
@[simp] theorem occur_clk (n : Nat) : (s.occur n).clk = s.clk := congrArg (fun x => x.clk) (occur_frame s n)
@[simp] theorem occur_pwr (n : Nat) : (s.occur n).pwr = s.pwr := congrArg (fun x => x.pwr) (occur_frame s n)
@[simp] theorem occur_dma (n : Nat) : (s.occur n).dma = s.dma := congrArg (fun x => x.dma) (occur_frame s n)
@[simp] theorem occur_dec (n : Nat) : (s.occur n).dec = s.dec := congrArg (fun x => x.dec) (occur_frame s n)
@[simp] theorem occur_enc (n : Nat) : (s.occur n).enc = s.enc := congrArg (fun x => x.enc) (occur_frame s n)
@[simp] theorem occur_ak (n : Nat) : (s.occur n).ak = s.ak := congrArg (fun x => x.ak) (occur_frame s n)
@[simp] theorem occur_od (n : Nat) : (s.occur n).od = s.od := congrArg (fun x => x.od) (occur_frame s n)
@[simp] theorem occur_emb (n : Nat) : (s.occur n).emb = s.emb := congrArg (fun x => x.emb) (occur_frame s n)
@[simp] theorem occur_kin (n : Nat) : (s.occur n).kin = s.kin := congrArg (fun x => x.kin) (occur_frame s n)
@[simp] theorem occur_sec (n : Nat) : (s.occur n).sec = s.sec := congrArg (fun x => x.sec) (occur_frame s n)
@[simp] theorem occur_flash (n : Nat) : (s.occur n).flash = s.flash := congrArg (fun x => x.flash) (occur_frame s n)
@[simp] theorem occur_pins (n : Nat) : (s.occur n).pins = s.pins := congrArg (fun x => x.pins) (occur_frame s n)
@[simp] theorem occur_get (n : Nat) (g : FRef) : (s.occur n).get g = s.get g := congrArg (fun x => x.get g) (occur_frame s n)
@[simp] theorem occur_is (n : Nat) (g : FRef) : (s.occur n).is g = s.is g := congrArg (fun x => x.is g) (occur_frame s n)
@[simp] theorem occur_reg (n : Nat) (a0 : Nat) : (s.occur n).reg a0 = s.reg a0 := congrArg (fun x => x.reg a0) (occur_frame s n)
@[simp] theorem occur_pipe (n : Nat) (p0 : Nat) : (s.occur n).pipe p0 = s.pipe p0 := congrArg (fun x => x.pipe p0) (occur_frame s n)
@[simp] theorem occur_handle (n : Nat) (h0 : Nat) : (s.occur n).handle h0 = s.handle h0 := congrArg (fun x => x.handle h0) (occur_frame s n)
@[simp] theorem occur_port (n : Nat) (p0 : Nat) : (s.occur n).port p0 = s.port p0 := congrArg (fun x => x.port p0) (occur_frame s n)
@[simp] theorem occur_pll (n : Nat) (i0 : Nat) : (s.occur n).pll i0 = s.pll i0 := congrArg (fun x => x.pll i0) (occur_frame s n)
@[simp] theorem occur_chan (n : Nat) (c0 : Nat) : (s.occur n).chan c0 = s.chan c0 := congrArg (fun x => x.chan c0) (occur_frame s n)
@[simp] theorem occur_dses (n : Nat) (i0 : Nat) : (s.occur n).dses i0 = s.dses i0 := congrArg (fun x => x.dses i0) (occur_frame s n)
@[simp] theorem occur_eses (n : Nat) (i0 : Nat) : (s.occur n).eses i0 = s.eses i0 := congrArg (fun x => x.eses i0) (occur_frame s n)
@[simp] theorem occur_tt (n : Nat) (i0 : Nat) : (s.occur n).tt i0 = s.tt i0 := congrArg (fun x => x.tt i0) (occur_frame s n)
@[simp] theorem occur_entry (n : Nat) (e0 : Nat) : (s.occur n).entry e0 = s.entry e0 := congrArg (fun x => x.entry e0) (occur_frame s n)
@[simp] theorem occur_owner (n : Nat) (u0 : Nat) : (s.occur n).owner u0 = s.owner u0 := congrArg (fun x => x.owner u0) (occur_frame s n)
@[simp] theorem occur_hmByte (n : Nat) (a0 : Nat) : (s.occur n).hmByte a0 = s.hmByte a0 := congrArg (fun x => x.hmByte a0) (occur_frame s n)
@[simp] theorem occur_sramWord (n : Nat) (a0 : Nat) : (s.occur n).sramWord a0 = s.sramWord a0 := congrArg (fun x => x.sramWord a0) (occur_frame s n)

/-! ### level -/

theorem level_frame (n : Nat) (b : Bool) : s.level n b = { s with intc := (s.level n b).intc } := by unfold State.level; dsimp only; repeat (first | rfl | split)
@[simp] theorem level_pending (n : Nat) (b : Bool) : (s.level n b).pending = s.pending := congrArg (fun x => x.pending) (level_frame s n b)
@[simp] theorem level_outbox (n : Nat) (b : Bool) : (s.level n b).outbox = s.outbox := congrArg (fun x => x.outbox) (level_frame s n b)
@[simp] theorem level_now (n : Nat) (b : Bool) : (s.level n b).now = s.now := congrArg (fun x => x.now) (level_frame s n b)
@[simp] theorem level_freeCtr (n : Nat) (b : Bool) : (s.level n b).freeCtr = s.freeCtr := congrArg (fun x => x.freeCtr) (level_frame s n b)
@[simp] theorem level_regs (n : Nat) (b : Bool) : (s.level n b).regs = s.regs := congrArg (fun x => x.regs) (level_frame s n b)
@[simp] theorem level_sram (n : Nat) (b : Bool) : (s.level n b).sram = s.sram := congrArg (fun x => x.sram) (level_frame s n b)
@[simp] theorem level_latches (n : Nat) (b : Bool) : (s.level n b).latches = s.latches := congrArg (fun x => x.latches) (level_frame s n b)
@[simp] theorem level_fc (n : Nat) (b : Bool) : (s.level n b).fc = s.fc := congrArg (fun x => x.fc) (level_frame s n b)
@[simp] theorem level_orbit (n : Nat) (b : Bool) : (s.level n b).orbit = s.orbit := congrArg (fun x => x.orbit) (level_frame s n b)
@[simp] theorem level_pipes (n : Nat) (b : Bool) : (s.level n b).pipes = s.pipes := congrArg (fun x => x.pipes) (level_frame s n b)
@[simp] theorem level_hm (n : Nat) (b : Bool) : (s.level n b).hm = s.hm := congrArg (fun x => x.hm) (level_frame s n b)
@[simp] theorem level_bc (n : Nat) (b : Bool) : (s.level n b).bc = s.bc := congrArg (fun x => x.bc) (level_frame s n b)
@[simp] theorem level_cg (n : Nat) (b : Bool) : (s.level n b).cg = s.cg := congrArg (fun x => x.cg) (level_frame s n b)
@[simp] theorem level_clk (n : Nat) (b : Bool) : (s.level n b).clk = s.clk := congrArg (fun x => x.clk) (level_frame s n b)
@[simp] theorem level_pwr (n : Nat) (b : Bool) : (s.level n b).pwr = s.pwr := congrArg (fun x => x.pwr) (level_frame s n b)
@[simp] theorem level_dma (n : Nat) (b : Bool) : (s.level n b).dma = s.dma := congrArg (fun x => x.dma) (level_frame s n b)
@[simp] theorem level_dec (n : Nat) (b : Bool) : (s.level n b).dec = s.dec := congrArg (fun x => x.dec) (level_frame s n b)
@[simp] theorem level_enc (n : Nat) (b : Bool) : (s.level n b).enc = s.enc := congrArg (fun x => x.enc) (level_frame s n b)
@[simp] theorem level_ak (n : Nat) (b : Bool) : (s.level n b).ak = s.ak := congrArg (fun x => x.ak) (level_frame s n b)
@[simp] theorem level_od (n : Nat) (b : Bool) : (s.level n b).od = s.od := congrArg (fun x => x.od) (level_frame s n b)
@[simp] theorem level_emb (n : Nat) (b : Bool) : (s.level n b).emb = s.emb := congrArg (fun x => x.emb) (level_frame s n b)
@[simp] theorem level_kin (n : Nat) (b : Bool) : (s.level n b).kin = s.kin := congrArg (fun x => x.kin) (level_frame s n b)
@[simp] theorem level_sec (n : Nat) (b : Bool) : (s.level n b).sec = s.sec := congrArg (fun x => x.sec) (level_frame s n b)
@[simp] theorem level_flash (n : Nat) (b : Bool) : (s.level n b).flash = s.flash := congrArg (fun x => x.flash) (level_frame s n b)
@[simp] theorem level_pins (n : Nat) (b : Bool) : (s.level n b).pins = s.pins := congrArg (fun x => x.pins) (level_frame s n b)
@[simp] theorem level_get (n : Nat) (b : Bool) (g : FRef) : (s.level n b).get g = s.get g := congrArg (fun x => x.get g) (level_frame s n b)
@[simp] theorem level_is (n : Nat) (b : Bool) (g : FRef) : (s.level n b).is g = s.is g := congrArg (fun x => x.is g) (level_frame s n b)
@[simp] theorem level_reg (n : Nat) (b : Bool) (a0 : Nat) : (s.level n b).reg a0 = s.reg a0 := congrArg (fun x => x.reg a0) (level_frame s n b)
@[simp] theorem level_pipe (n : Nat) (b : Bool) (p0 : Nat) : (s.level n b).pipe p0 = s.pipe p0 := congrArg (fun x => x.pipe p0) (level_frame s n b)
@[simp] theorem level_handle (n : Nat) (b : Bool) (h0 : Nat) : (s.level n b).handle h0 = s.handle h0 := congrArg (fun x => x.handle h0) (level_frame s n b)
@[simp] theorem level_port (n : Nat) (b : Bool) (p0 : Nat) : (s.level n b).port p0 = s.port p0 := congrArg (fun x => x.port p0) (level_frame s n b)
@[simp] theorem level_pll (n : Nat) (b : Bool) (i0 : Nat) : (s.level n b).pll i0 = s.pll i0 := congrArg (fun x => x.pll i0) (level_frame s n b)
@[simp] theorem level_chan (n : Nat) (b : Bool) (c0 : Nat) : (s.level n b).chan c0 = s.chan c0 := congrArg (fun x => x.chan c0) (level_frame s n b)
@[simp] theorem level_dses (n : Nat) (b : Bool) (i0 : Nat) : (s.level n b).dses i0 = s.dses i0 := congrArg (fun x => x.dses i0) (level_frame s n b)
@[simp] theorem level_eses (n : Nat) (b : Bool) (i0 : Nat) : (s.level n b).eses i0 = s.eses i0 := congrArg (fun x => x.eses i0) (level_frame s n b)
@[simp] theorem level_tt (n : Nat) (b : Bool) (i0 : Nat) : (s.level n b).tt i0 = s.tt i0 := congrArg (fun x => x.tt i0) (level_frame s n b)
@[simp] theorem level_entry (n : Nat) (b : Bool) (e0 : Nat) : (s.level n b).entry e0 = s.entry e0 := congrArg (fun x => x.entry e0) (level_frame s n b)
@[simp] theorem level_owner (n : Nat) (b : Bool) (u0 : Nat) : (s.level n b).owner u0 = s.owner u0 := congrArg (fun x => x.owner u0) (level_frame s n b)
@[simp] theorem level_hmByte (n : Nat) (b : Bool) (a0 : Nat) : (s.level n b).hmByte a0 = s.hmByte a0 := congrArg (fun x => x.hmByte a0) (level_frame s n b)
@[simp] theorem level_sramWord (n : Nat) (b : Bool) (a0 : Nat) : (s.level n b).sramWord a0 = s.sramWord a0 := congrArg (fun x => x.sramWord a0) (level_frame s n b)

/-! ### record -/

theorem record_frame (n code unit arg : Nat) : s.record n code unit arg = { s with intc := (s.record n code unit arg).intc } := by unfold State.record; dsimp only; split <;> rfl
@[simp] theorem record_pending (n code unit arg : Nat) : (s.record n code unit arg).pending = s.pending := congrArg (fun x => x.pending) (record_frame s n code unit arg)
@[simp] theorem record_outbox (n code unit arg : Nat) : (s.record n code unit arg).outbox = s.outbox := congrArg (fun x => x.outbox) (record_frame s n code unit arg)
@[simp] theorem record_now (n code unit arg : Nat) : (s.record n code unit arg).now = s.now := congrArg (fun x => x.now) (record_frame s n code unit arg)
@[simp] theorem record_freeCtr (n code unit arg : Nat) : (s.record n code unit arg).freeCtr = s.freeCtr := congrArg (fun x => x.freeCtr) (record_frame s n code unit arg)
@[simp] theorem record_regs (n code unit arg : Nat) : (s.record n code unit arg).regs = s.regs := congrArg (fun x => x.regs) (record_frame s n code unit arg)
@[simp] theorem record_sram (n code unit arg : Nat) : (s.record n code unit arg).sram = s.sram := congrArg (fun x => x.sram) (record_frame s n code unit arg)
@[simp] theorem record_latches (n code unit arg : Nat) : (s.record n code unit arg).latches = s.latches := congrArg (fun x => x.latches) (record_frame s n code unit arg)
@[simp] theorem record_fc (n code unit arg : Nat) : (s.record n code unit arg).fc = s.fc := congrArg (fun x => x.fc) (record_frame s n code unit arg)
@[simp] theorem record_orbit (n code unit arg : Nat) : (s.record n code unit arg).orbit = s.orbit := congrArg (fun x => x.orbit) (record_frame s n code unit arg)
@[simp] theorem record_pipes (n code unit arg : Nat) : (s.record n code unit arg).pipes = s.pipes := congrArg (fun x => x.pipes) (record_frame s n code unit arg)
@[simp] theorem record_hm (n code unit arg : Nat) : (s.record n code unit arg).hm = s.hm := congrArg (fun x => x.hm) (record_frame s n code unit arg)
@[simp] theorem record_bc (n code unit arg : Nat) : (s.record n code unit arg).bc = s.bc := congrArg (fun x => x.bc) (record_frame s n code unit arg)
@[simp] theorem record_cg (n code unit arg : Nat) : (s.record n code unit arg).cg = s.cg := congrArg (fun x => x.cg) (record_frame s n code unit arg)
@[simp] theorem record_clk (n code unit arg : Nat) : (s.record n code unit arg).clk = s.clk := congrArg (fun x => x.clk) (record_frame s n code unit arg)
@[simp] theorem record_pwr (n code unit arg : Nat) : (s.record n code unit arg).pwr = s.pwr := congrArg (fun x => x.pwr) (record_frame s n code unit arg)
@[simp] theorem record_dma (n code unit arg : Nat) : (s.record n code unit arg).dma = s.dma := congrArg (fun x => x.dma) (record_frame s n code unit arg)
@[simp] theorem record_dec (n code unit arg : Nat) : (s.record n code unit arg).dec = s.dec := congrArg (fun x => x.dec) (record_frame s n code unit arg)
@[simp] theorem record_enc (n code unit arg : Nat) : (s.record n code unit arg).enc = s.enc := congrArg (fun x => x.enc) (record_frame s n code unit arg)
@[simp] theorem record_ak (n code unit arg : Nat) : (s.record n code unit arg).ak = s.ak := congrArg (fun x => x.ak) (record_frame s n code unit arg)
@[simp] theorem record_od (n code unit arg : Nat) : (s.record n code unit arg).od = s.od := congrArg (fun x => x.od) (record_frame s n code unit arg)
@[simp] theorem record_emb (n code unit arg : Nat) : (s.record n code unit arg).emb = s.emb := congrArg (fun x => x.emb) (record_frame s n code unit arg)
@[simp] theorem record_kin (n code unit arg : Nat) : (s.record n code unit arg).kin = s.kin := congrArg (fun x => x.kin) (record_frame s n code unit arg)
@[simp] theorem record_sec (n code unit arg : Nat) : (s.record n code unit arg).sec = s.sec := congrArg (fun x => x.sec) (record_frame s n code unit arg)
@[simp] theorem record_flash (n code unit arg : Nat) : (s.record n code unit arg).flash = s.flash := congrArg (fun x => x.flash) (record_frame s n code unit arg)
@[simp] theorem record_pins (n code unit arg : Nat) : (s.record n code unit arg).pins = s.pins := congrArg (fun x => x.pins) (record_frame s n code unit arg)
@[simp] theorem record_get (n code unit arg : Nat) (g : FRef) : (s.record n code unit arg).get g = s.get g := congrArg (fun x => x.get g) (record_frame s n code unit arg)
@[simp] theorem record_is (n code unit arg : Nat) (g : FRef) : (s.record n code unit arg).is g = s.is g := congrArg (fun x => x.is g) (record_frame s n code unit arg)
@[simp] theorem record_reg (n code unit arg : Nat) (a0 : Nat) : (s.record n code unit arg).reg a0 = s.reg a0 := congrArg (fun x => x.reg a0) (record_frame s n code unit arg)
@[simp] theorem record_pipe (n code unit arg : Nat) (p0 : Nat) : (s.record n code unit arg).pipe p0 = s.pipe p0 := congrArg (fun x => x.pipe p0) (record_frame s n code unit arg)
@[simp] theorem record_handle (n code unit arg : Nat) (h0 : Nat) : (s.record n code unit arg).handle h0 = s.handle h0 := congrArg (fun x => x.handle h0) (record_frame s n code unit arg)
@[simp] theorem record_port (n code unit arg : Nat) (p0 : Nat) : (s.record n code unit arg).port p0 = s.port p0 := congrArg (fun x => x.port p0) (record_frame s n code unit arg)
@[simp] theorem record_pll (n code unit arg : Nat) (i0 : Nat) : (s.record n code unit arg).pll i0 = s.pll i0 := congrArg (fun x => x.pll i0) (record_frame s n code unit arg)
@[simp] theorem record_chan (n code unit arg : Nat) (c0 : Nat) : (s.record n code unit arg).chan c0 = s.chan c0 := congrArg (fun x => x.chan c0) (record_frame s n code unit arg)
@[simp] theorem record_dses (n code unit arg : Nat) (i0 : Nat) : (s.record n code unit arg).dses i0 = s.dses i0 := congrArg (fun x => x.dses i0) (record_frame s n code unit arg)
@[simp] theorem record_eses (n code unit arg : Nat) (i0 : Nat) : (s.record n code unit arg).eses i0 = s.eses i0 := congrArg (fun x => x.eses i0) (record_frame s n code unit arg)
@[simp] theorem record_tt (n code unit arg : Nat) (i0 : Nat) : (s.record n code unit arg).tt i0 = s.tt i0 := congrArg (fun x => x.tt i0) (record_frame s n code unit arg)
@[simp] theorem record_entry (n code unit arg : Nat) (e0 : Nat) : (s.record n code unit arg).entry e0 = s.entry e0 := congrArg (fun x => x.entry e0) (record_frame s n code unit arg)
@[simp] theorem record_owner (n code unit arg : Nat) (u0 : Nat) : (s.record n code unit arg).owner u0 = s.owner u0 := congrArg (fun x => x.owner u0) (record_frame s n code unit arg)
@[simp] theorem record_hmByte (n code unit arg : Nat) (a0 : Nat) : (s.record n code unit arg).hmByte a0 = s.hmByte a0 := congrArg (fun x => x.hmByte a0) (record_frame s n code unit arg)
@[simp] theorem record_sramWord (n code unit arg : Nat) (a0 : Nat) : (s.record n code unit arg).sramWord a0 = s.sramWord a0 := congrArg (fun x => x.sramWord a0) (record_frame s n code unit arg)

/-! ### condBegins -/

theorem condBegins_frame (f : FaultId) : s.condBegins f = { s with fc := (s.condBegins f).fc } := by unfold State.condBegins; split <;> rfl
@[simp] theorem condBegins_pending (f : FaultId) : (s.condBegins f).pending = s.pending := congrArg (fun x => x.pending) (condBegins_frame s f)
@[simp] theorem condBegins_outbox (f : FaultId) : (s.condBegins f).outbox = s.outbox := congrArg (fun x => x.outbox) (condBegins_frame s f)
@[simp] theorem condBegins_now (f : FaultId) : (s.condBegins f).now = s.now := congrArg (fun x => x.now) (condBegins_frame s f)
@[simp] theorem condBegins_freeCtr (f : FaultId) : (s.condBegins f).freeCtr = s.freeCtr := congrArg (fun x => x.freeCtr) (condBegins_frame s f)
@[simp] theorem condBegins_regs (f : FaultId) : (s.condBegins f).regs = s.regs := congrArg (fun x => x.regs) (condBegins_frame s f)
@[simp] theorem condBegins_sram (f : FaultId) : (s.condBegins f).sram = s.sram := congrArg (fun x => x.sram) (condBegins_frame s f)
@[simp] theorem condBegins_latches (f : FaultId) : (s.condBegins f).latches = s.latches := congrArg (fun x => x.latches) (condBegins_frame s f)
@[simp] theorem condBegins_intc (f : FaultId) : (s.condBegins f).intc = s.intc := congrArg (fun x => x.intc) (condBegins_frame s f)
@[simp] theorem condBegins_orbit (f : FaultId) : (s.condBegins f).orbit = s.orbit := congrArg (fun x => x.orbit) (condBegins_frame s f)
@[simp] theorem condBegins_pipes (f : FaultId) : (s.condBegins f).pipes = s.pipes := congrArg (fun x => x.pipes) (condBegins_frame s f)
@[simp] theorem condBegins_hm (f : FaultId) : (s.condBegins f).hm = s.hm := congrArg (fun x => x.hm) (condBegins_frame s f)
@[simp] theorem condBegins_bc (f : FaultId) : (s.condBegins f).bc = s.bc := congrArg (fun x => x.bc) (condBegins_frame s f)
@[simp] theorem condBegins_cg (f : FaultId) : (s.condBegins f).cg = s.cg := congrArg (fun x => x.cg) (condBegins_frame s f)
@[simp] theorem condBegins_clk (f : FaultId) : (s.condBegins f).clk = s.clk := congrArg (fun x => x.clk) (condBegins_frame s f)
@[simp] theorem condBegins_pwr (f : FaultId) : (s.condBegins f).pwr = s.pwr := congrArg (fun x => x.pwr) (condBegins_frame s f)
@[simp] theorem condBegins_dma (f : FaultId) : (s.condBegins f).dma = s.dma := congrArg (fun x => x.dma) (condBegins_frame s f)
@[simp] theorem condBegins_dec (f : FaultId) : (s.condBegins f).dec = s.dec := congrArg (fun x => x.dec) (condBegins_frame s f)
@[simp] theorem condBegins_enc (f : FaultId) : (s.condBegins f).enc = s.enc := congrArg (fun x => x.enc) (condBegins_frame s f)
@[simp] theorem condBegins_ak (f : FaultId) : (s.condBegins f).ak = s.ak := congrArg (fun x => x.ak) (condBegins_frame s f)
@[simp] theorem condBegins_od (f : FaultId) : (s.condBegins f).od = s.od := congrArg (fun x => x.od) (condBegins_frame s f)
@[simp] theorem condBegins_emb (f : FaultId) : (s.condBegins f).emb = s.emb := congrArg (fun x => x.emb) (condBegins_frame s f)
@[simp] theorem condBegins_kin (f : FaultId) : (s.condBegins f).kin = s.kin := congrArg (fun x => x.kin) (condBegins_frame s f)
@[simp] theorem condBegins_sec (f : FaultId) : (s.condBegins f).sec = s.sec := congrArg (fun x => x.sec) (condBegins_frame s f)
@[simp] theorem condBegins_flash (f : FaultId) : (s.condBegins f).flash = s.flash := congrArg (fun x => x.flash) (condBegins_frame s f)
@[simp] theorem condBegins_pins (f : FaultId) : (s.condBegins f).pins = s.pins := congrArg (fun x => x.pins) (condBegins_frame s f)
@[simp] theorem condBegins_get (f : FaultId) (g : FRef) : (s.condBegins f).get g = s.get g := congrArg (fun x => x.get g) (condBegins_frame s f)
@[simp] theorem condBegins_is (f : FaultId) (g : FRef) : (s.condBegins f).is g = s.is g := congrArg (fun x => x.is g) (condBegins_frame s f)
@[simp] theorem condBegins_reg (f : FaultId) (a0 : Nat) : (s.condBegins f).reg a0 = s.reg a0 := congrArg (fun x => x.reg a0) (condBegins_frame s f)
@[simp] theorem condBegins_pipe (f : FaultId) (p0 : Nat) : (s.condBegins f).pipe p0 = s.pipe p0 := congrArg (fun x => x.pipe p0) (condBegins_frame s f)
@[simp] theorem condBegins_handle (f : FaultId) (h0 : Nat) : (s.condBegins f).handle h0 = s.handle h0 := congrArg (fun x => x.handle h0) (condBegins_frame s f)
@[simp] theorem condBegins_port (f : FaultId) (p0 : Nat) : (s.condBegins f).port p0 = s.port p0 := congrArg (fun x => x.port p0) (condBegins_frame s f)
@[simp] theorem condBegins_pll (f : FaultId) (i0 : Nat) : (s.condBegins f).pll i0 = s.pll i0 := congrArg (fun x => x.pll i0) (condBegins_frame s f)
@[simp] theorem condBegins_src (f : FaultId) (n0 : Nat) : (s.condBegins f).src n0 = s.src n0 := congrArg (fun x => x.src n0) (condBegins_frame s f)
@[simp] theorem condBegins_tgt (f : FaultId) (t0 : Nat) : (s.condBegins f).tgt t0 = s.tgt t0 := congrArg (fun x => x.tgt t0) (condBegins_frame s f)
@[simp] theorem condBegins_chan (f : FaultId) (c0 : Nat) : (s.condBegins f).chan c0 = s.chan c0 := congrArg (fun x => x.chan c0) (condBegins_frame s f)
@[simp] theorem condBegins_dses (f : FaultId) (i0 : Nat) : (s.condBegins f).dses i0 = s.dses i0 := congrArg (fun x => x.dses i0) (condBegins_frame s f)
@[simp] theorem condBegins_eses (f : FaultId) (i0 : Nat) : (s.condBegins f).eses i0 = s.eses i0 := congrArg (fun x => x.eses i0) (condBegins_frame s f)
@[simp] theorem condBegins_tt (f : FaultId) (i0 : Nat) : (s.condBegins f).tt i0 = s.tt i0 := congrArg (fun x => x.tt i0) (condBegins_frame s f)
@[simp] theorem condBegins_entry (f : FaultId) (e0 : Nat) : (s.condBegins f).entry e0 = s.entry e0 := congrArg (fun x => x.entry e0) (condBegins_frame s f)
@[simp] theorem condBegins_owner (f : FaultId) (u0 : Nat) : (s.condBegins f).owner u0 = s.owner u0 := congrArg (fun x => x.owner u0) (condBegins_frame s f)
@[simp] theorem condBegins_hmByte (f : FaultId) (a0 : Nat) : (s.condBegins f).hmByte a0 = s.hmByte a0 := congrArg (fun x => x.hmByte a0) (condBegins_frame s f)
@[simp] theorem condBegins_sramWord (f : FaultId) (a0 : Nat) : (s.condBegins f).sramWord a0 = s.sramWord a0 := congrArg (fun x => x.sramWord a0) (condBegins_frame s f)

/-! ### condEnds -/

theorem condEnds_frame (f : FaultId) : s.condEnds f = { s with fc := (s.condEnds f).fc } := by unfold State.condEnds; split <;> rfl
@[simp] theorem condEnds_pending (f : FaultId) : (s.condEnds f).pending = s.pending := congrArg (fun x => x.pending) (condEnds_frame s f)
@[simp] theorem condEnds_outbox (f : FaultId) : (s.condEnds f).outbox = s.outbox := congrArg (fun x => x.outbox) (condEnds_frame s f)
@[simp] theorem condEnds_now (f : FaultId) : (s.condEnds f).now = s.now := congrArg (fun x => x.now) (condEnds_frame s f)
@[simp] theorem condEnds_freeCtr (f : FaultId) : (s.condEnds f).freeCtr = s.freeCtr := congrArg (fun x => x.freeCtr) (condEnds_frame s f)
@[simp] theorem condEnds_regs (f : FaultId) : (s.condEnds f).regs = s.regs := congrArg (fun x => x.regs) (condEnds_frame s f)
@[simp] theorem condEnds_sram (f : FaultId) : (s.condEnds f).sram = s.sram := congrArg (fun x => x.sram) (condEnds_frame s f)
@[simp] theorem condEnds_latches (f : FaultId) : (s.condEnds f).latches = s.latches := congrArg (fun x => x.latches) (condEnds_frame s f)
@[simp] theorem condEnds_intc (f : FaultId) : (s.condEnds f).intc = s.intc := congrArg (fun x => x.intc) (condEnds_frame s f)
@[simp] theorem condEnds_orbit (f : FaultId) : (s.condEnds f).orbit = s.orbit := congrArg (fun x => x.orbit) (condEnds_frame s f)
@[simp] theorem condEnds_pipes (f : FaultId) : (s.condEnds f).pipes = s.pipes := congrArg (fun x => x.pipes) (condEnds_frame s f)
@[simp] theorem condEnds_hm (f : FaultId) : (s.condEnds f).hm = s.hm := congrArg (fun x => x.hm) (condEnds_frame s f)
@[simp] theorem condEnds_bc (f : FaultId) : (s.condEnds f).bc = s.bc := congrArg (fun x => x.bc) (condEnds_frame s f)
@[simp] theorem condEnds_cg (f : FaultId) : (s.condEnds f).cg = s.cg := congrArg (fun x => x.cg) (condEnds_frame s f)
@[simp] theorem condEnds_clk (f : FaultId) : (s.condEnds f).clk = s.clk := congrArg (fun x => x.clk) (condEnds_frame s f)
@[simp] theorem condEnds_pwr (f : FaultId) : (s.condEnds f).pwr = s.pwr := congrArg (fun x => x.pwr) (condEnds_frame s f)
@[simp] theorem condEnds_dma (f : FaultId) : (s.condEnds f).dma = s.dma := congrArg (fun x => x.dma) (condEnds_frame s f)
@[simp] theorem condEnds_dec (f : FaultId) : (s.condEnds f).dec = s.dec := congrArg (fun x => x.dec) (condEnds_frame s f)
@[simp] theorem condEnds_enc (f : FaultId) : (s.condEnds f).enc = s.enc := congrArg (fun x => x.enc) (condEnds_frame s f)
@[simp] theorem condEnds_ak (f : FaultId) : (s.condEnds f).ak = s.ak := congrArg (fun x => x.ak) (condEnds_frame s f)
@[simp] theorem condEnds_od (f : FaultId) : (s.condEnds f).od = s.od := congrArg (fun x => x.od) (condEnds_frame s f)
@[simp] theorem condEnds_emb (f : FaultId) : (s.condEnds f).emb = s.emb := congrArg (fun x => x.emb) (condEnds_frame s f)
@[simp] theorem condEnds_kin (f : FaultId) : (s.condEnds f).kin = s.kin := congrArg (fun x => x.kin) (condEnds_frame s f)
@[simp] theorem condEnds_sec (f : FaultId) : (s.condEnds f).sec = s.sec := congrArg (fun x => x.sec) (condEnds_frame s f)
@[simp] theorem condEnds_flash (f : FaultId) : (s.condEnds f).flash = s.flash := congrArg (fun x => x.flash) (condEnds_frame s f)
@[simp] theorem condEnds_pins (f : FaultId) : (s.condEnds f).pins = s.pins := congrArg (fun x => x.pins) (condEnds_frame s f)
@[simp] theorem condEnds_get (f : FaultId) (g : FRef) : (s.condEnds f).get g = s.get g := congrArg (fun x => x.get g) (condEnds_frame s f)
@[simp] theorem condEnds_is (f : FaultId) (g : FRef) : (s.condEnds f).is g = s.is g := congrArg (fun x => x.is g) (condEnds_frame s f)
@[simp] theorem condEnds_reg (f : FaultId) (a0 : Nat) : (s.condEnds f).reg a0 = s.reg a0 := congrArg (fun x => x.reg a0) (condEnds_frame s f)
@[simp] theorem condEnds_pipe (f : FaultId) (p0 : Nat) : (s.condEnds f).pipe p0 = s.pipe p0 := congrArg (fun x => x.pipe p0) (condEnds_frame s f)
@[simp] theorem condEnds_handle (f : FaultId) (h0 : Nat) : (s.condEnds f).handle h0 = s.handle h0 := congrArg (fun x => x.handle h0) (condEnds_frame s f)
@[simp] theorem condEnds_port (f : FaultId) (p0 : Nat) : (s.condEnds f).port p0 = s.port p0 := congrArg (fun x => x.port p0) (condEnds_frame s f)
@[simp] theorem condEnds_pll (f : FaultId) (i0 : Nat) : (s.condEnds f).pll i0 = s.pll i0 := congrArg (fun x => x.pll i0) (condEnds_frame s f)
@[simp] theorem condEnds_src (f : FaultId) (n0 : Nat) : (s.condEnds f).src n0 = s.src n0 := congrArg (fun x => x.src n0) (condEnds_frame s f)
@[simp] theorem condEnds_tgt (f : FaultId) (t0 : Nat) : (s.condEnds f).tgt t0 = s.tgt t0 := congrArg (fun x => x.tgt t0) (condEnds_frame s f)
@[simp] theorem condEnds_chan (f : FaultId) (c0 : Nat) : (s.condEnds f).chan c0 = s.chan c0 := congrArg (fun x => x.chan c0) (condEnds_frame s f)
@[simp] theorem condEnds_dses (f : FaultId) (i0 : Nat) : (s.condEnds f).dses i0 = s.dses i0 := congrArg (fun x => x.dses i0) (condEnds_frame s f)
@[simp] theorem condEnds_eses (f : FaultId) (i0 : Nat) : (s.condEnds f).eses i0 = s.eses i0 := congrArg (fun x => x.eses i0) (condEnds_frame s f)
@[simp] theorem condEnds_tt (f : FaultId) (i0 : Nat) : (s.condEnds f).tt i0 = s.tt i0 := congrArg (fun x => x.tt i0) (condEnds_frame s f)
@[simp] theorem condEnds_entry (f : FaultId) (e0 : Nat) : (s.condEnds f).entry e0 = s.entry e0 := congrArg (fun x => x.entry e0) (condEnds_frame s f)
@[simp] theorem condEnds_owner (f : FaultId) (u0 : Nat) : (s.condEnds f).owner u0 = s.owner u0 := congrArg (fun x => x.owner u0) (condEnds_frame s f)
@[simp] theorem condEnds_hmByte (f : FaultId) (a0 : Nat) : (s.condEnds f).hmByte a0 = s.hmByte a0 := congrArg (fun x => x.hmByte a0) (condEnds_frame s f)
@[simp] theorem condEnds_sramWord (f : FaultId) (a0 : Nat) : (s.condEnds f).sramWord a0 = s.sramWord a0 := congrArg (fun x => x.sramWord a0) (condEnds_frame s f)

/-! ### emptyStack -/

theorem emptyStack_frame (t : Nat) : s.emptyStack t = { s with intc := (s.emptyStack t).intc } := by
  have h : ∀ (xs : List (Nat × Nat)) (s : State), (xs.foldl (fun s e => s.setSrc e.1 ((s.src e.1).endOf (srcMode e.1))) s) =
      { s with intc := (xs.foldl (fun s e => s.setSrc e.1 ((s.src e.1).endOf (srcMode e.1))) s).intc } := by
    intro xs
    induction xs with
    | nil => intro s; rfl
    | cons x xs ih => intro s; rw [List.foldl_cons, ih]; rfl
  unfold State.emptyStack
  dsimp only
  rw [h]
  rfl
@[simp] theorem emptyStack_pending (t : Nat) : (s.emptyStack t).pending = s.pending := congrArg (fun x => x.pending) (emptyStack_frame s t)
@[simp] theorem emptyStack_outbox (t : Nat) : (s.emptyStack t).outbox = s.outbox := congrArg (fun x => x.outbox) (emptyStack_frame s t)
@[simp] theorem emptyStack_now (t : Nat) : (s.emptyStack t).now = s.now := congrArg (fun x => x.now) (emptyStack_frame s t)
@[simp] theorem emptyStack_freeCtr (t : Nat) : (s.emptyStack t).freeCtr = s.freeCtr := congrArg (fun x => x.freeCtr) (emptyStack_frame s t)
@[simp] theorem emptyStack_regs (t : Nat) : (s.emptyStack t).regs = s.regs := congrArg (fun x => x.regs) (emptyStack_frame s t)
@[simp] theorem emptyStack_sram (t : Nat) : (s.emptyStack t).sram = s.sram := congrArg (fun x => x.sram) (emptyStack_frame s t)
@[simp] theorem emptyStack_latches (t : Nat) : (s.emptyStack t).latches = s.latches := congrArg (fun x => x.latches) (emptyStack_frame s t)
@[simp] theorem emptyStack_fc (t : Nat) : (s.emptyStack t).fc = s.fc := congrArg (fun x => x.fc) (emptyStack_frame s t)
@[simp] theorem emptyStack_orbit (t : Nat) : (s.emptyStack t).orbit = s.orbit := congrArg (fun x => x.orbit) (emptyStack_frame s t)
@[simp] theorem emptyStack_pipes (t : Nat) : (s.emptyStack t).pipes = s.pipes := congrArg (fun x => x.pipes) (emptyStack_frame s t)
@[simp] theorem emptyStack_hm (t : Nat) : (s.emptyStack t).hm = s.hm := congrArg (fun x => x.hm) (emptyStack_frame s t)
@[simp] theorem emptyStack_bc (t : Nat) : (s.emptyStack t).bc = s.bc := congrArg (fun x => x.bc) (emptyStack_frame s t)
@[simp] theorem emptyStack_cg (t : Nat) : (s.emptyStack t).cg = s.cg := congrArg (fun x => x.cg) (emptyStack_frame s t)
@[simp] theorem emptyStack_clk (t : Nat) : (s.emptyStack t).clk = s.clk := congrArg (fun x => x.clk) (emptyStack_frame s t)
@[simp] theorem emptyStack_pwr (t : Nat) : (s.emptyStack t).pwr = s.pwr := congrArg (fun x => x.pwr) (emptyStack_frame s t)
@[simp] theorem emptyStack_dma (t : Nat) : (s.emptyStack t).dma = s.dma := congrArg (fun x => x.dma) (emptyStack_frame s t)
@[simp] theorem emptyStack_dec (t : Nat) : (s.emptyStack t).dec = s.dec := congrArg (fun x => x.dec) (emptyStack_frame s t)
@[simp] theorem emptyStack_enc (t : Nat) : (s.emptyStack t).enc = s.enc := congrArg (fun x => x.enc) (emptyStack_frame s t)
@[simp] theorem emptyStack_ak (t : Nat) : (s.emptyStack t).ak = s.ak := congrArg (fun x => x.ak) (emptyStack_frame s t)
@[simp] theorem emptyStack_od (t : Nat) : (s.emptyStack t).od = s.od := congrArg (fun x => x.od) (emptyStack_frame s t)
@[simp] theorem emptyStack_emb (t : Nat) : (s.emptyStack t).emb = s.emb := congrArg (fun x => x.emb) (emptyStack_frame s t)
@[simp] theorem emptyStack_kin (t : Nat) : (s.emptyStack t).kin = s.kin := congrArg (fun x => x.kin) (emptyStack_frame s t)
@[simp] theorem emptyStack_sec (t : Nat) : (s.emptyStack t).sec = s.sec := congrArg (fun x => x.sec) (emptyStack_frame s t)
@[simp] theorem emptyStack_flash (t : Nat) : (s.emptyStack t).flash = s.flash := congrArg (fun x => x.flash) (emptyStack_frame s t)
@[simp] theorem emptyStack_pins (t : Nat) : (s.emptyStack t).pins = s.pins := congrArg (fun x => x.pins) (emptyStack_frame s t)
@[simp] theorem emptyStack_get (t : Nat) (g : FRef) : (s.emptyStack t).get g = s.get g := congrArg (fun x => x.get g) (emptyStack_frame s t)
@[simp] theorem emptyStack_is (t : Nat) (g : FRef) : (s.emptyStack t).is g = s.is g := congrArg (fun x => x.is g) (emptyStack_frame s t)
@[simp] theorem emptyStack_reg (t : Nat) (a0 : Nat) : (s.emptyStack t).reg a0 = s.reg a0 := congrArg (fun x => x.reg a0) (emptyStack_frame s t)
@[simp] theorem emptyStack_pipe (t : Nat) (p0 : Nat) : (s.emptyStack t).pipe p0 = s.pipe p0 := congrArg (fun x => x.pipe p0) (emptyStack_frame s t)
@[simp] theorem emptyStack_handle (t : Nat) (h0 : Nat) : (s.emptyStack t).handle h0 = s.handle h0 := congrArg (fun x => x.handle h0) (emptyStack_frame s t)
@[simp] theorem emptyStack_port (t : Nat) (p0 : Nat) : (s.emptyStack t).port p0 = s.port p0 := congrArg (fun x => x.port p0) (emptyStack_frame s t)
@[simp] theorem emptyStack_pll (t : Nat) (i0 : Nat) : (s.emptyStack t).pll i0 = s.pll i0 := congrArg (fun x => x.pll i0) (emptyStack_frame s t)
@[simp] theorem emptyStack_chan (t : Nat) (c0 : Nat) : (s.emptyStack t).chan c0 = s.chan c0 := congrArg (fun x => x.chan c0) (emptyStack_frame s t)
@[simp] theorem emptyStack_dses (t : Nat) (i0 : Nat) : (s.emptyStack t).dses i0 = s.dses i0 := congrArg (fun x => x.dses i0) (emptyStack_frame s t)
@[simp] theorem emptyStack_eses (t : Nat) (i0 : Nat) : (s.emptyStack t).eses i0 = s.eses i0 := congrArg (fun x => x.eses i0) (emptyStack_frame s t)
@[simp] theorem emptyStack_tt (t : Nat) (i0 : Nat) : (s.emptyStack t).tt i0 = s.tt i0 := congrArg (fun x => x.tt i0) (emptyStack_frame s t)
@[simp] theorem emptyStack_entry (t : Nat) (e0 : Nat) : (s.emptyStack t).entry e0 = s.entry e0 := congrArg (fun x => x.entry e0) (emptyStack_frame s t)
@[simp] theorem emptyStack_owner (t : Nat) (u0 : Nat) : (s.emptyStack t).owner u0 = s.owner u0 := congrArg (fun x => x.owner u0) (emptyStack_frame s t)
@[simp] theorem emptyStack_hmByte (t : Nat) (a0 : Nat) : (s.emptyStack t).hmByte a0 = s.hmByte a0 := congrArg (fun x => x.hmByte a0) (emptyStack_frame s t)
@[simp] theorem emptyStack_sramWord (t : Nat) (a0 : Nat) : (s.emptyStack t).sramWord a0 = s.sramWord a0 := congrArg (fun x => x.sramWord a0) (emptyStack_frame s t)

@[simp] theorem modPipe_pipe_self (p : Nat) (f : PipeSt → PipeSt) : (s.modPipe p f).pipe p = f (s.pipe p) := SMap.get_set_self _ _ _ _
theorem modPipe_pipe_ne {p j : Nat} (f : PipeSt → PipeSt) (h : j ≠ p) : (s.modPipe p f).pipe j = s.pipe j := SMap.get_set_ne _ _ _ _ h

@[simp] theorem when_true (f : State → State) : s.when true f = f s := rfl
@[simp] theorem when_false (f : State → State) : s.when false f = s := rfl

end Sys2Proof.Machine.State
end

