-- ==== Sys2Proof/Laws/Access.lean ====
section
/-! SUPPORT. What an accepted register write does, said once: the effect of its register on the accepted word. -/
namespace Sys2Proof.Machine

/-- Fields of one register that share no bit and lie in 32 bits. -/
def fieldsApart : List FieldRow → Bool
  | [] => true
  | f :: fs => f.lo ≤ f.hi && f.hi < 32 && fs.all (fun g => g.hi < f.lo || f.hi < g.lo) && fieldsApart fs

/-- The register blocks. -/
def blocks : List (List RegRow) :=
  [rowsGlobal, rowsOrbit, rowsHearth, rowsPipe, rowsScan, rowsBeacon, rowsDma, rowsDmach, rowsDecoder, rowsEncoder, rowsAknum, rowsAklane,
    rowsCagan, rowsClock, rowsIntc, rowsFault, rowsPower, rowsEmber, rowsOd, rowsSecurity]

/-- Every register of the maps has fields that share no bit. -/
theorem maps_fieldsApart : blocks.all (fun rows => rows.all fun r => fieldsApart r.fields) = true := by decide +kernel

theorem ite_some_elim {c : Prop} [Decidable c] {x y : Option (List RegRow)} {rows : List RegRow} {P : Prop}
    (h : (if c then x else y) = some rows) (hx : x = some rows → P) (hy : y = some rows → P) : P := by
  split at h
  · exact hx h
  · exact hy h

theorem none_some_elim {rows : List RegRow} {P : Prop} (h : none = some rows) : P := nomatch h

theorem blockRows_mem {a : Nat} {rows : List RegRow} (h : blockRows a = some rows) : rows ∈ blocks := by
  unfold blockRows at h
  have here : ∀ r, r ∈ blocks → some r = some rows → rows ∈ blocks := fun r hr e => (Option.some.inj e) ▸ hr
  repeat (refine ite_some_elim h (by first | exact none_some_elim | exact here _ (by simp [blocks])) (fun h => ?_))
  exact none_some_elim h

theorem findRow_mem {rows : List RegRow} {a : Nat} {row : RegRow} {is : List Nat} (h : findRow rows a = some (row, is)) : row ∈ rows := by
  induction rows with
  | nil => simp [findRow] at h
  | cons r rs ih =>
    simp only [findRow] at h
    split at h
    · split at h
      · simp only [Option.some.injEq, Prod.mk.injEq] at h
        exact List.mem_cons.mpr (Or.inl h.1.symm)
      · exact List.mem_cons.mpr (Or.inr (ih h))
    · exact List.mem_cons.mpr (Or.inr (ih h))

/-- A row of the maps has fields that share no bit. -/
theorem regAt_fieldsApart {a : Nat} {row : RegRow} {is : List Nat} (h : regAt a = some (row, is)) : fieldsApart row.fields = true := by
  have all := maps_fieldsApart
  simp only [List.all_eq_true] at all
  simp only [regAt] at h
  split at h
  · rename_i rows hb
    exact all _ (blockRows_mem hb) _ (findRow_mem h)
  · simp at h

/-- Replacing other fields one after the other leaves a field alone. -/
theorem bits_foldl_apart (fs : List FieldRow) (g : FieldRow → Nat) (w hi lo : Nat) (hlo : lo ≤ hi)
    (h : ∀ f ∈ fs, f.lo ≤ f.hi ∧ (hi < f.lo ∨ f.hi < lo)) :
    bits (fs.foldl (fun w f => setBits w f.hi f.lo (g f)) w) hi lo = bits w hi lo := by
  induction fs generalizing w with
  | nil => rfl
  | cons f fs ih =>
    have hf := h f (List.mem_cons_self ..)
    rw [List.foldl_cons, ih _ (fun x hx => h x (List.mem_cons_of_mem _ hx)), bits_setBits_apart _ _ _ _ _ _ hf.1 hlo hf.2]

/-- A word put together field by field holds each field's value. -/
theorem bits_foldl_mem (fs : List FieldRow) (g : FieldRow → Nat) (w : Nat) (ha : fieldsApart fs = true) (f : FieldRow) (hf : f ∈ fs) :
    bits (fs.foldl (fun w f => setBits w f.hi f.lo (g f)) w) f.hi f.lo = g f % 2 ^ (f.hi - f.lo + 1) := by
  induction fs generalizing w with
  | nil => simp at hf
  | cons x fs ih =>
    simp only [fieldsApart, Bool.and_eq_true, decide_eq_true_eq, List.all_eq_true, Bool.or_eq_true] at ha
    obtain ⟨⟨⟨h1, h2⟩, h3⟩, h4⟩ := ha
    rw [List.foldl_cons]
    rcases List.mem_cons.mp hf with rfl | hm
    · have hall : ∀ (l : List FieldRow), fieldsApart l = true → ∀ y ∈ l, y.lo ≤ y.hi := by
        intro l
        induction l with
        | nil => intro _ y hy; simp at hy
        | cons z l ihl =>
          intro hz y hy
          simp only [fieldsApart, Bool.and_eq_true, decide_eq_true_eq] at hz
          rcases List.mem_cons.mp hy with rfl | hy
          · exact hz.1.1.1
          · exact ihl hz.2 y hy
      rw [bits_foldl_apart fs g _ _ _ h1 (fun y hy => ⟨hall fs h4 y hy, (h3 y hy).symm⟩), bits_setBits_self _ _ _ _ h1]
    · exact ih _ h4 hm

/-- A write that nothing refuses runs the effect of its register. -/
theorem State.written_accepted (s : State) (o : Origin) (a : Nat) (v : Word) (f : RegRow → List Nat → Nat → State → State) (row : RegRow)
    (is : List Nat) (hr : regAt a = some (row, is)) (h : s.accepts o a v = true) :
    s.written o a v f = f row is (s.acceptedWord row is (s.reg a).toNat v.toNat) (s.genWrite a row) := by
  simp only [State.accepts, hr, State.safeState, Bool.and_eq_true, List.all_eq_true, Option.isNone_iff_eq_none] at h
  obtain ⟨⟨⟨h1, h2⟩, h3⟩, h4⟩ := h
  have hf : s.writeFaults row is (s.reg a).toNat v.toNat = s := by
    have : (row.fields.filterMap fun f => s.fieldRefusal row.name is f (bits (s.reg a).toNat f.hi f.lo) (bits v.toNat f.hi f.lo)) = [] := by
      simp only [List.filterMap_eq_nil_iff]; exact h4
    simp [State.writeFaults, this, State.when]
  have h2' : (s.is Reg.FC_STATUS_SAFE && isHostPath o && !safeWritable row.name is) = false := by simpa only [Bool.not_eq_true'] using h2
  simp [State.written, hr, h1, h2', h3, hf]

/-- The accepted word holds every field that may be written as it was written. -/
theorem State.accepted_bits (s : State) (o : Origin) (a : Nat) (v : Word) (row : RegRow) (is : List Nat) (hr : regAt a = some (row, is))
    (h : s.accepts o a v = true) (f : FieldRow) (hf : f ∈ row.fields) (hacc : f.acc ≠ .ro) :
    bits (s.acceptedWord row is (s.reg a).toNat v.toNat) f.hi f.lo = bits v.toNat f.hi f.lo := by
  simp only [State.accepts, hr, Bool.and_eq_true, List.all_eq_true, Option.isNone_iff_eq_none] at h
  have h4 := h.2
  rw [State.acceptedWord, bits_foldl_mem _ _ _ (regAt_fieldsApart hr) f hf]
  have : bits v.toNat f.hi f.lo < 2 ^ (f.hi - f.lo + 1) := Nat.mod_lt _ (Nat.two_pow_pos _)
  have hn := h4 f hf
  simp only [hn, Option.isSome_none]
  cases hc : f.acc <;> first | exact absurd hc hacc | (simp; exact Nat.mod_eq_of_lt this)

end Sys2Proof.Machine
end

