-- ==== Sys2Proof/Laws/Faults.lean ====
section
/-! SUPPORT. What a report to the fault collector does: the status bits it sets, the log entry it writes, the safe state that an FT starts. -/
namespace Sys2Proof.Machine

/-- The groups and rows of the fault tables. -/
theorem fault_codes (f : FaultId) :
    1 ≤ faultGroup f.code ∧ faultGroup f.code ≤ 14 ∧ 1 ≤ faultRow f.code ∧ faultRow f.code ≤ 11 := by
  cases f <;> decide

/-- The LATCHED and ACTIVE fields of a group. -/
theorem latched_ok (g : Nat) : (Reg.FC_STAT_LATCHED g).ok = true ∧ (Reg.FC_STAT_ACTIVE g).ok = true := ⟨rfl, rfl⟩

/-- Bringing the fault lines up to date writes FC_STATUS alone among the registers. -/
theorem faultLines_get (s : State) (g : FRef) (h : g.addr ≠ Reg.a_FC_STATUS) : s.faultLines.get g = s.get g := by
  have e : ∀ (t : State) (f : FRef) (v : Nat), f.addr = Reg.a_FC_STATUS → (t.put f v).get g = t.get g := by
    intro t f v hf
    simp only [State.get, State.put, imgGet]
    rw [imgWord_imgPut_ne]
    rw [hf]; exact h
  simp only [State.faultLines, State.level_get]
  rw [e _ _ _ rfl, e _ _ _ rfl, e _ _ _ rfl]

theorem faultLines_fc (s : State) : s.faultLines.fc = s.fc := by simp [State.faultLines]
theorem faultLines_sram (s : State) : s.faultLines.sram = s.sram := by simp [State.faultLines]
theorem faultLines_pending (s : State) : s.faultLines.pending = s.pending := by simp [State.faultLines]

theorem or_bit (n i w : Nat) (h : i < w) : bit ((n ||| 2 ^ i) % 2 ^ w) i = true := by
  have : ((n ||| 2 ^ i) % 2 ^ w).testBit i = true := by
    rw [Nat.testBit_mod_two_pow, Nat.testBit_or, Nat.testBit_two_pow_self]; simp [h]
  simpa [bit, Nat.testBit, Nat.and_comm, Nat.one_and_eq_mod_two] using this

/-- A report ends with its latch and the fault lines. -/
theorem fault_ends (s : State) (f : FaultId) (inj : Bool) : ∃ s1 c esc, s.fault f inj = (State.latch s1 f c inj esc).faultLines := ⟨_, _, _, rfl⟩

/-- A report sets the LATCHED and ACTIVE bits of its fault (R440). -/
theorem fault_reported (s : State) (f : FaultId) (inj : Bool) : (s.fault f inj).reported f := by
  have hc := fault_codes f
  obtain ⟨s1, c, esc, h⟩ := fault_ends s f inj
  simp only [State.reported, h]
  rw [faultLines_get _ _ (by simp only [Reg.FC_STAT_LATCHED, Reg.a_FC_STATUS]; omega),
    faultLines_get _ _ (by simp only [Reg.FC_STAT_ACTIVE, Reg.a_FC_STATUS]; omega)]
  simp only [State.latch, State.orBits]
  rw [State.get_put_apart _ _ (Reg.FC_STAT_LATCHED _) _ (latched_ok _).2 (by simp [Reg.FC_STAT_LATCHED]) (by simp [FRef.apart, Reg.FC_STAT_ACTIVE, Reg.FC_STAT_LATCHED]),
    State.get_put_self _ _ _ (latched_ok _).1, State.get_put_self _ _ _ (latched_ok _).2]
  exact ⟨or_bit _ _ _ (by simp only [Reg.FC_STAT_LATCHED]; omega), or_bit _ _ _ (by simp only [Reg.FC_STAT_ACTIVE]; omega)⟩

/-- A report is the newest entry of the log, with its mark of injection (R443, R452). -/
theorem fault_logged (s : State) (f : FaultId) (inj : Bool) :
    ∃ e rest, (s.fault f inj).fc.log = e :: rest ∧ e.code = f.code ∧ e.inj = inj := by
  obtain ⟨s1, c, esc, h⟩ := fault_ends s f inj
  simp only [h, faultLines_fc, State.latch, State.orBits, State.put_fc, State.logFault, State.count_fc, List.take_succ_cons]
  exact ⟨_, _, rfl, rfl, rfl⟩

/-- A report leaves at most 32 entries in the log (R443). -/
theorem fault_log_length (s : State) (f : FaultId) (inj : Bool) : (s.fault f inj).fc.log.length ≤ 32 := by
  obtain ⟨s1, c, esc, h⟩ := fault_ends s f inj
  simp only [h, faultLines_fc, State.latch, State.orBits, State.put_fc, State.logFault, State.count_fc, List.length_take]
  omega

theorem get_put_of_ne (s : State) (f g : FRef) (v : Nat) (h : g.addr ≠ f.addr) : (s.put f v).get g = s.get g := by
  simp only [State.get, State.put, imgGet]
  rw [imgWord_imgPut_ne _ _ _ _ h]

/-- The fault lines leave the upper bits of FC_STATUS alone. -/
theorem faultLines_status (s : State) (g : FRef) (_h : g.addr = Reg.a_FC_STATUS) (hl : 3 ≤ g.lo) (hh : g.lo ≤ g.hi) :
    s.faultLines.get g = s.get g := by
  have e : ∀ (t : State) (f : FRef) (v : Nat), f.ok = true → f.hi ≤ 2 → (t.put f v).get g = t.get g := by
    intro t f v hf h2
    exact State.get_put_apart _ _ _ _ hf hh (by simp only [FRef.apart, Bool.or_eq_true, decide_eq_true_eq]; right; omega)
  simp only [State.faultLines, State.level_get]
  rw [e _ _ _ rfl (by decide), e _ _ _ rfl (by decide), e _ _ _ rfl (by decide)]

theorem logFault_get (s : State) (e : LogEntry) (g : FRef) (h : g.addr ≠ Reg.FC_LOG_CNT_COUNT.addr) : (s.logFault e).get g = s.get g :=
  (get_put_of_ne _ _ _ _ h).trans rfl

/-- The latch of a report writes neither FC_STATUS nor FC_FIRST. -/
theorem latch_get (s : State) (f : FaultId) (c : FClass) (inj esc : Bool) (g : FRef) (h : g.addr < 0x20900020) :
    (s.latch f c inj esc).get g = s.get g := by
  have h1 : g.addr ≠ (Reg.FC_STAT_ACTIVE (faultGroup f.code)).addr := by simp only [Reg.FC_STAT_ACTIVE]; omega
  have h2 : g.addr ≠ (Reg.FC_STAT_LATCHED (faultGroup f.code)).addr := by simp only [Reg.FC_STAT_LATCHED]; omega
  have h3 : g.addr ≠ Reg.FC_LOG_CNT_COUNT.addr := by simp only [Reg.FC_LOG_CNT_COUNT]; omega
  have h4 : g.addr ≠ (if c == .ce then Reg.FC_CNT_CE (faultGroup f.code) else Reg.FC_CNT_CC_FT (faultGroup f.code)).addr := by
    split
    · simp only [Reg.FC_CNT_CE]; omega
    · simp only [Reg.FC_CNT_CC_FT]; omega
  simp only [State.latch, State.orBits]
  rw [get_put_of_ne _ _ _ _ h1, get_put_of_ne _ _ _ _ h2, logFault_get _ _ _ h3, State.stampReport_get, State.count, get_put_of_ne _ _ _ _ h4]

/-- An FT puts the device into the safe state (R447). -/
theorem fatal_safe (s : State) (f : FaultId) : (s.fatal f).get Reg.FC_STATUS_SAFE = 1 := by
  have one : 1 % 2 ^ (Reg.FC_STATUS_SAFE.hi - Reg.FC_STATUS_SAFE.lo + 1) = 1 := by decide
  have ok1 : Reg.FC_STATUS_SAFE.ok = true := by decide
  have ok2 : Reg.FC_STATUS_HARD.ok = true := by decide
  have ok3 : Reg.FC_STATUS_PAIR_HELD.ok = true := by decide
  have a1 : Reg.FC_STATUS_HARD.apart Reg.FC_STATUS_SAFE = true := by decide
  have a2 : Reg.FC_STATUS_PAIR_HELD.apart Reg.FC_STATUS_SAFE = true := by decide
  have le : Reg.FC_STATUS_SAFE.lo ≤ Reg.FC_STATUS_SAFE.hi := by decide
  have e : ∀ (t : State) (b : Bool) (g : FRef), g.ok = true → g.apart Reg.FC_STATUS_SAFE = true → t.get Reg.FC_STATUS_SAFE = 1 →
      (t.when b fun s => s.put g 1).get Reg.FC_STATUS_SAFE = 1 := by
    intro t b g hg ha ht
    cases b
    · exact ht
    · rw [State.when_true, State.get_put_apart _ _ _ _ hg le ha, ht]
  unfold State.fatal
  dsimp only
  by_cases h : s.is Reg.FC_STATUS_SAFE = true
  · have hs : s.get Reg.FC_STATUS_SAFE = 1 := by simpa only [State.is, beq_iff_eq] using h
    rw [h, Bool.not_true, State.when_false]
    refine e _ _ _ ok3 a2 (e _ _ _ ok2 a1 ?_)
    split
    · rw [← hs]; rfl
    · exact hs
  · simp only [Bool.not_eq_true] at h
    rw [h, Bool.not_false, State.when_true, State.enterSafe, State.get_put_self _ _ _ ok1, one]
/-- The report of an FT leaves the device in the safe state. -/
theorem fault_safe (s : State) (f : FaultId) (inj : Bool) (h : f.cls = .ft) : (s.fault f inj).safeState = true := by
  have le : Reg.FC_STATUS_SAFE.lo ≤ Reg.FC_STATUS_SAFE.hi := by decide
  have ge : 3 ≤ Reg.FC_STATUS_SAFE.lo := by decide
  have lt : Reg.FC_STATUS_SAFE.addr < 0x20900020 := by decide
  simp only [State.safeState, State.is, State.fault]
  rw [faultLines_status _ _ rfl ge le, latch_get _ _ _ _ _ _ lt, h, beq_self_eq_true, Bool.true_or, State.when_true, fatal_safe]
  rfl

/-! ### A report that is no FT -/

theorem faultLines_frame (s : State) : ∃ r i, s.faultLines = { s with regs := r, intc := i } := by
  unfold State.faultLines
  dsimp only
  rw [State.level_frame, State.level_frame _ 193, State.level_frame _ 192]
  exact ⟨_, _, rfl⟩

/-- A report of a CE is a latch and the fault lines, nothing else (R442). -/
theorem fault_ce (s : State) (f : FaultId) (inj : Bool) (h : f.cls = .ce) : s.fault f inj = (s.latch f .ce inj false).faultLines := by
  have h1 : (FClass.ce == FClass.cc) = false := rfl
  have h2 : (FClass.ce == FClass.ft) = false := rfl
  have h3 : (FClass.ce != FClass.ce) = false := rfl
  unfold State.fault
  rw [h, h1, h2, h3]
  dsimp only
  rw [Bool.false_and, Bool.or_false, State.when_false, State.when_false, if_neg Bool.false_ne_true]

/-- Putting a field keeps a frame of registers and collector state. -/
theorem frame_put {s t : State} (h : ∃ r k, t = { s with regs := r, fc := k }) (g : FRef) (v : Nat) :
    ∃ r k, t.put g v = { s with regs := r, fc := k } := by
  obtain ⟨r, k, rfl⟩ := h
  exact ⟨_, _, rfl⟩

/-- So does changing the collector. -/
theorem frame_fc {s t : State} (h : ∃ r k, t = { s with regs := r, fc := k }) (k' : FaultSt) :
    ∃ r k, { t with fc := k' } = { s with regs := r, fc := k } := by
  obtain ⟨r, k, rfl⟩ := h
  exact ⟨_, _, rfl⟩

theorem latch_frame (s : State) (f : FaultId) (c : FClass) (inj esc : Bool) : ∃ r k, s.latch f c inj esc = { s with regs := r, fc := k } :=
  frame_put (frame_put (frame_put (frame_fc (frame_fc (frame_put ⟨_, _, rfl⟩ _ _) _) _) _ _) _ _) _ _

/-- A report of a CE changes registers, the collector and interrupt inputs alone. -/
theorem fault_ce_frame (s : State) (f : FaultId) (inj : Bool) (h : f.cls = .ce) :
    ∃ r c i, s.fault f inj = { s with regs := r, fc := c, intc := i } := by
  rw [fault_ce s f inj h]
  obtain ⟨r, k, e⟩ := latch_frame s f .ce inj false
  rw [e]
  obtain ⟨r', i, e'⟩ := faultLines_frame { s with regs := r, fc := k }
  rw [e']
  exact ⟨_, _, _, rfl⟩

/-- A report of a CE leaves every register alone but the collector's. -/
theorem fault_ce_get (s : State) (f : FaultId) (inj : Bool) (h : f.cls = .ce) (g : FRef)
    (hg : g.addr < Reg.a_FC_STATUS ∨ 0x20910000 ≤ g.addr) : (s.fault f inj).get g = s.get g := by
  have hc := fault_codes f
  simp only [Reg.a_FC_STATUS] at hg
  rw [fault_ce s f inj h, faultLines_get _ _ (by simp only [Reg.a_FC_STATUS]; omega)]
  have h1 : g.addr ≠ (Reg.FC_STAT_ACTIVE (faultGroup f.code)).addr := by simp only [Reg.FC_STAT_ACTIVE]; omega
  have h2 : g.addr ≠ (Reg.FC_STAT_LATCHED (faultGroup f.code)).addr := by simp only [Reg.FC_STAT_LATCHED]; omega
  have h3 : g.addr ≠ Reg.FC_LOG_CNT_COUNT.addr := by simp only [Reg.FC_LOG_CNT_COUNT]; omega
  have h4 : g.addr ≠ (if FClass.ce == FClass.ce then Reg.FC_CNT_CE (faultGroup f.code) else Reg.FC_CNT_CC_FT (faultGroup f.code)).addr := by
    have e : (FClass.ce == FClass.ce) = true := rfl
    rw [e, if_pos rfl]; simp only [Reg.FC_CNT_CE]; omega
  simp only [State.latch, State.orBits]
  rw [get_put_of_ne _ _ _ _ h1, get_put_of_ne _ _ _ _ h2, logFault_get _ _ _ h3, State.stampReport_get, State.count, get_put_of_ne _ _ _ _ h4]

end Sys2Proof.Machine
end

