-- ==== Sys2Proof/Laws/FaultFrame.lean ====
section
/-! SUPPORT. What a report to the fault collector leaves alone, whatever its class: the memories, the queue of commands and the time, also
where it starts the safe state. -/
namespace Sys2Proof.Machine

/-- The parts of the state that no report touches: the Hearth and service memories, the flash, the queue of commands, the time. -/
def State.stored (s : State) : List Host.Cell × List Host.Cell × FlashSt × List Instr × Nat := (s.hm.mem, s.sram, s.flash, s.pending, s.now)

/-- An effect that keeps them, carried out for each member of a list, keeps them. -/
theorem foldl_stored {α : Type} (f : State → α → State) (hf : ∀ s x, (f s x).stored = s.stored) (xs : List α) (s : State) :
    (xs.foldl f s).stored = s.stored := by
  induction xs generalizing s with
  | nil => rfl
  | cons x xs ih => exact (ih _).trans (hf _ _)

/-- The same for `forAll`. -/
theorem forAll_stored (f : Nat → State → State) (hf : ∀ x s, (f x s).stored = s.stored) (xs : List Nat) (s : State) :
    (forAll xs f s).stored = s.stored := foldl_stored _ (fun s x => hf x s) _ _

/-- The same for `State.when`. -/
theorem when_stored (s : State) (b : Bool) (f : State → State) (hf : ∀ s, (f s).stored = s.stored) : (s.when b f).stored = s.stored := by
  cases b
  · rfl
  · exact hf s

theorem level_stored (s : State) (n : Nat) (b : Bool) : (s.level n b).stored = s.stored := by
  rw [State.level_frame]
  rfl

theorem condEnds_stored (s : State) (f : FaultId) : (s.condEnds f).stored = s.stored := by
  unfold State.condEnds
  split <;> rfl

theorem emptyStack_stored (s : State) (t : Nat) : (s.emptyStack t).stored = s.stored :=
  foldl_stored (fun s (e : Nat × Nat) => s.setSrc e.1 ((s.src e.1).endOf (srcMode e.1))) (fun _ _ => rfl) (s.tgt t).stack s

theorem holdCore_stored (s : State) (c : Nat) : (s.holdCore c).stored = s.stored := by
  have h := emptyStack_stored s c
  unfold State.holdCore
  dsimp only
  split <;> exact h

theorem setCgState_stored (s : State) (p st : Nat) : (s.setCgState p st).stored = s.stored := by
  unfold State.setCgState State.portConds State.cgLevel
  dsimp only
  rw [when_stored _ _ _ (fun s => condEnds_stored s _), when_stored _ _ _ (fun s => condEnds_stored s _), level_stored]
  rfl

@[simp] theorem put_stored (s : State) (f : FRef) (v : Nat) : (s.put f v).stored = s.stored := rfl
@[simp] theorem setChan_stored (s : State) (c : Nat) (x : Chan) : (s.setChan c x).stored = s.stored := rfl
@[simp] theorem setDses_stored (s : State) (i : Nat) (x : DecSes) : (s.setDses i x).stored = s.stored := rfl
@[simp] theorem setEses_stored (s : State) (i : Nat) (x : EncSes) : (s.setEses i x).stored = s.stored := rfl
@[simp] theorem freeCodec_stored (s : State) (n : Nat) : (s.freeCodec n).stored = s.stored := rfl
@[simp] theorem dropWriter_stored (s : State) (w : Nat) : (s.dropWriter w).stored = s.stored := rfl
@[simp] theorem quitWriter_stored (s : State) (w : Nat) : (s.quitWriter w).stored = s.stored := rfl
@[simp] theorem akLink_stored (s : State) (bs : List Byte) : (s.akLink bs).stored = s.stored := rfl
@[simp] theorem modPipe_stored (s : State) (p : Nat) (f : PipeSt → PipeSt) : (s.modPipe p f).stored = s.stored := rfl

@[simp] theorem setMode_stored (s : State) (p : Nat) (m : TgMode) : (s.setMode p m).stored = s.stored := rfl
@[simp] theorem emit_stored (s : State) (x : Out) : (s.emit x).stored = s.stored := rfl
@[simp] theorem setPort_stored (s : State) (p : Nat) (x : CgSt) : (s.setPort p x).stored = s.stored := rfl
@[simp] theorem setTx_stored (s : State) (p tx : Nat) : (s.setTx p tx).stored = s.stored := rfl

theorem put_chain {s t : State} (h : t.stored = s.stored) (f : FRef) (v : Nat) : (t.put f v).stored = s.stored := h

theorem cgFill_stored (s : State) (p : Nat) : (s.cgFill p).stored = s.stored := by
  unfold State.cgFill
  split <;> rfl

theorem cgBurst_stored (s : State) (p : Nat) : (s.cgBurst p).stored = s.stored := by
  unfold State.cgBurst
  rfl

theorem portSafe_stored (s : State) (p cause : Nat) : (s.portSafe p cause).stored = s.stored := by
  have banked : ∀ (t : State) (f : PipeSt → PipeSt), ((t.setMode p .running).modPipe p f).stored = t.stored := fun _ _ => rfl
  unfold State.portSafe
  extract_lets x t0 t1 t2
  split
  · rfl
  · have h1 : t1.stored = s.stored := when_stored t0 _ _ fun s => cgBurst_stored s p
    have h2 : t2.stored = s.stored := (cgFill_stored _ p).trans ((setTx_stored _ p 4).trans ((setCgState_stored _ p 6).trans h1))
    clear_value t2
    split
    all_goals first | exact (banked t2 _).trans h2 | exact h2

theorem refreshChan_stored (s : State) (c : Nat) : (s.refreshChan c).stored = s.stored := by
  unfold State.refreshChan
  extract_lets x s1 s2 s3 s4 s5 dl
  have h1 : s1.stored = s.stored := put_stored s _ _
  clear_value s1
  have h2 : s2.stored = s.stored := put_chain (put_chain h1 _ _) _ _
  clear_value s2
  have h3 : s3.stored = s.stored := put_chain h2 _ _
  clear_value s3
  have h4 : s4.stored = s.stored := by
    simp only [s4]
    split
    · exact put_chain (put_chain (put_chain h3 _ _) _ _) _ _
    · exact put_chain (put_chain (put_chain h3 _ _) _ _) _ _
  clear_value s4
  have h5 : s5.stored = s.stored := put_chain (put_chain h4 _ _) _ _
  clear_value s5
  exact put_chain (put_chain h5 _ _) _ _

theorem beginAbort_stored (s : State) (c : Nat) : (s.beginAbort c).stored = s.stored := by
  unfold State.beginAbort
  split
  · rfl
  · exact refreshChan_stored _ c

theorem refreshDec_stored (s : State) : s.refreshDec.stored = s.stored :=
  put_chain (put_chain (put_chain (put_chain (put_chain (put_chain (put_chain rfl _ _) _ _) _ _) _ _) _ _) _ _) _ _

theorem refreshEnc_stored (s : State) : s.refreshEnc.stored = s.stored := put_chain (put_chain rfl _ _) _ _

theorem closeDec_stored (s : State) (i : Nat) : (s.closeDec i).stored = s.stored := by
  simp only [State.closeDec, quitWriter_stored, freeCodec_stored, put_stored, setDses_stored]
  split
  · exact put_stored _ _ _
  · rfl

theorem closeEnc_stored (s : State) (i : Nat) : (s.closeEnc i).stored = s.stored := by
  have h : ∀ t : State, ({ t with enc := { t.enc with order := t.enc.order.filter fun j => j != i } } : State).stored = t.stored := fun _ => rfl
  simp only [State.closeEnc, freeCodec_stored, put_stored, setEses_stored, h]
  split
  · exact put_stored _ _ _
  · rfl

theorem closeCodec_stored (s : State) : s.closeCodec.stored = s.stored := by
  have d : ∀ (s : State) (i : Nat), (if s.get (Reg.DS_STATUS_STATE i) = 0 then s else s.closeDec i).stored = s.stored := by
    intro s i
    split
    · rfl
    · exact closeDec_stored s i
  have e : ∀ (s : State) (i : Nat), (if s.get (Reg.ES_STATUS_STATE i) = 0 then s else s.closeEnc i).stored = s.stored := by
    intro s i
    split
    · rfl
    · exact closeEnc_stored s i
  unfold State.closeCodec
  exact (refreshEnc_stored _).trans ((refreshDec_stored _).trans ((foldl_stored _ e _ _).trans (foldl_stored _ d _ _)))

/-- The steps of Table 18.4 keep the memories, the queue and the time. -/
theorem safeSteps_stored (s : State) : s.safeSteps.stored = s.stored := by
  unfold State.safeSteps
  extract_lets k s1 s2 s3 s4 s5 s6
  have h2 : s2.stored = s.stored := forAll_stored _ (fun p s => portSafe_stored s p 1) _ s1
  clear_value s2 s1
  have h3 : s3.stored = s.stored := (akLink_stored _ _).trans (put_chain h2 _ _)
  clear_value s3
  have h4 : s4.stored = s.stored := (holdCore_stored _ _).trans ((holdCore_stored _ _).trans h3)
  clear_value s4
  have h5 : s5.stored = s.stored := (forAll_stored _ (fun c s => beginAbort_stored s c) _ _).trans h4
  clear_value s5
  have h6 : s6.stored = s.stored := (closeCodec_stored _).trans h5
  clear_value s6
  refine (forAll_stored _ (fun p s => ?_) _ _).trans h6
  split
  · exact put_chain (modPipe_stored s p _) _ _
  · rfl

/-- So does what a report treated as FT starts. -/
theorem fatal_stored (s : State) (f : FaultId) : (s.fatal f).stored = s.stored := by
  have halt : ∀ b : Bool, (if b = true then { s with kin := { s.kin with halted := true } } else s).stored = s.stored := by
    intro b
    cases b <;> rfl
  have safe : ∀ s : State, s.enterSafe.stored = s.stored := fun s => by rw [State.enterSafe, put_stored, safeSteps_stored]
  unfold State.fatal
  dsimp only
  rw [when_stored _ _ _ safe, when_stored _ _ _ (fun s => put_stored s _ _), when_stored _ _ _ (fun s => put_stored s _ _), halt]

theorem fc_chain {s t : State} (h : t.stored = s.stored) (k : FaultSt) : ({ t with fc := k } : State).stored = s.stored := h

theorem keepFirst_stored (s : State) (f : FaultId) (ft inj esc : Bool) : (s.keepFirst f ft inj esc).stored = s.stored := by
  unfold State.keepFirst
  split
  · rfl
  · exact fc_chain (put_chain (put_chain (put_chain (put_chain (put_chain rfl _ _) _ _) _ _) _ _) _ _) _

/-- A report of any class keeps the memories, the queue and the time. -/
theorem fault_stored (s : State) (f : FaultId) (inj : Bool) : (s.fault f inj).stored = s.stored := by
  have lines : ∀ s : State, s.faultLines.stored = s.stored := by
    intro s
    obtain ⟨r, i, e⟩ := faultLines_frame s
    rw [e]
    rfl
  have latch : ∀ (s : State) (c : FClass) (esc : Bool), (s.latch f c inj esc).stored = s.stored := by
    intro s c esc
    obtain ⟨r, k, e⟩ := latch_frame s f c inj esc
    rw [e]
    rfl
  unfold State.fault
  extract_lets esc ft s1 s2
  have h1 : s1.stored = s.stored := when_stored _ _ _ (fun s => keepFirst_stored s f _ _ _)
  have h2 : s2.stored = s1.stored := when_stored _ _ _ (fun s => fatal_stored s f)
  clear_value s2 s1
  rw [lines, latch, h2, h1]

end Sys2Proof.Machine
end

