-- ==== Sys2Proof/Laws/Memory.lean ====
section
/-! SUPPORT. The byte memories (Hearth, service SRAM, flash): what a store leaves elsewhere, and the canonical form. -/
namespace Sys2Proof.Machine

/-- A store leaves every byte outside it alone. -/
theorem storeBytes_outside (m : List Host.Cell) (a x : Nat) (bs : List Byte) (h : x < a ∨ a + bs.length ≤ x) :
    SMap.get memDefault (storeBytes m a bs) x = SMap.get memDefault m x := by
  induction bs generalizing m a with
  | nil => rfl
  | cons b bs ih =>
    simp only [List.length_cons] at h
    rw [storeBytes, ih _ _ (by omega), SMap.get_set_ne _ _ _ _ (by omega)]

/-- A store leaves its own bytes behind. -/
theorem storeBytes_inside (m : List Host.Cell) (a i : Nat) (bs : List Byte) (h : i < bs.length) :
    SMap.get memDefault (storeBytes m a bs) (a + i) = bs[i] := by
  induction bs generalizing m a i with
  | nil => simp at h
  | cons b bs ih =>
    rw [storeBytes]
    cases i with
    | zero => rw [storeBytes_outside _ _ _ _ (by omega)]; simp
    | succ i =>
      have := ih (SMap.set memDefault m a b) (a + 1) i (by simpa using h)
      rw [show a + (i + 1) = a + 1 + i by omega, this]
      rfl

/-- A store keeps the canonical form. -/
theorem storeBytes_wf (m : List Host.Cell) (a : Nat) (bs : List Byte) (h : Memory.wf m = true) : Memory.wf (storeBytes m a bs) = true := by
  induction bs generalizing m a with
  | nil => exact h
  | cons b bs ih => exact ih _ _ (SMap.wf_set _ _ _ _ h)

/-- Zeroing a range keeps the canonical form. -/
theorem zeroBytes_wf (m : List Host.Cell) (a n : Nat) (h : Memory.wf m = true) : Memory.wf (zeroBytes m a n) = true :=
  SMap.wf_filter _ _ _ h

/-- A zeroed byte reads 0; a byte outside the range is unchanged. -/
theorem zeroBytes_get (m : List Host.Cell) (a n x : Nat) :
    SMap.get memDefault (zeroBytes m a n) x = if a ≤ x ∧ x < a + n then memDefault else SMap.get memDefault m x := by
  induction m with
  | nil => simp [zeroBytes]
  | cons e m ih =>
    obtain ⟨k, v⟩ := e
    by_cases hk : k < a ∨ a + n ≤ k
    · have hc : zeroBytes ((k, v) :: m) a n = (k, v) :: zeroBytes m a n := by simp [zeroBytes, hk]
      rw [hc, SMap.get, SMap.get, ih]
      by_cases hx : x = k
      · have : ¬ (a ≤ x ∧ x < a + n) := by omega
        simp [hx]; omega
      · simp [hx]
    · have hc : zeroBytes ((k, v) :: m) a n = zeroBytes m a n := by simp [zeroBytes, hk]
      rw [hc, ih, SMap.get]
      by_cases hx : x = k
      · have : a ≤ x ∧ x < a + n := by omega
        simp [this]
      · simp [hx]

/-- A store to Hearth keeps its canonical form. -/
theorem hmStore_wf (s : State) (a : Nat) (bs : List Byte) (h : Memory.wf s.hm.mem = true) : Memory.wf (s.hmStore a bs).hm.mem = true :=
  storeBytes_wf _ _ _ h

/-- A store to the service SRAM keeps its canonical form. -/
theorem sramStore_wf (s : State) (a : Nat) (bs : List Byte) (h : Memory.wf s.sram = true) : Memory.wf (s.sramStore a bs).sram = true :=
  storeBytes_wf _ _ _ h

/-- Dropping listed bytes keeps the canonical form: the zero-initialisation of a channel (R80). -/
theorem memory_filter_wf (m : List Host.Cell) (f : Host.Cell → Bool) (h : Memory.wf m = true) : Memory.wf (m.filter f) = true :=
  SMap.wf_filter _ _ _ h

/-- Moving a cell keeps the canonical form (R76). -/
theorem copyCell_wf (s : State) (src dst : Nat) (skip : Nat → Bool) (h : Memory.wf s.hm.mem = true) :
    Memory.wf (s.copyCell src dst skip).hm.mem = true := by
  have fold : ∀ (xs m : List Host.Cell), Memory.wf m = true → Memory.wf (xs.foldl (fun m x => SMap.set memDefault m x.1 x.2) m) = true := by
    intro xs
    induction xs with
    | nil => exact fun _ h => h
    | cons x xs ih => exact fun m h => ih _ (SMap.wf_set _ _ _ _ h)
  exact fold _ _ (memory_filter_wf _ _ h)

/-- The memories of the device after reset are canonical. -/
theorem reset_memory_wf : Memory.wf State.reset.sram = true ∧ Memory.wf State.reset.hm.mem = true ∧ Memory.wf State.reset.flash.cells = true := by
  decide

end Sys2Proof.Machine
end

