-- ==== Sys2Proof/Laws/Step.lean ====
section
/-! SUPPORT. What a step can do, said once: every command answers a next state whose output pins stand at their levels; no command ends in
a fault or a refusal. -/
namespace Sys2Proof.Machine

/-- Every command answers a next state that `State.settled` has closed. -/
theorem exec_settled (i : Instr) (s : State) : ∃ u : State, exec i s = .next u.settled := by
  cases i <;> exact ⟨_, rfl⟩

/-- A step with a command in front runs it; on an empty queue only the time moves. -/
theorem step_cases (s : State) :
    (s.pending = [] ∧ step s = .next { s with now := s.now + 1 }) ∨
      ∃ c rest u, s.pending = c :: rest ∧ step s = exec c { s with pending := rest } ∧ step s = .next (State.settled u) := by
  cases h : s.pending with
  | nil => left; exact ⟨rfl, by simp only [step, h]⟩
  | cons c rest =>
    right
    obtain ⟨u, hu⟩ := exec_settled c { s with pending := rest }
    have e : step s = exec c { s with pending := rest } := by simp only [step, h]
    exact ⟨c, rest, u, rfl, e, e.trans hu⟩

end Sys2Proof.Machine
end

