-- ==== Sys2Proof/Tests/Slice0.lean ====
section
/-! SUPPORT. Tests: known answers of the checksums and of AES, ill-formed commands that Instr.wf refuses, one step of single commands with the
values that the spec's rules give by hand, and the witnesses: for each clause of each statement a state and operands that meet all of its
hypotheses. -/
open Sys2Proof Sys2Proof.Machine

namespace Sys2Proof.Tests
set_option Elab.async false
set_option linter.unusedVariables false

/-! ### States that the tests start from -/

/-- The state after reset. -/
def r0 : State := State.reset
/-- Fields put one after the other. -/
def puts (s : State) (xs : List (FRef × Nat)) : State := xs.foldl (fun s e => s.put e.1 e.2) s
/-- The image of a running pipe 0 of 64 by 16 pixels with slots 0 and 1 on. -/
def imgRun : List (Nat × Word) :=
  [(Reg.TG_CTRL_RUN 0, 1), (Reg.TG_RATE_MHZ 0, 60000), (Reg.TG_HACT_H_ACTIVE 0, 64), (Reg.TG_VACT_V_ACTIVE 0, 16), (Reg.TG_VACT_V_TOTAL 0, 40),
    (Reg.TG_HACT_H_TOTAL 0, 128), (Reg.SL_CTRL_ENABLE 0 0, 1), (Reg.SL_CTRL_ENABLE 0 1, 1), (Reg.SL_LAYER_LAYER_ID 0 0, 5),
    (Reg.SL_LAYER_LAYER_ID 0 1, 6)].foldl (fun m e => imgPut m e.1 e.2) []
/-- Pipe 0 runs with that image. -/
def run0 : State := (r0.setMode 0 .running).modPipe 0 fun x => { x with shown := imgRun, fNum := 60000, fDen := 1 }
/-- A shed step of layer 5 is in force. -/
def shed1 : State :=
  { run0.put Reg.SHED_CTRL_AUTO_RESTORE 1 with orbit := { run0.orbit with sheds := [(5, 1)], shedOrder := [⟨5, 1, 8, 16, 224⟩], stable := 255 } }
/-- The register row at an address. -/
def rowOf (a : Nat) : RegRow :=
  match regAt a with
  | some e => e.1
  | none => ⟨.FC_WDT, 0, [], 0, []⟩
/-- The first field of the register at an address. -/
def fld0 (a : Nat) : FieldRow :=
  match (rowOf a).fields with
  | f :: _ => f
  | [] => ⟨0, 0, .ro, .live⟩
/-- A commit of tag 7 for pipe 0, due as soon as possible, whose slots read no Hearth. -/
def pend0 : Pend :=
  { id := 1, tag := 7, eff := 0, asap := true, allOrHold := false, group := [0], port := 0, released := 0,
    img := imgPut [] (Reg.TG_CTRL_RUN 0) 1, fNum := 60000, fDen := 1, waits := 0, mat := 0 }
/-- Pipe 0 runs with that commit pending. -/
def due0 : State := run0.modPipe 0 fun x => { x with pend := [pend0] }
/-- The state that a held slot waits for, with STALE_LIMIT 2. -/
def staleW : List (Nat × Word) := slotImg (imgPut imgRun (Reg.SL_LAYER_STALE_LIMIT 0 0) 2) 0 0
/-- Slot 0 of pipe 0 is held for 2 frames. -/
def stale0 : State :=
  run0.modPipe 0 fun x => x.setSlot 0 { x.slot 0 with held := true, wait := staleW, heldFrames := 2 }
/-- A capture without samples of a Banked frame. -/
def cap0 : CapFrame :=
  { seq := 4, stamp := 1, frame := 1, w := 64, h := 0, banked := false, slot := some 0, refresh := (60000, 1), beacon := none }
/-- Session 1 has captured a frame of pipe 0. -/
def capt0 : State := (r0.put (Reg.ES_STATUS_STATE 1) 1).setEses 1 { cap := some cap0 }
/-- Pipe 0 carries Beacon with the panel power under manual control and on. -/
def pnl0 : State :=
  ((r0.put (Reg.PNL_CFG_PWR_MODE 0) 1).put (Reg.OWN_OWNER 0) 1).modPipe 0 fun x => { x with pwrPin := true, bcn := some ⟨0, []⟩ }
/-- Channel 0 is fenced while handle 3, FILLING, holds its cell 8. -/
def evac0 : State :=
  ((r0.put Reg.HM_STATUS_READY 1).put Reg.HM_STATUS_FENCED 1).setHandle 3 { alloc := true, owner := 1, sizes := [65536], cells := [[8]], st := .filling }
/-- Channel 0 is fenced and evacuated for long. -/
def unf0 : State :=
  let s := (r0.put Reg.HM_STATUS_READY 1).put Reg.HM_STATUS_FENCED 1
  { s with orbit := { s.orbit with orbits := 10000000 } }
/-- Slot 0 of pipe 0 shows an 8 by 16 ARGB buffer, handle 5, scaled to 16 by 16 where `sc`. -/
def imgLay (sc : Bool) : List (Nat × Word) :=
  [(Reg.SL_HANDLE_HANDLE 0 0, 5), (Reg.SL_SRC_SIZE_SRC_W 0 0, 8), (Reg.SL_SRC_SIZE_SRC_H 0 0, 16), (Reg.SL_STRIDE0_BYTES 0 0, 32),
    (Reg.SL_CROP_SIZE_CW 0 0, 8), (Reg.SL_CROP_SIZE_CH 0 0, 16), (Reg.SL_DST_SIZE_DW 0 0, if sc then 16 else 8),
    (Reg.SL_DST_SIZE_DH 0 0, 16)].foldl (fun m e => imgPut m e.1 e.2) imgRun
/-- Pipe 0 runs and shows that buffer, Hearth being ready. -/
def fetch0 : State :=
  (((run0.put Reg.HM_STATUS_READY 1).setHandle 5 { alloc := true, owner := 1, sizes := [65536], cells := [[8]], st := .shown }).modPipe 0
    fun x => { x with shown := imgLay false })
/-- The writeback of pipe 0 has met an error acknowledgement. -/
def badw (s : State) : State := { s with hm := { s.hm with writeErr := [wbWriter 0 0] } }
/-- Decoder session 2 is configured for 640 by 480 pictures with one ring entry, handle 0. -/
def dec0 : State :=
  (puts r0 [(Reg.HM_STATUS_READY, 1), (Reg.OWN_OWNER 14, 1), (Reg.DS_GEOM_W 2, 640), (Reg.DS_GEOM_H 2, 480), (Reg.DS_PARAM_DPB 2, 4),
    (Reg.DS_RATE_MHZ 2, 30000), (Reg.DS_KBPS_KBPS 2, 4000), (Reg.DS_OUT_STRIDE_STRIDE0 2, 640), (Reg.DS_OUT_STRIDE_STRIDE1 2, 640)]).setHandle 0
    { alloc := true, owner := 1, sizes := [1048576, 1048576], cells := [rangeFrom 0 16, rangeFrom 16 16] }
/-- That session is DECODING. -/
def decRun : State := dec0.put (Reg.DS_STATUS_STATE 2) 2
/-- A decoded picture of 2 by 2 samples. -/
def pic2 (poc : Int) (taint waiting : Bool) : DecPic :=
  { poc, cw := 2, ch := 2, w := 2, h := 2, dy := 8, dc := 8, taint, waiting, bumped := waiting, isRef := false, src := .coded 1 }
/-- What the parse of an IRAP picture finds. -/
def irap0 : PicFacts :=
  { irap := true, profile := 1, level := 120, chroma := 1, depthY := 8, depthC := 8, codedW := 640, codedH := 480, cropW := 640, cropH := 480,
    vui := false, primaries := 0, matrix := 0, full := false, poc := 0, output := true, refs := [], keep := [], size := 3, hash := none, newSeq := true }
/-- That session writes a picture to handle 0. -/
def decWr : State :=
  (decRun.setDses 2 { writing := some ⟨0, 0, pic2 0 true true⟩, dpb := [pic2 0 true true] }).setHandle 0
    { alloc := true, owner := 1, sizes := [1048576, 1048576], cells := [rangeFrom 0 16, rangeFrom 16 16], st := .filling }
/-- Encoder session 1 is configured to record pipe 0 at 640 by 480. -/
def enc0 : State :=
  puts r0 [(Reg.HM_STATUS_READY, 1), (Reg.OWN_OWNER 15, 1), (Reg.ES_CFG_PIPE 1, 0), (Reg.ES_GEOM_W 1, 640), (Reg.ES_GEOM_H 1, 480),
    (Reg.ES_OUT_CELLS 1, 8), (Reg.ES_RATE_KBPS 1, 4000), (Reg.PWR_GRANT_ENC, 8)]
/-- That session is RUNNING. -/
def encRun : State := enc0.put (Reg.ES_STATUS_STATE 1) 1
/-- A captured frame waits in it. -/
def encWait : State := { encRun.setEses 1 { frames := [cap0] } with enc := { (encRun.setEses 1 { frames := [cap0] }).enc with order := [1] } }
/-- Its picture is being coded. -/
def encBusy : State := (encRun.setEses 1 { coding := some cap0, plan := { f := 1000, h := 4000 } }).put Reg.ENC_STATUS_BUSY 1
/-- The Aknum link in a state of Table 11.3. -/
def akIn (st : Nat) : State := r0.put Reg.AK_STATUS_STATE st
/-- The INIT flit of an adapter with `n` units on VC0: SEQ 0, ACK 4095. -/
def initFlit (n : Nat) : List Byte :=
  let body := leBytes 8 (2 * 2 ^ 60) ++ padTo ([1#8, 0#8] ++ leBytes 2 n ++ leBytes 2 2048 ++ leBytes 2 65535 ++ leBytes 2 400) 240 ++ leBytes 4 (4095 * 256)
  body ++ leBytes 4 (flitCrc body)
/-- A PAYLOAD flit of the host, SEQ 0, that reads the identification register with tag 7. -/
def rrdFlit : List Byte :=
  let body := leBytes 8 (2 ^ 60) ++ padTo (leBytes 8 (5 * 2 ^ 60 + 7 * 2 ^ 52 + Reg.a_GLB_ID)) 240 ++ leBytes 4 (4095 * 256)
  body ++ leBytes 4 (flitCrc body)
/-- A flit of the replay buffer. -/
def tx0 : TxFlit := ⟨5, 1, 0, List.replicate 240 0#8, [], 0⟩
/-- Port 3 in a state of Table 12.4. -/
def cgIn (st : Nat) : State := r0.put (Reg.CG_STATUS_STATE 3) st
/-- A request frame of node 33 on CAN0. -/
def odFr (cmd txn idx sub flags : Nat) (v tail : List Byte) : CanFrame :=
  ⟨0, 0x4A1, true, leBytes 1 cmd ++ leBytes 1 txn ++ leBytes 2 idx ++ leBytes 1 sub ++ leBytes 1 flags ++ leBytes 2 v.length ++ v ++ tail, false⟩
/-- The same frame with its trailer under the key of stream S0. -/
def odMacd (s : State) (idx sub ctr : Nat) (v : List Byte) : CanFrame :=
  let fr := odFr 2 9 idx sub 1 v (leBytes 4 ctr)
  { fr with bs := fr.bs ++ s.streamMac 0 (leBytes 4 fr.id ++ fr.bs) }
/-- Key slot `i` is VALID. -/
def keyed (i : Nat) : State :=
  let s := r0.put (keyStateField i) keyValid
  { s with sec := { s.sec with keys := [(i, List.replicate 16 7#8)] } }
/-- Key slot 0 is VALID. -/
def key0 : State := keyed 0
/-- A segmented transfer is open on CAN0. -/
def seg0 (x : Seg) : State := r0.setSeg 0 (some x)
/-- A segmented write of the cluster string. -/
def segW : Seg := { write := true, txn := 9, index := 0x3104, sub := 1, total := 3 }
/-- The state after a command. -/
def after (i : Instr) (s : State) : State :=
  match exec i s with
  | .next t => t
  | _ => s
/-- A well-formed frame, and one that is too long. -/
def canOk : CanFrame := ⟨0, 0x4A1, true, [], false⟩
def canBad : CanFrame := ⟨0, 0x4A1, true, List.replicate 65 0#8, false⟩
/-- The digits 1 to 9 in ASCII, whose checksums the literature of CRCs gives. -/
def digits : List Byte := (rangeFrom 0x31 9).map fun b => BitVec.ofNat 8 b

/-! ### Known answers -/

theorem test_crc32c_digits : crc32c digits = 0xE3069283 := by decide +kernel
theorem test_crc32_digits : crcFinal (crc32Update 0xFFFFFFFF digits) = 0xCBF43926 := by decide +kernel
/-- FIPS 197, appendix C.1. -/
theorem test_aes_vector : aesEnc (rangeFrom 0 16) ((rangeFrom 0 16).map fun i => 17 * i) =
    ((leBytes 16 0x69c4e0d86a7b0430d8cdb78070b4c55a).reverse.map fun b => b.toNat) := by decide +kernel
/-- CRC-16/CCITT-FALSE, the checksum that R313 describes. -/
theorem test_crc16_digits : crc16 digits = 0x29B1 := by decide +kernel
/-- RFC 1321, appendix A.5. -/
theorem test_md5_vectors : md5 [] = 0xd41d8cd98f00b204e9800998ecf8427e ∧ md5 [0x61#8, 0x62#8, 0x63#8] = 0x900150983cd24fb0d6963f7d28e17f72 := by decide +kernel
/-- The picture CRC is the CRC of its polynomial with its 16 zero bits behind the data. -/
theorem test_pictureCrc_digits : pictureCrc digits = 0xE5CC := by decide +kernel
/-- The example of R267: KBPS 12,000, 60 Hz, DIV 2 and CAP_PCT 150, without debt and after an overshoot of 197,400 bits. -/
theorem test_encBudget :
    (let s := puts r0 [(Reg.ES_RATE_KBPS 0, 12000), (Reg.ES_CFG_DIV 0, 2), (Reg.ES_RC_CAP_PCT 0, 150)]
     let t := s.setEses 0 { overs := [197400] }
     decide (s.encF 0 60000 1 = 400000 ∧ s.encH 0 400000 = 600000 ∧ t.encF 0 60000 1 = 375325 ∧ t.encH 0 375325 = 562987)) = true := by
  decide +kernel
/-- The bursts of R317: 47 blocks at 24 Gbit/s and 12 at 6 Gbit/s. -/
theorem test_burstLen : (r0.put (Reg.CG_STATUS_RATE 2) 3).burstLen 2 = 47 ∧ r0.burstLen 2 = 12 := by decide +kernel
/-- After reset every output pin stands at its level (R444, R446). -/
theorem test_reset_pins : State.reset.pinLevels = State.reset.pins := by decide +kernel
/-- No word spells a command. -/
theorem test_no_word : decodeTableWord 32 0 = none ∧ (State.reset.withFetchWord 32 0).pending = [] := by decide +kernel

/-! ### Ill-formed commands -/

theorem test_wf_a_lt_2e32 :
    ([
      .registerWrite .sp (2 ^ 32) 0#32, .loRegisterRead .sp (2 ^ 32)] : List Instr).all (fun i => !i.wf) = true := by decide +kernel
theorem test_wf_n_lt_3 :
    ([
      .commitGo .sp (3) 0#32, .admission (3), .alloc .sp (3), .free .sp (3), .reset .sp (3), .trim .sp (3), .query .sp (3),
      .handleResultLatch (3)] : List Instr).all (fun i => !i.wf) = true := by decide +kernel
theorem test_wf_p_lt_12_or_p_eq_15 :
    ([
      .frameBoundary 12 0 0] : List Instr).all (fun i => !i.wf) = true := by decide +kernel
theorem test_wf_p_lt_12 :
    ([
      .commitLine (12), .staleLimit (12) 1, .beaconLine (12), .prefetchStart (12), .lineEmit (12) 1 true, .witnessClose (12),
      .slotFetch (12) 1 1 true .clean, .scCoefDataWrite .sp (12) 0#32, .scCoefReset .sp (12) 0#32, .clLutDataWrite .sp (12) 0#32,
      .clLutReset .sp (12) 0#32, .wbArm .sp (12) 0#32, .wbDone (12), .tPwrOnElapsed (12), .rasterRestart (12), .backlightOn (12),
      .tBlOffElapsed (12), .tPwrOffElapsed (12), .pwmPeriodStart (12), .pnlOutWrite .sp (12) 0#32, .cgTrainAdvance (12),
      .cgTrainLimit (12), .cgFullTrain .sp (12) 0#32, .cgRetrain (12), .caps (12) 1 (List.replicate 12 0#8) 1,
      .status (12) 1 (List.replicate 12 0#8) 1, .crcReport (12) 1 (List.replicate 12 0#8) 1,
      .holdAck (12) 1 (List.replicate 12 0#8) 1, .holdNak (12) 1 (List.replicate 12 0#8) 1, .cgEqReq (12) 1 (List.replicate 12 0#8) 1,
      .heldLost (12) 1 (List.replicate 12 0#8) 1, .cgBcLoss (12), .cgLineThr (12), .cgInj .sp (12) 0#32,
      .cgBcCrc (12) (List.replicate 16 0#8), .cgDetectRetry (12)] : List Instr).all (fun i => !i.wf) = true := by decide +kernel
theorem test_wf_k_lt_8 :
    ([
      .staleLimit 1 (8), .slotFetch 1 (8) 1 true .clean] : List Instr).all (fun i => !i.wf) = true := by decide +kernel
theorem test_wf_a_bs_length_le_2e28 :
    ([
      .hearthWindowWrite .sp (2 ^ 28) [0#8] .clean] : List Instr).all (fun i => !i.wf) = true := by decide +kernel
theorem test_wf_e_wf :
    ([
      .hearthWindowWrite .sp 1 [] (.single 0 266), .hearthWindowRead .sp 1 1 (.single 0 266), .hearthRead .functional 1 (.single 266),
      .eccReread .functional 1 (.single 266), .hearthWriteAck 1 (.single 0 266), .scrubRead (.single 0 266),
      .evacCellMove 1 (.single 0 266), .slotFetch 1 1 1 true (.single 0 266), .dmaReadIssue (.single 0 266),
      .decPictureDone [] .clean [] (.single 0 266), .decOutput 1 (.single 0 266), .encPictureDone [] [] .clean 1 (.single 0 266),
      .akFlitReceive (List.replicate 256 0#8) [] [] (.single 0 266) true, .write canOk (.single 0 266), .segEnd canOk (.single 0 266)] : List Instr).all (fun i => !i.wf) = true := by decide +kernel
theorem test_wf_a_n_le_2e28 :
    ([
      .hearthWindowRead .sp (2 ^ 28) 1 .clean] : List Instr).all (fun i => !i.wf) = true := by decide +kernel
theorem test_wf_a_lt_2e28 :
    ([
      .hearthRead .functional (2 ^ 28) .clean, .eccReread .functional (2 ^ 28) .clean, .eccWriteback (2 ^ 28)] : List Instr).all (fun i => !i.wf) = true := by decide +kernel
theorem test_wf_c_lt_8 :
    ([
      .channelFence (8) true, .evacCellMove (8) .clean, .channelZeroInitDone (8)] : List Instr).all (fun i => !i.wf) = true := by decide +kernel
theorem test_wf_i_lt_64 :
    ([
      .telltaleReqWrite .sp (64) 0#32, .telltaleTimeout (64)] : List Instr).all (fun i => !i.wf) = true := by decide +kernel
theorem test_wf_i_lt_4 :
    ([
      .e2eFailedClear .sp (4) 0#32] : List Instr).all (fun i => !i.wf) = true := by decide +kernel
theorem test_wf_c_lt_112 :
    ([
      .doorbell .sp (112) 0#32, .reload .sp (112) 0#32, .pause .sp (112) 0#32, .abort .sp (112) 0#32, .abortDrainDone (112),
      .descriptorReadDone (112), .descriptorCurrent (112), .descriptorComplete (112) true, .dmaLate (112)] : List Instr).all (fun i => !i.wf) = true := by decide +kernel
theorem test_wf_tag_lt_1024 :
    ([
      .cplTimeout (1024), .heldTagRelease (1024)] : List Instr).all (fun i => !i.wf) = true := by decide +kernel
theorem test_wf_i_lt_16 :
    ([
      .decOpen .sp (16), .decClose .sp (16), .decFlush .sp (16), .decReset .sp (16), .dsResultLatch (16), .decPictureStart (16) irap0,
      .decOutput (16) .clean, .decOut (16)] : List Instr).all (fun i => !i.wf) = true := by decide +kernel
theorem test_wf_i_lt_12 :
    ([
      .encOpen .sp (12), .encClose .sp (12), .forceIdr .sp (12), .esResultLatch (12)] : List Instr).all (fun i => !i.wf) = true := by decide +kernel
theorem test_wf_acc_lt_16 :
    ([
      .akTrainAdvance (16) [] []] : List Instr).all (fun i => !i.wf) = true := by decide +kernel
theorem test_wf_margins_length_le_16 :
    ([
      .akTrainAdvance 1 (List.replicate 17 0) [], .akTrainLimit 1 (List.replicate 17 0) []] : List Instr).all (fun i => !i.wf) = true := by decide +kernel
theorem test_wf_eq_all_fun_q_to_q_lane_lt_20_and_q_tap_eq_1_or_q_tap_eq_2 :
    ([
      .akTrainAdvance 1 [] [⟨20, 1, true, 0⟩], .akTrainLimit 1 [] [⟨20, 1, true, 0⟩]] : List Instr).all (fun i => !i.wf) = true := by decide +kernel
theorem test_wf_missed_lt_2e20 :
    ([
      .akTrainLimit (2 ^ 20) [] []] : List Instr).all (fun i => !i.wf) = true := by decide +kernel
theorem test_wf_rx_all_fun_k_to_k_lt_30 :
    ([
      .akFlitReceive (List.replicate 256 0#8) [] [30] .clean true] : List Instr).all (fun i => !i.wf) = true := by decide +kernel
theorem test_wf_bs_length_eq_256 :
    ([
      .akFlitReceive (List.replicate 255 0#8) [] [] .clean true] : List Instr).all (fun i => !i.wf) = true := by decide +kernel
theorem test_wf_viol_all_fun_l_to_l_lt_16 :
    ([
      .akFlitReceive (List.replicate 256 0#8) [16] [] .clean true] : List Instr).all (fun i => !i.wf) = true := by decide +kernel
theorem test_wf_l_lt_20 :
    ([
      .akLaneFence (20), .lnFenceClear .sp (20) 0#32] : List Instr).all (fun i => !i.wf) = true := by decide +kernel
theorem test_wf_seq_lt_256 :
    ([
      .caps 1 (256) (List.replicate 12 0#8) 1, .status 1 (256) (List.replicate 12 0#8) 1,
      .crcReport 1 (256) (List.replicate 12 0#8) 1, .holdAck 1 (256) (List.replicate 12 0#8) 1,
      .holdNak 1 (256) (List.replicate 12 0#8) 1, .cgEqReq 1 (256) (List.replicate 12 0#8) 1,
      .heldLost 1 (256) (List.replicate 12 0#8) 1] : List Instr).all (fun i => !i.wf) = true := by decide +kernel
theorem test_wf_bs_length_eq_12 :
    ([
      .caps 1 1 (List.replicate 11 0#8) 1, .status 1 1 (List.replicate 11 0#8) 1, .crcReport 1 1 (List.replicate 11 0#8) 1,
      .holdAck 1 1 (List.replicate 11 0#8) 1, .holdNak 1 1 (List.replicate 11 0#8) 1, .cgEqReq 1 1 (List.replicate 11 0#8) 1,
      .heldLost 1 1 (List.replicate 11 0#8) 1] : List Instr).all (fun i => !i.wf) = true := by decide +kernel
theorem test_wf_crc_lt_2e16 :
    ([
      .caps 1 1 (List.replicate 12 0#8) (2 ^ 16), .status 1 1 (List.replicate 12 0#8) (2 ^ 16),
      .crcReport 1 1 (List.replicate 12 0#8) (2 ^ 16), .holdAck 1 1 (List.replicate 12 0#8) (2 ^ 16),
      .holdNak 1 1 (List.replicate 12 0#8) (2 ^ 16), .cgEqReq 1 1 (List.replicate 12 0#8) (2 ^ 16),
      .heldLost 1 1 (List.replicate 12 0#8) (2 ^ 16)] : List Instr).all (fun i => !i.wf) = true := by decide +kernel
theorem test_wf_i_lt_15 :
    ([
      .pllLockDone (15), .pllLockFail (15), .pllLossOfLock (15), .freqGuardTrip (15), .pllRestart .sp (15) 0#32] : List Instr).all (fun i => !i.wf) = true := by decide +kernel
theorem test_wf_n_lt_256 :
    ([
      .sourceInputChange (256) true 1 1 1, .srcCfgWrite .sp (256) 0#32] : List Instr).all (fun i => !i.wf) = true := by decide +kernel
theorem test_wf_n_lt_8 :
    ([
      .srcPendWrite .sp (8) 0#32, .srcUnpendWrite .sp (8) 0#32, .program .sp (8), .revoke .sp (8), .programCpk .sp (8)] : List Instr).all (fun i => !i.wf) = true := by decide +kernel
theorem test_wf_t_lt_4 :
    ([
      .intcAcknowledge (4) 1, .coreIdleChange (4) true true] : List Instr).all (fun i => !i.wf) = true := by decide +kernel
theorem test_wf_t_lt_8 :
    ([
      .tgtClaimRead .sp (8), .tgtEoi .sp (8) 0#32, .hqAck .sp (8) 0#32, .moderationExpiry (8) 1] : List Instr).all (fun i => !i.wf) = true := by decide +kernel
theorem test_wf_q_lt_4 :
    ([
      .hostMsgCommit (4)] : List Instr).all (fun i => !i.wf) = true := by decide +kernel
theorem test_wf_g_lt_16 :
    ([
      .moderationExpiry 1 (16)] : List Instr).all (fun i => !i.wf) = true := by decide +kernel
theorem test_wf_fr_wf :
    ([
      .read canBad true, .write canBad .clean, .classicRead canBad true, .segReadInit canBad true, .segWriteInit canBad,
      .segData canBad, .segAck canBad, .segEnd canBad .clean, .odAbort canBad, .stateFrame canBad] : List Instr).all (fun i => !i.wf) = true := by decide +kernel
theorem test_wf_b_lt_3 :
    ([
      .segTimeout (3)] : List Instr).all (fun i => !i.wf) = true := by decide +kernel
theorem test_wf_u_lt_17 :
    ([
      .claim .sp (17), .ownRelease .sp (17), .assign .sp (17) 1] : List Instr).all (fun i => !i.wf) = true := by decide +kernel
theorem test_wf_w_lt_4 :
    ([
      .assign .sp 1 (4)] : List Instr).all (fun i => !i.wf) = true := by decide +kernel
theorem test_wf_n_lt_2 :
    ([
      .canBusoff (2), .busoffRecovery (2), .canBusError (2) 1 1] : List Instr).all (fun i => !i.wf) = true := by decide +kernel
theorem test_wf_bad_lt_4 :
    ([
      .mainResetRelease (4)] : List Instr).all (fun i => !i.wf) = true := by decide +kernel
theorem test_wf_ts_length_eq_16 :
    ([
      .thSensorRead []] : List Instr).all (fun i => !i.wf) = true := by decide +kernel
theorem test_wf_bad_all_fun_i_to_i_lt_8 :
    ([
      .kindlingConfig [8]] : List Instr).all (fun i => !i.wf) = true := by decide +kernel
theorem test_wf_1_le_g_and_g_le_14 :
    ([
      .fcStatClear .sp 0 0#32] : List Instr).all (fun i => !i.wf) = true := by decide +kernel
theorem test_wf_c_eq_2_or_c_eq_3 :
    ([
      .scWdt 1] : List Instr).all (fun i => !i.wf) = true := by decide +kernel
theorem test_wf_bs_length_eq_16 :
    ([
      .cgBcCrc 1 (List.replicate 15 0#8)] : List Instr).all (fun i => !i.wf) = true := by decide +kernel
theorem test_wf_tx_lt_2e16_and_rx_lt_2e16 :
    ([
      .canBusError 1 1 (2 ^ 16)] : List Instr).all (fun i => !i.wf) = true := by decide +kernel
theorem test_wf_1_le_n_and_n_le_4 :
    ([
      .clusterSignalTimeout 0] : List Instr).all (fun i => !i.wf) = true := by decide +kernel
theorem test_wf_c_eq_0_or_c_eq_2_or_c_eq_3 :
    ([
      .coreHalt 1 true] : List Instr).all (fun i => !i.wf) = true := by decide +kernel
theorem test_wf_accepts_0 :
    ([
      .registerWrite .sp 1 0#32, .loRegisterRead .sp 1, .globalLockSet .sp, .commitGo .sp 1 0#32, .admission 1, .frameBoundary 1 0 0,
      .idleGrantTimer, .commitLine 1, .staleLimit 1 1, .beaconLine 1, .prefetchStart 1, .lineEmit 1 1 true, .witnessClose 1,
      .shedRestore .sp 0#32, .autoRestoreStep, .fsyncEdge 1 1, .fsyncLost, .hearthWindowWrite .sp 1 [] .clean,
      .hearthWindowRead .sp 1 1 .clean, .alloc .sp 1, .free .sp 1, .reset .sp 1, .trim .sp 1, .query .sp 1, .handleResultLatch 1,
      .hearthRead .functional 1 .clean, .eccReread .functional 1 .clean, .eccWriteback 1, .hearthWriteAck 1 .clean, .scrubRead .clean,
      .eccInj .sp 0#32, .injPar .sp true 0#32, .channelFence 1 true, .evacCellMove 1 .clean, .fenceClear .sp 0#32,
      .channelZeroInitDone 1, .hearthColdInitDone, .statWindowEnd, .statClear .sp 0#32, .slotFetch 1 1 1 true .clean,
      .scCoefDataWrite .sp 1 0#32, .scCoefReset .sp 1 0#32, .clLutDataWrite .sp 1 0#32, .clLutReset .sp 1 0#32, .wbArm .sp 1 0#32,
      .wbDone 1, .beaconApply .sp 0#32, .telltaleReqWrite .sp 1 0#32, .telltaleTimeout 1, .e2eFailedClear .sp 1 0#32, .bcInj .sp 0#32,
      .clusterRedraw [], .clusterSealed] : List Instr).all Instr.wf = true := by decide +kernel
theorem test_wf_accepts_1 :
    ([
      .clusterRedrawLate, .tPwrOnElapsed 1, .rasterRestart 1, .backlightOn 1, .tBlOffElapsed 1, .tPwrOffElapsed 1, .pwmPeriodStart 1,
      .pnlOutWrite .sp 1 0#32, .doorbell .sp 1 0#32, .reload .sp 1 0#32, .pause .sp 1 0#32, .abort .sp 1 0#32, .abortDrainDone 1,
      .descriptorReadDone 1, .descriptorCurrent 1, .dmaReadIssue .clean, .cplTimeout 1, .heldTagRelease 1, .descriptorComplete 1 true,
      .dmaLate 1, .dmaInj .sp 0#32, .decOpen .sp 1, .decClose .sp 1, .decFlush .sp 1, .decReset .sp 1, .dsResultLatch 1,
      .decPictureStart 1 irap0, .decPictureDone [] .clean [] .clean, .decOutput 1 .clean, .decOut 1, .decWatchdog [],
      .decUnfence .sp 0#32, .decInj .sp 0#32, .encOpen .sp 1, .encClose .sp 1, .forceIdr .sp 1, .esResultLatch 1, .encPictureStart,
      .encPictureDone [] [] .clean 1 .clean, .encWatchdog, .encUnfence .sp 0#32, .encInj .sp 0#32, .akTrainAdvance 1 [] [],
      .akTrainLimit 1 [] [], .fullTrain .sp 0#32, .retrain .sp 0#32, .akRetryTimer,
      .akFlitReceive (List.replicate 256 0#8) [] [] .clean true, .akFlitSend none, .replayTimeout true, .akIdleRequest, .akIdleExit,
      .akLaneFence 1] : List Instr).all Instr.wf = true := by decide +kernel
theorem test_wf_accepts_2 :
    ([
      .lnFenceClear .sp 1 0#32, .akClkLoss, .akInj .sp 0#32, .cgTrainAdvance 1, .cgTrainLimit 1, .cgFullTrain .sp 1 0#32,
      .cgRetrain 1, .caps 1 1 (List.replicate 12 0#8) 1, .status 1 1 (List.replicate 12 0#8) 1,
      .crcReport 1 1 (List.replicate 12 0#8) 1, .holdAck 1 1 (List.replicate 12 0#8) 1, .holdNak 1 1 (List.replicate 12 0#8) 1,
      .cgEqReq 1 1 (List.replicate 12 0#8) 1, .heldLost 1 1 (List.replicate 12 0#8) 1, .cgBcLoss 1, .cgLineThr 1, .cgInj .sp 1 0#32,
      .pllLockDone 1, .pllLockFail 1, .pllLossOfLock 1, .freqGuardTrip 1, .clkRefLoss, .pllRestart .sp 1 0#32, .clkInj .sp 0#32,
      .lockmonHoldExpiry, .sourceInputChange 1 true 1 1 1, .srcPendWrite .sp 1 0#32, .srcUnpendWrite .sp 1 0#32,
      .srcCfgWrite .sp 1 0#32, .intcAcknowledge 1 1, .tgtClaimRead .sp 1, .tgtEoi .sp 1 0#32, .hostMsgCommit 1, .hqAck .sp 1 0#32,
      .moderationExpiry 1 1, .coreIdleChange 1 true true, .recD2Read .sp, .recStatRead .sp, .mboxRing .sp 0#32, .intcInj .sp 0#32,
      .read canOk true, .write canOk .clean, .classicRead canOk true, .segReadInit canOk true, .segWriteInit canOk, .segData canOk,
      .segAck canOk, .segEnd canOk .clean, .odAbort canOk, .segTimeout 1, .stateFrame canOk, .sfTimeout, .proofFrame] : List Instr).all Instr.wf = true := by decide +kernel
theorem test_wf_accepts_3 :
    ([
      .claim .sp 1, .ownRelease .sp 1, .assign .sp 1 1, .mgmtDataSkew, .canBusoff 1, .busoffRecovery 1, .odInj .sp 0#32,
      .smoulderRequest .sp, .emberRequest .sp, .powerStateReached, .pgoodStuck, .wake 1, .pgoodRise, .mainResetRelease 1, .pgoodLost,
      .resetNAssert, .resetNRelease, .pwrBudgetWrite .sp 0#32, .thSensorRead (List.replicate 16 0), .avsPeriod 1 none none,
      .pwrInj .sp 0#32, .kindlingConfig [], .kindlingDone, .faultReport .ACC_REFUSED 1 1 1, .faultQuietExpiry .ACC_REFUSED,
      .fcStatClear .sp 1 0#32, .fcClear .sp 0#32, .fcKick .sp 0#32, .glowHalfPeriod, .fcSckick .sp 0#32, .scWdt 2,
      .fcFirstClear .sp 0#32, .fcInj .sp 0#32, .lifecycleRequest .sp 0#32, .chalReq .sp, .submit .sp, .close .sp, .program .sp 1,
      .revoke .sp 1, .programCpk .sp 1, .programPwd .sp, .otpProgramDone true, .recoverGo .sp, .emberPowerOn, .emberSupplyLoss,
      .cgBcCrc 1 (List.replicate 16 0#8), .canBusError 1 1 1, .cgDetectRetry 1, .clusterSignalTimeout 1, .crystalStable,
      .coreHalt 2 true, .recoverDone true] : List Instr).all Instr.wf = true := by decide +kernel
theorem test_ecc_wf : EccResult.wf (.single 265) = true ∧ EccResult.wf (.single 266) = false := by decide +kernel
theorem test_readEvent_wf : ReadEvent.wf (.double 0 .double) = true ∧ ReadEvent.wf (.double (2 ^ 28) .double) = false ∧
    ReadEvent.wf (.double 0 (.single 266)) = false ∧ ReadEvent.wf (.both .clean (.single 0 266)) = false := by decide +kernel
theorem test_canFrame_wf : CanFrame.wf ⟨1, 5, false, List.replicate 8 0#8, false⟩ = true ∧ CanFrame.wf ⟨1, 5, false, List.replicate 9 0#8, false⟩ = false ∧
    CanFrame.wf ⟨2, 5, false, List.replicate 257 0#8, false⟩ = false ∧ CanFrame.wf ⟨3, 5, false, [], false⟩ = false := by decide +kernel

/-! ### Single steps -/

theorem test_fcKick : (let s : State := { r0 with fc := { r0.fc with armed := true, kicked := true, expectSecond := false } }; let o : Origin := .sp; let v : Word := 0x5AA5#32; let t := after (.fcKick o v) s;
    decide (t.safeState = true ∧ t.pins.glow = false)) = true := by decide +kernel
theorem test_scWdt : (let s : State := { (r0.put Reg.FC_WDT_SC_MS 100) with fc := {} }; let c : Nat := 2; let t := after (.scWdt c) s;
    decide (t.scHeld c = true ∧ (t.tgt c).stack = [])) = true := by decide +kernel
theorem test_registerWrite : (let s : State := r0; let o : Origin := .sp; let a : Nat := Reg.a_FC_WDT; let v : Word := 0x640A#32; let f : FieldRow := (fld0 Reg.a_FC_WDT); let t := after (.registerWrite o a v) s;
    decide (t.get ⟨a, f.hi, f.lo⟩ = bits v.toNat f.hi f.lo)) = true := by decide +kernel
theorem test_globalLockSet : (let s : State := r0; let o : Origin := .sp; let t := after (.globalLockSet o) s;
    decide (t.is Reg.GLB_LOCK_CFG = true)) = true := by decide +kernel
theorem test_shedRestore : (let s : State := r0; let o : Origin := .sp; let v : Word := 0x10201#32; let t := after (.shedRestore o v) s;
    decide (t.get Reg.SHED_CTRL_RESTORE_DELAY = 2 && t.get Reg.SHED_CTRL_AUTO_RESTORE = 1)) = true := by decide +kernel
theorem test_commitLine : (let s : State := due0.modPipe 0 fun x => { x with nextLine := 2 }; let p : Nat := 0; let c : Pend := pend0; let t := after (.commitLine p) s;
    decide (((t.pipe p).next.map fun n => (n.tag, n.img)) = some (some c.tag, c.img) ∧ (t.pipe p).commitDone = true ∧ (t.pipe p).pend = [])) = true := by decide +kernel
theorem test_hearthWindowWrite : (let s : State := (r0.put Reg.HM_STATUS_READY 1); let o : Origin := .host; let a : Nat := 100; let bs : List Byte := [1#8, 2#8, 3#8]; let t := after (.hearthWindowWrite o a bs .clean) s;
    decide ([t.hmByte 99, t.hmByte 100, t.hmByte 102, t.hmByte 103] = [s.hmByte 99, 1#8, 3#8, s.hmByte 103] ∧ t.regs = s.regs)) = true := by decide +kernel
theorem test_hearthWriteAck : (let s : State := { ((r0.put Reg.HM_STATUS_READY 1).setHandle 3 { alloc := true, owner := 1, sizes := [65536], cells := [[8]], st := .filling }) with hm := { ((r0.put Reg.HM_STATUS_READY 1).setHandle 3 { alloc := true, owner := 1, sizes := [65536], cells := [[8]], st := .filling }).hm with writes := [⟨5, 3, 0, 64, List.replicate 32 7#8, false⟩] } }; let i : Nat := 0; let t := after (.hearthWriteAck i .clean) s;
    decide (t.hmByte (8*65536+64) = 7#8 ∧ t.hmByte (8*65536+95) = 7#8 ∧ t.hmByte (8*65536+96) = s.hmByte (8*65536+96) ∧ t.hm.writes = s.hm.writes.eraseIdx i ∧ t.regs = s.regs)) = true := by decide +kernel
theorem test_alloc : (let s : State := (r0.put Reg.HM_STATUS_READY 1).put (Reg.HP_SIZE0_BYTES 0) 100000; let o : Origin := .host; let n : Nat := 0; let cells : List (List Nat) := [[0, 1]]; let t := after (.alloc o n) s;
    decide ((t.handle 0).alloc = true ∧ (t.handle 0).cells = cells ∧ t.is (Reg.HP_RESULT_BUSY n) = true ∧ (n, ⟨1, s.get (Reg.HP_SEL_HANDLE n), 0, true⟩) ∈ t.hm.busy)) = true := by decide +kernel
theorem test_free : (let s : State := ((r0.put Reg.HM_STATUS_READY 1).put (Reg.HP_SEL_HANDLE 0) 3).setHandle 3 { alloc := true, owner := 1, sizes := [65536], cells := [[8]], st := .sealed }; let o : Origin := .host; let n : Nat := 0; let t := after (.free o n) s;
    decide (t.handle 3 = {} ∧ t.is (Reg.HP_RESULT_BUSY n) = true ∧ (n, ⟨2, s.get (Reg.HP_SEL_HANDLE n), 0, true⟩) ∈ t.hm.busy)) = true := by decide +kernel
theorem test_fenceClear : (let s : State := unf0; let o : Origin := .sp; let v : Word := 0x10000#32; let c : Nat := 0; let t := after (.fenceClear o v) s;
    decide (t.fenced c = false ∧ t.unreadable c = false ∧ c ∈ t.hm.zeroing ∧ t.is Reg.HM_STATUS_INIT_BUSY = true ∧ t.hm.mem = s.hm.mem)) = true := by decide +kernel
theorem test_channelZeroInitDone : (let s : State := { r0 with hm := { r0.hm with zeroing := [2], mem := [(131072, 5#8), (196608, 6#8)] } }; let c : Nat := 2; let t := after (.channelZeroInitDone c) s;
    decide (t.hmByte 131072 = (if c = 2 then 0#8 else s.hmByte 131072) ∧ t.hmByte 196608 = (if c = 3 then 0#8 else s.hmByte 196608) ∧ t.hm.zeroing.contains c = false)) = true := by decide +kernel
theorem test_scCoefDataWrite : (let s : State := (r0.put (Reg.OWN_OWNER 0) 1).put (Reg.SC_COEF_ADDR_TAP 0) 2; let o : Origin := .host; let p : Nat := 0; let v : Word := 0x3FF#32; let t := after (.scCoefDataWrite o p v) s;
    decide ((t.pipe 0).coefAt 0 0 0 2 = -1 ∧ (t.pipe 0).coefAt 0 0 0 3 = (s.pipe 0).coefAt 0 0 0 3)) = true := by decide +kernel
theorem test_clLutDataWrite : (let s : State := ((r0.put (Reg.OWN_OWNER 0) 1).put (Reg.CL_LUT_ADDR_COMP 0) 3).put (Reg.CL_LUT_ADDR_INDEX 0) 1023; let o : Origin := .host; let p : Nat := 0; let v : Word := 0x1FFF#32; let t := after (.clLutDataWrite o p v) s;
    decide ((t.pipe 0).lutAt 0 0 1 1023 = 4095 ∧ (t.pipe 0).lutAt 0 0 2 1023 = 4095 ∧ t.get (Reg.CL_LUT_ADDR_INDEX 0) = 1024)) = true := by decide +kernel
theorem test_wbDone : (let s : State := ((r0.setMode 0 .running).setHandle 5 { alloc := true, owner := 1, sizes := [65536], cells := [[8]], st := .filling }).modPipe 0 fun x => { x with wb := { x.wb with closing := [⟨0, 5, 77⟩] } }; let p : Nat := 0; let c : WbClose := ⟨0, 5, 77⟩; let t := after (.wbDone p) s;
    decide ((t.handle c.handle).st = .sealed ∧ t.is (Reg.WB_STATUS_DONE p) = true ∧ t.is (Reg.WB_STATUS_BUSY p) = (s.pipe p).wb.capturing ∧ t.get (Reg.WB_STATUS_SEALED p) = (s.get (Reg.WB_STATUS_SEALED p) + 1) % 65536 ∧ t.get (Reg.WB_STAMP_LO_STAMP p) = c.stamp % 2 ^ 32 ∧ t.get (Reg.WB_STAMP_HI_STAMP p) = c.stamp / 2 ^ 32 % 2 ^ 16 ∧ (t.pipe p).wb.closing = [] ∧ t.hm.mem = s.hm.mem)) = true := by decide +kernel
theorem test_beaconApply : (let s : State := ((r0.put (Reg.BE_CFG_EN 0) 1).put (Reg.BE_CFG_PIPE 0) 13); let o : Origin := .sp; let v : Word := 1#32; let t := after (.beaconApply o v) s;
    decide (t.get Reg.BC_STATUS_APPLY_RESULT = 1 ∧ t.pipes = s.pipes)) = true := by decide +kernel
theorem test_telltaleReqWrite : (let s : State := r0; let o : Origin := .sp; let i : Nat := 63; let v : Word := 1#32; let t := after (.telltaleReqWrite o i v) s;
    decide (t.get (Reg.TT_STATE_REQ i) = bits v.toNat 1 0 ∧ (t.tt i).ageAt = some s.now ∧ t.ttTimedOut i = false ∧ t.pipes = s.pipes ∧ t.hm = s.hm)) = true := by decide +kernel
theorem test_doorbell : (let s : State := ((r0.put (Reg.OWN_OWNER 0) 1)).put (Reg.CH_DB_LO_ADDR 3) 3; let o : Origin := .host; let c : Nat := 3; let v : Word := 1#32; let t := after (.doorbell o c v) s;
    decide ((t.chan c).lists = (s.chan c).lists ++ [v.toNat * 2 ^ 32 + s.get (Reg.CH_DB_LO_ADDR c) * 64] ∧ t.hm = s.hm ∧ t.pipes = s.pipes ∧ t.dma.reqs = s.dma.reqs)) = true := by decide +kernel
theorem test_abortDrainDone : (let s : State := (((r0.put (Reg.OWN_OWNER 0) 1)).setHandle 5 { alloc := true, owner := 1, sizes := [65536], cells := [[8]], st := .filling }).setChan 3 { aborting := true, lists := [64], cur := some { d := { addr := 0x1000, next := 0, host := 0x4000, ctrl := 6, target := 5, off := 0, rowBytes := 64, rows := 1, hostStride := 64, hearthStride := 64, sealWord := 0, tag := 9, rsv := 0, list := some 0x1000 }, asked := 64, wrote := 64, arrived := [(0, List.replicate 64 1#8)] }, fill := some { handle := 5, first := 0x1000, started := true } }; let c : Nat := 3; let t := after (.abortDrainDone c) s;
    decide (t.get (Reg.CH_LAST_STATUS_CODE c) = stABORTED ∧ (t.chan c).cur = none ∧ (t.chan c).fill = none ∧ (t.chan c).aborting = false ∧ (t.chan c).lists = (s.chan c).lists ∧ t.hm.handles = s.hm.handles ∧ t.hm.mem = s.hm.mem)) = true := by decide +kernel
theorem test_cplTimeout : (let s : State := { (((((r0.put (Reg.OWN_OWNER 0) 1)).setHandle 5 { alloc := true, owner := 1, sizes := [65536], cells := [[8]], st := .empty }).setChan 3 { cur := some { d := { addr := 0x1000, next := 0, host := 0x4000, ctrl := 6, target := 5, off := 0, rowBytes := 64, rows := 1, hostStride := 64, hearthStride := 64, sealWord := 0, tag := 9, rsv := 0, list := some 0x1000 } } }).put Reg.AK_STATUS_STATE 6) with dma := { (((((r0.put (Reg.OWN_OWNER 0) 1)).setHandle 5 { alloc := true, owner := 1, sizes := [65536], cells := [[8]], st := .empty }).setChan 3 { cur := some { d := { addr := 0x1000, next := 0, host := 0x4000, ctrl := 6, target := 5, off := 0, rowBytes := 64, rows := 1, hostStride := 64, hearthStride := 64, sealWord := 0, tag := 9, rsv := 0, list := some 0x1000 } } }).put Reg.AK_STATUS_STATE 6).dma with reqs := [⟨7, 3, 0x4000, 64, false, 0, [], false⟩], held := [(9, 4)] } }; let tag : Nat := 7; let r : Req := ⟨7, 3, 0x4000, 64, false, 0, [], false⟩; let u : Cur := { d := { addr := 0x1000, next := 0, host := 0x4000, ctrl := 6, target := 5, off := 0, rowBytes := 64, rows := 1, hostStride := 64, hearthStride := 64, sealWord := 0, tag := 9, rsv := 0, list := some 0x1000 } }; let t := after (.cplTimeout tag) s;
    decide (t.dma.reqs = s.dma.reqs.filter (fun q => q.tag != tag) ∧ t.dma.held = s.dma.held ++ [(tag, r.chan)] ∧ (t.chan r.chan).cur = some { u with cause := 2 } ∧ t.hm = s.hm ∧ t.fc = s.fc)) = true := by decide +kernel
theorem test_dsResultLatch : (let s : State := ((r0.put Reg.HM_STATUS_READY 1).put (Reg.OWN_OWNER 14) 1).setDses 2 { busy := some (1, 2) }; let i : Nat := 2; let code : Nat := 1; let detail : Nat := 2; let t := after (.dsResultLatch i) s;
    decide (t.get (Reg.DS_RESULT_CODE i) = code ∧ t.get (Reg.DS_DETAIL_DETAIL i) = detail ∧ t.get (Reg.DS_RESULT_SEQ i) = (s.get (Reg.DS_RESULT_SEQ i) + 1) % 256 ∧ (t.src 182).pend = true ∧ t.hm = s.hm)) = true := by decide +kernel
theorem test_decPictureDone : (let s : State := (decRun.setDses 2 { cur := some (pic2 0 false true) }); let i : Nat := 2; let q : DecPic := (pic2 0 false true); let lost : List Nat := [0]; let rd : List Nat := []; let t := after (.decPictureDone lost .clean rd .clean) s;
    decide ((t.dses i).cur = none ∧ (t.dses i).dpb = enterDpb (s.dses i).limits (s.dses i).dpb (q.conceal (s.dses i).dpb lost) ∧ t.get (Reg.DS_CNT_DEC_DECODED i) = (s.get (Reg.DS_CNT_DEC_DECODED i) + 1) % 65536 ∧ t.is Reg.DEC_STATUS_BUSY = false ∧ t.hm.handles = s.hm.handles)) = true := by decide +kernel
theorem test_decOutput : (let s : State := decRun.setDses 2 { dpb := [(pic2 4 true true)] }; let i : Nat := 2; let e : ReadEvent := .clean; let t := after (.decOutput i e) s;
    decide ((t.dses i).writing = none ∧ t.get (Reg.DS_CNT_OUT_DROPPED i) = (s.get (Reg.DS_CNT_OUT_DROPPED i) + 1) % 65536 ∧ t.hm.handles = s.hm.handles ∧ t.hm.mem = s.hm.mem)) = true := by decide +kernel
theorem test_encPictureDone : (let s : State := encBusy; let i : Nat := 1; let c : CapFrame := cap0; let fs : List CtuFact := []; let slice : List Byte := [2#8]; let k : Nat := 0; let t := after (.encPictureDone fs slice .clean k .clean) s;
    decide ((t.eses i).coding = none ∧ (t.eses i).recs = (s.eses i).recs ++ (s.encRecords i c ((s.encRating i c).code fs) slice).map List.length ∧ (t.eses i).queued = (s.eses i).queued + sumNat ((s.encRecords i c ((s.encRating i c).code fs) slice).map List.length) ∧ (t.eses i).lastDropped = false ∧ (t.eses i).sprev = ((s.encRating i c).code fs).spent ∧ t.enc.expired = none ∧
        t.is Reg.ENC_STATUS_BUSY = false ∧ t.get (Reg.ES_FRAMES_CODED i) = (s.get (Reg.ES_FRAMES_CODED i) + 1) % 65536 ∧ (((s.encRating i c).code fs).mode ≠ 0 → t.is (Reg.ES_STATUS_EXHAUSTED i) = true))) = true := by decide +kernel
theorem test_retrain : (let s : State := akIn 6; let o : Origin := .sp; let v : Word := 1#32; let t := after (.retrain o v) s;
    decide (t.get Reg.AK_STATUS_STATE = 4 ∧ t.ak.unacked = s.ak.unacked)) = true := by decide +kernel
theorem test_akIdleRequest : (let s : State := { (akIn 6) with ak := { rxInit := true } }; let t := after (.akIdleRequest) s;
    decide (t.ak.links = [[4#8]])) = true := by decide +kernel
theorem test_cgTrainLimit : (let s : State := cgIn 4; let p : Nat := 3; let t := after (.cgTrainLimit p) s;
    decide (t.get (Reg.CG_STATUS_STATE p) = 1 ∧ (t.pipe p).trainOk = true ∧ t.hm = s.hm)) = true := by decide +kernel
theorem test_caps : (let s : State := cgIn 6; let p : Nat := 3; let seq : Nat := 9; let bs : List Byte := [1#8, 3#8, 7#8, 0#8, 0x1E#8, 0x40#8, 0x0B#8, 5#8, 6#8]; let crc : Nat := (crc16 (bcBytes 1 9 [1#8, 3#8, 7#8, 0#8, 0x1E#8, 0x40#8, 0x0B#8, 5#8, 6#8])); let t := after (.caps p seq bs crc) s;
    decide (t.get (Reg.CG_CAPS_RATES p) = bodyByte bs 2 % 16 ∧ t.get (Reg.CG_CAPS_DEPTHS p) = bodyByte bs 4 % 8 ∧ t.get (Reg.CG_CAPS_MAX_H p) = bodyHalf bs 5 % 8192 ∧ t.get (Reg.CG_CAPS2_MAX_V p) = bodyHalf bs 7 % 4096 ∧ t.get (Reg.CG_CAPS2_RX_ID p) = bodyHalf bs 9 ∧ t.cg = s.cg ∧ t.hm = s.hm)) = true := by decide +kernel
theorem test_crcReport : (let s : State := ((cgIn 6).modPipe 3 fun x => { x with bcn := some ⟨1, []⟩ }).setEntry 1 { kept := [⟨7, 5, false, []⟩] }; let p : Nat := 3; let seq : Nat := 9; let bs : List Byte := [7#8, 0#8, 5#8, 0#8, 0#8, 0#8]; let crc : Nat := (crc16 (bcBytes 3 9 [7#8, 0#8, 5#8, 0#8, 0#8, 0#8])); let b : BcnForce := ⟨1, []⟩; let k : KeptCrc := ⟨7, 5, false, []⟩; let t := after (.crcReport p seq bs crc) s;
    decide (t.get (Reg.BE_RX_CRC_CRC b.entry) = bodyHalf bs 4 + 65536 * bodyHalf bs 6 ∧ t.get (Reg.BE_E2E_LAST b.entry) = (if bodyHalf bs 4 + 65536 * bodyHalf bs 6 = k.crc then 0 else 1) ∧ t.get (Reg.BE_E2E_FRAME b.entry) = bodyByte bs 2 ∧ t.get (Reg.BE_E2E_MATCH_RUN b.entry) = 1)) = true := by decide +kernel
theorem test_pllLockFail : (let s : State := ((r0.setMode 3 .running).put (Reg.PLL_STATUS_STATE 3) 4); let i : Nat := 3; let t := after (.pllLockFail i) s;
    decide (t.get (Reg.PLL_STATUS_STATE i) = 1 ∧ t.mode i = .relock ∧ (t.pll i).retry = true)) = true := by decide +kernel
theorem test_freqGuardTrip : (let s : State := ((r0.setMode 3 .running).put (Reg.PLL_STATUS_STATE 3) 6); let i : Nat := 3; let t := after (.freqGuardTrip i) s;
    decide (t.mode i = .stopping ∧ t.get (Reg.PLL_STATUS_STATE i) = 0 ∧ (t.pll i).failed = true ∧ (t.pipe i).shown = (s.pipe i).shown)) = true := by decide +kernel
theorem test_srcPendWrite : (let s : State := r0; let o : Origin := .sp; let n : Nat := 6; let v : Word := 0x80000001#32; let t := after (.srcPendWrite o n v) s;
    decide ((t.src 192).pend = true ∧ (t.src 223).pend = false)) = true := by decide +kernel
theorem test_srcCfgWrite : (let s : State := r0; let o : Origin := .sp; let n : Nat := 193; let v : Word := 0x85000F09#32; let t := after (.srcCfgWrite o n v) s;
    decide (t.get (Reg.SRC_CFG_PRIO n) = 9 ∧ t.get (Reg.SRC_CFG_GROUP n) = 0 ∧ t.get (Reg.SRC_CFG_TARGETS n) = 15)) = true := by decide +kernel
theorem test_recStatRead : (let s : State := ((r0.setSrc 5 { fifo := [⟨1, 5, 7, 9⟩, ⟨1, 5, 8, 10⟩], lost := 3 }).put Reg.REC_SEL_SOURCE 5); let o : Origin := .sp; let t := after (.recStatRead o) s;
    decide ((t.src 5).lost = 0 ∧ t.outbox = [.data o Reg.a_REC_STAT [3#8, 0#8, 2#8, 0#8]])) = true := by decide +kernel
theorem test_tgtClaimRead : (let s : State := ((puts r0 [(Reg.SRC_CFG_EN 5, 1), (Reg.SRC_CFG_PRIO 5, 3), (Reg.SRC_CFG_TARGETS 5, 0xFF), (Reg.AK_STATUS_STATE, 6), (Reg.HQ_CFG_DEPTH 4, 64)]).setSrc 5 { pend := true, fifo := [⟨1, 5, 7, 9⟩, ⟨1, 5, 8, 10⟩] }); let o : Origin := .sp; let c : Nat := 1; let t := after (.tgtClaimRead o c) s;
    decide ((t.src 5).active = true ∧ t.outbox = [.data o (Reg.a_TGT_CLAIM c) [5#8, 0#8, 0#8, 0#8]])) = true := by decide +kernel
theorem test_tgtEoi : (let s : State := ((r0.setSrc 5 { active := true, fifo := [⟨1, 5, 7, 9⟩] }).setTgt 2 { stack := [(5, 3)] }); let o : Origin := .mc2; let c : Nat := 2; let v : Word := 5#32; let t := after (.tgtEoi o c v) s;
    decide ((t.tgt 2).stack = [] ∧ (t.src 5).pend = true ∧ (t.src 5).active = false)) = true := by decide +kernel
theorem test_write : (let s : State := r0; let fr : CanFrame := (odFr 2 9 0x1083 1 0 [1#8] []); let e : ReadEvent := .clean; let t := after (.write fr e) s;
    decide (t.outbox = [s.abortAnswer ((odHdr fr.bs).req fr.bus false fr.brs) 0x02000003])) = true := by decide +kernel
theorem test_odAbort : (let s : State := (seg0 segW); let fr : CanFrame := (odFr 7 9 0x3104 1 0 [0#8, 0#8, 0#8, 0#8] []); let t := after (.odAbort fr) s;
    decide (t.seg 0 = none)) = true := by decide +kernel
theorem test_canBusoff : (let s : State := r0; let n : Nat := 1; let t := after (.canBusoff n) s;
    decide (t.get (Reg.CAN_STATUS_STATE 1) = 2 ∧ t.canUp 1 = false)) = true := by decide +kernel
theorem test_assign : (let s : State := r0; let o : Origin := .sp; let u : Nat := 3; let w : Nat := 2; let t := after (.assign o u w) s;
    decide (t.owner 3 = 2 ∧ t.ownResult u (originPath o) = 0)) = true := by decide +kernel
theorem test_pgoodStuck : (let s : State := { r0 with emb := { target := 2 } }; let t := after (.pgoodStuck) s;
    decide (t.is Reg.EMB_STATUS_PGOOD_STUCK = true ∧ t.emb.main = false ∧ t.emb.parked = true)) = true := by decide +kernel
theorem test_pwrBudgetWrite : (let s : State := (r0.put Reg.PWR_STATUS_THERMAL_LIMIT 100); let o : Origin := .sp; let v : Word := 511#32; let t := after (.pwrBudgetWrite o v) s;
    decide (t.get Reg.PWR_BUDGET_TOKENS = 288 ∧ t.is Reg.PWR_STATUS_THROTTLE = true)) = true := by decide +kernel
theorem test_thSensorRead : (let s : State := r0; let ts : List Int := (List.replicate 16 100); let t := after (.thSensorRead ts) s;
    decide (sext (t.get Reg.TH_STATUS_TJ) 16 = 100 ∧ t.fc.log = s.fc.log)) = true := by decide +kernel
theorem test_avsPeriod : (let s : State := (r0.put (Reg.PLL_STATUS_STATE 12) 6); let m : Nat := 20; let r1 : Option Nat := some 760; let r2 : Option Nat := none; let t := after (.avsPeriod m r1 r2) s;
    decide (t.get Reg.AVS_STATUS_TARGET_MV = 760)) = true := by decide +kernel
theorem test_kindlingDone : (let s : State := { r0 with kin := { phase := 3, ended := true, header := (leBytes 4 0x4B504B47 ++ leBytes 4 3 ++ leBytes 4 1 ++ leBytes 4 0 ++ leBytes 4 2 ++ leBytes 4 0 ++ leBytes 4 16 ++ leBytes 4 0x10C00000 ++ List.replicate 32 0#8) } }; let t := after (.kindlingDone) s;
    decide (t.kin.phase = 4 ∧ t.get Reg.SEC_STATUS_ROLLBACK = 3)) = true := by decide +kernel
theorem test_otpProgramDone : (let s : State := (let s := r0.put Reg.SEC_KEY_CMD_BUSY 1; { s with sec := { s.sec with job := some (.key 2 (List.replicate 16 7#8)) } }); let k : List Byte := (List.replicate 16 7#8); let t := after (.otpProgramDone true) s;
    decide (t.get (keyStateField 2) = 1 ∧ t.slotKey 2 = k)) = true := by decide +kernel
theorem test_recoverDone : (let s : State := ((r0.put Reg.SEC_RECOVER_ACTIVE 1).put Reg.SEC_RECOVER_BUSY 1); let b : Bool := true; let t := after (.recoverDone b) s;
    decide (t.get Reg.SEC_RECOVER_RESULT = 4 ∧ t.is Reg.SEC_RECOVER_BUSY = false)) = true := by decide +kernel

/-! ### Witnesses of the statements -/

theorem wit_StepRunsFrontCommand_2 : ∃ (s : State),
    (s.pending = []) :=
  ⟨r0, by decide +kernel⟩
theorem wit_ResetLeavesTheDeviceDark_1 : ∃ (p : Nat),
    (p < 12) :=
  ⟨0, by decide +kernel⟩
theorem wit_ResetLeavesTheDeviceDark_2 : ∃ (c : Nat),
    (c < 112) :=
  ⟨111, by decide +kernel⟩
theorem wit_ResetLeavesTheDeviceDark_3 : ∃ (i : Nat),
    (i < 16) :=
  ⟨15, by decide +kernel⟩
theorem wit_ResetLeavesTheDeviceDark_4 : ∃ (n : Nat),
    (n ≠ 190) :=
  ⟨191, by decide +kernel⟩
theorem wit_ResetLeavesTheDeviceDark_6 : ∃ (g : Nat),
    (1 ≤ g) ∧ (g ≤ 14) :=
  ⟨14, by decide +kernel⟩
theorem wit_FaultReportIsLatchedAndLogged_1 : ∃ (s : State),
    (s.emb.main = true) :=
  ⟨r0, by decide +kernel⟩
theorem wit_FaultReportIsLatchedAndLogged_2 : ∃ (s : State) (f : FaultId),
    (s.emb.main = true) ∧ (f.alone = true) :=
  ⟨r0, .SVC_SRAM_CORR, by decide +kernel⟩
theorem wit_FaultReportIsLatchedAndLogged_3 : ∃ (s : State),
    (s.emb.main = false) :=
  ⟨{ r0 with emb := { r0.emb with main := false } }, by decide +kernel⟩
theorem wit_FatalFaultEntersSafeState_1 : ∃ (s : State) (f : FaultId),
    (s.emb.main = true) ∧ (f.cls = .ft) :=
  ⟨r0, .SP_WDT, by decide +kernel⟩
theorem wit_FatalFaultEntersSafeState_2 : ∃ (s : State) (o : Origin) (v : Word),
    (s.safeState = true) ∧ (s.accepts o Reg.a_FC_KICK v = true) :=
  ⟨r0.put Reg.FC_STATUS_SAFE 1, .sp, 0x5AA5#32, by decide +kernel⟩
theorem wit_CorrectableFaultOnlyRecords_1 : ∃ (s : State) (f : FaultId),
    (s.emb.main = true) ∧ (f.cls = .ce) ∧ (f.alone = true) :=
  ⟨r0, .SVC_SRAM_CORR, by decide +kernel⟩
theorem wit_FirstFaultIsKept_1 : ∃ (s : State),
    (s.get Reg.FC_FIRST_VALID = 0) :=
  ⟨r0, by decide +kernel⟩
theorem wit_FirstFaultIsKept_2 : ∃ (s : State),
    (s.get Reg.FC_FIRST_VALID = 1) :=
  ⟨r0.put Reg.FC_FIRST_VALID 1, by decide +kernel⟩
theorem wit_QuietAndClearingOfFaultBits_1 : ∃ (s : State) (f : FaultId),
    (s.fc.conds.contains f.code = false) ∧ (SMap.get 0 s.fc.lastReport f.code + s.quiet ≤ s.orbit.orbits) :=
  ⟨{ r0 with orbit := { r0.orbit with orbits := 60 } }, .SVC_SRAM_CORR, by decide +kernel⟩
theorem wit_QuietAndClearingOfFaultBits_2 : ∃ (s : State) (f : FaultId),
    (s.fc.conds.contains f.code = true ∨ s.orbit.orbits < SMap.get 0 s.fc.lastReport f.code + s.quiet) :=
  ⟨r0, .SVC_SRAM_CORR, by decide +kernel⟩
theorem wit_QuietAndClearingOfFaultBits_3 : ∃ (s : State) (o : Origin) (g : Nat) (v : Word) (b : Nat),
    (1 ≤ g) ∧ (g ≤ 14) ∧ (b < 16) ∧ (s.accepts o (Reg.a_FC_STAT g) v = true) :=
  ⟨(r0.put (Reg.FC_STAT_LATCHED 2) 3).put (Reg.FC_STAT_ACTIVE 2) 2, .host, 2, 3#32, 0, by decide +kernel⟩
theorem wit_QuietAndClearingOfFaultBits_4 : ∃ (s : State) (o : Origin) (v : Word),
    (s.accepts o Reg.a_FC_FIRST v = true) ∧ (bit v.toNat 31 = true) :=
  ⟨r0.put Reg.FC_FIRST_VALID 1, .host, 0x80000000#32, by decide +kernel⟩
theorem wit_GlowFollowsTheKicks_1 : ∃ (s : State) (o : Origin) (v : Word),
    (s.accepts o Reg.a_FC_KICK v = true) ∧ (s.safeState = false) ∧ (s.pairRuns = true) ∧ (s.is Reg.FC_INJ_KICK = false) ∧ (s.fc.armed = true → s.fc.kicked = false) ∧ (bits v.toNat 15 0 = (if s.fc.expectSecond then 0xA55A else 0x5AA5)) :=
  ⟨{ r0 with fc := { r0.fc with armed := true, kicked := false, expectSecond := true } }, .sp, 0xA55A#32, by decide +kernel⟩
theorem wit_GlowFollowsTheKicks_2 : ∃ (s : State) (o : Origin) (v : Word),
    (s.accepts o Reg.a_FC_KICK v = true) ∧ (s.safeState = false) ∧ (s.pairRuns = true) ∧ (s.is Reg.FC_INJ_KICK = false) ∧ (s.fc.armed = true) ∧ (s.fc.kicked = true ∨ bits v.toNat 15 0 ≠ (if s.fc.expectSecond then 0xA55A else 0x5AA5)) :=
  ⟨{ r0 with fc := { r0.fc with armed := true, kicked := true, expectSecond := false } }, .sp, 0x5AA5#32, by decide +kernel⟩
theorem wit_GlowFollowsTheKicks_3 : ∃ (s : State),
    (s.safeState = false) ∧ (s.fc.armed = true) ∧ (s.fc.kicked = true) :=
  ⟨{ r0 with fc := { r0.fc with armed := true, kicked := true, expectSecond := false } }, by decide +kernel⟩
theorem wit_GlowFollowsTheKicks_4 : ∃ (s : State),
    (s.safeState = false) ∧ (s.fc.armed = true) ∧ (s.fc.kicked = true) :=
  ⟨{ r0 with fc := { r0.fc with armed := true, kicked := true, expectSecond := false } }, by decide +kernel⟩
theorem wit_GlowFollowsTheKicks_5 : ∃ (s : State),
    (s.safeState = false) ∧ (s.fc.armed = true) ∧ (s.fc.kicked = false) :=
  ⟨{ r0 with fc := { r0.fc with armed := true, kicked := false, expectSecond := false } }, by decide +kernel⟩
theorem wit_GlowFollowsTheKicks_6 : ∃ (s : State),
    (s.fc.armed = false ∨ s.safeState = true) :=
  ⟨r0, by decide +kernel⟩
theorem wit_ServiceCoreWatchdogRaisesScWdt_1 : ∃ (s : State) (c : Nat),
    (c = 2 ∨ c = 3) ∧ (s.get Reg.FC_WDT_SC_MS ≠ 0) ∧ (s.scHeld c = false) ∧ (s.is Reg.FC_INJ_SCWDT = false) ∧ ((if c = 2 then s.fc.kickedMc2 else s.fc.kickedMc3) = false) :=
  ⟨{ (r0.put Reg.FC_WDT_SC_MS 100) with fc := {} }, 2, by decide +kernel⟩
theorem wit_ServiceCoreWatchdogRaisesScWdt_2 : ∃ (s : State) (c : Nat),
    (c = 2 ∨ c = 3) ∧ (s.get Reg.FC_WDT_SC_MS ≠ 0) ∧ (s.scHeld c = false) ∧ (s.is Reg.FC_INJ_SCWDT = false) ∧ ((if c = 2 then s.fc.kickedMc2 else s.fc.kickedMc3) = true) :=
  ⟨{ (r0.put Reg.FC_WDT_SC_MS 100) with fc := { kickedMc3 := true } }, 3, by decide +kernel⟩
theorem wit_ServiceCoreWatchdogRaisesScWdt_3 : ∃ (s : State),
    (s.get Reg.FC_WDT_SC_MS = 0) :=
  ⟨r0.put Reg.FC_WDT_SC_MS 0, by decide +kernel⟩
theorem wit_ServiceCoreWatchdogRaisesScWdt_4 : ∃ (s : State) (v : Word),
    (s.accepts .mc2 Reg.a_FC_SCKICK v = true) ∧ (bit v.toNat 0 = true) ∧ (bit v.toNat 1 = false) :=
  ⟨r0, 1#32, by decide +kernel⟩
theorem wit_ServiceCoreWatchdogRaisesScWdt_5 : ∃ (s : State) (v : Word),
    (s.accepts .mc3 Reg.a_FC_SCKICK v = true) ∧ (bit v.toNat 0 = false) ∧ (bit v.toNat 1 = true) :=
  ⟨r0, 2#32, by decide +kernel⟩
theorem wit_ServiceCoreWatchdogRaisesScWdt_6 : ∃ (s : State) (v : Word),
    (s.accepts .mc2 Reg.a_FC_SCKICK v = true) ∧ (bit v.toNat 1 = true) :=
  ⟨r0, 3#32, by decide +kernel⟩
theorem wit_FatalFaultIsClearedByWarmKindling_1 : ∃ (s : State) (o : Origin) (v : Word),
    (s.accepts o Reg.a_FC_CLEAR v = true) ∧ (bits v.toNat 15 0 = 0x5AFE) ∧ (s.ftClearable = true) :=
  ⟨r0.put Reg.FC_STATUS_SAFE 1, .host, 0x5AFE#32, by decide +kernel⟩
theorem wit_FatalFaultIsClearedByWarmKindling_2 : ∃ (s : State) (o : Origin) (v : Word),
    (s.accepts o Reg.a_FC_CLEAR v = true) ∧ (bits v.toNat 15 0 = 0x5AFE) ∧ (s.ftClearable = false) :=
  ⟨r0, .sp, 0x5AFE#32, by decide +kernel⟩
theorem wit_FatalFaultIsClearedByWarmKindling_3 : ∃ (s : State) (o : Origin) (v : Word),
    (s.accepts o Reg.a_FC_CLEAR v = true) ∧ (bits v.toNat 15 0 ≠ 0x5AFE) :=
  ⟨r0, .sp, 0#32, by decide +kernel⟩
theorem wit_FatalFaultIsClearedByWarmKindling_4 : ∃ (s : State) (o : Origin) (v : Word),
    (s.accepts o Reg.a_FC_INJ v = true) ∧ (v = 4#32) ∧ (s.reg Reg.a_FC_INJ = 0#32) :=
  ⟨r0, .sp, 4#32, by decide +kernel⟩
theorem wit_FatalFaultIsClearedByWarmKindling_5 : ∃ (s : State) (c : Nat),
    (s.debugOpen = true) ∧ (s.emb.main = true) ∧ (c = 0 ∨ c = 2 ∨ c = 3) :=
  ⟨r0, 2, by decide +kernel⟩
theorem wit_RegisterWriteStoresItsFields_1 : ∃ (s : State) (o : Origin) (a : Nat) (v : Word) (row : RegRow) (is : List Nat) (f : FieldRow),
    (s.windowOpen o = true) ∧ (a % 4 = 0) ∧ (regAt a = some (row, is)) ∧ (row.name ∉ commandRegs) ∧ (clampWord row.name v.toNat = v.toNat) ∧ (s.shadowHeld a = false) ∧ (s.accepts o a v = true) ∧ (f ∈ row.fields) ∧ (f.acc = .rw ∨ f.acc = .rwl) :=
  ⟨r0, .sp, Reg.a_FC_WDT, 0x640A#32, (rowOf Reg.a_FC_WDT), [], (fld0 Reg.a_FC_WDT), by decide +kernel⟩
theorem wit_RegisterWriteStoresItsFields_2 : ∃ (s : State) (o : Origin) (a : Nat) (v : Word) (row : RegRow) (is : List Nat) (f : FieldRow),
    (s.windowOpen o = true) ∧ (a % 4 = 0) ∧ (regAt a = some (row, is)) ∧ (row.name ∈ [RegName.ORB_CTRL, .BANK_CFG, .BE_HOLD_START, .BE_HOLD_LEN]) ∧ (s.shadowHeld a = false) ∧ (s.accepts o a v = true) ∧ (f ∈ row.fields) ∧ (f.acc = .rw ∨ f.acc = .rwl) :=
  ⟨r0, .sp, Reg.a_ORB_CTRL, 3#32, (rowOf Reg.a_ORB_CTRL), [], (fld0 Reg.a_ORB_CTRL), by decide +kernel⟩
theorem wit_RefusedWriteChangesNoRegister_1 : ∃ (s : State) (o : Origin) (a : Nat) (row : RegRow) (is : List Nat),
    (s.windowOpen o = true) ∧ (a % 4 = 0) ∧ (regAt a = some (row, is)) ∧ (row.name ∉ commandRegs) ∧ (s.shadowHeld a = false) ∧ (s.reaches o row.name = true) ∧ (s.safeState = false) ∧ (s.writerOk o a row.name is = false) ∧ (bit (s.get Reg.FC_CFG_ESCALATE) 0 = false) :=
  ⟨r0, .host, Reg.a_FC_WDT, (rowOf Reg.a_FC_WDT), [], by decide +kernel⟩
theorem wit_RefusedWriteChangesNoRegister_2 : ∃ (s : State) (o : Origin) (a : Nat) (v : Word) (row : RegRow) (is : List Nat) (f : FieldRow),
    (s.windowOpen o = true) ∧ (a % 4 = 0) ∧ (regAt a = some (row, is)) ∧ (row.name ∉ commandRegs) ∧ (clampWord row.name v.toNat = v.toNat) ∧ (s.shadowHeld a = false) ∧ (s.reaches o row.name = true) ∧ (s.safeState = false) ∧ (s.writerOk o a row.name is = true) ∧ (s.is Reg.GLB_LOCK_CFG = true) ∧ (f ∈ row.fields) ∧ (f.acc = .rwl) ∧ (bits v.toNat f.hi f.lo ≠ s.get ⟨a, f.hi, f.lo⟩) ∧ (bit (s.get Reg.FC_CFG_ESCALATE) 0 = false) :=
  ⟨r0.put Reg.GLB_LOCK_CFG 1, .sp, Reg.a_FC_WDT, 0x6403#32, (rowOf Reg.a_FC_WDT), [], (fld0 Reg.a_FC_WDT), by decide +kernel⟩
theorem wit_RefusedWriteChangesNoRegister_3 : ∃ (s : State) (o : Origin) (a : Nat) (row : RegRow) (is : List Nat),
    (s.safeState = true) ∧ (isHostPath o = true) ∧ (a % 4 = 0) ∧ (regAt a = some (row, is)) ∧ (row.name ∉ commandRegs) ∧ (s.shadowHeld a = false) :=
  ⟨r0.put Reg.FC_STATUS_SAFE 1, .host, Reg.a_FC_WDT, (rowOf Reg.a_FC_WDT), [], by decide +kernel⟩
theorem wit_SramWriteStoresFourBytes_1 : ∃ (s : State) (o : Origin) (r : MemRegion) (a : Nat),
    (s.windowOpen o = true) ∧ (a % 4 = 0) ∧ (memRegion a = some r) ∧ (s.memWritable o r = true) ∧ (s.safeState = false) :=
  ⟨r0, .sp, .pairSram, 0x10000004, by decide +kernel⟩
theorem wit_SramWriteStoresFourBytes_2 : ∃ (s : State) (o : Origin) (r : MemRegion) (a : Nat),
    (s.windowOpen o = true) ∧ (a % 4 = 0) ∧ (memRegion a = some r) ∧ (s.memWritable o r = false) ∧ (s.safeState = false) ∧ (bit (s.get Reg.FC_CFG_ESCALATE) 0 = false) :=
  ⟨r0, .host, .pairSram, 0x10000004, by decide +kernel⟩
theorem wit_SramWriteStoresFourBytes_3 : ∃ (s : State) (o : Origin),
    (s.accepts o Reg.a_GLB_LOCK 1#32 = true) :=
  ⟨r0, .sp, by decide +kernel⟩
theorem wit_LoReadLatchesItsHiPartner_1 : ∃ (s : State) (o : Origin) (a : Nat) (row : RegRow) (is : List Nat),
    (s.emb.main = true) ∧ (a % 4 = 0) ∧ (regAt a = some (row, is)) ∧ (s.reaches o row.name = true) :=
  ⟨r0, .host, Reg.a_FC_WDT, (rowOf Reg.a_FC_WDT), [], by decide +kernel⟩
theorem wit_LoReadLatchesItsHiPartner_2 : ∃ (s : State) (o : Origin) (a : Nat) (row : RegRow) (is : List Nat),
    (s.emb.main = true) ∧ (a % 4 = 0) ∧ (regAt a = some (row, is)) ∧ (s.reaches o row.name = true) ∧ (row.name ∉ [RegName.REC_D2, .REC_STAT, .TGT_CLAIM, .CL_LUT_DATA]) :=
  ⟨r0, .host, Reg.a_FC_WDT, (rowOf Reg.a_FC_WDT), [], by decide +kernel⟩
theorem wit_LoReadLatchesItsHiPartner_3 : ∃ (s : State) (o : Origin) (row : RegRow),
    (s.emb.main = true) ∧ (o ≠ .debug) ∧ ((regAt Reg.a_STAMP_HI).map Prod.fst = some row) :=
  ⟨{ r0 with orbit := { r0.orbit with stamp := 0x700000005 } }, .host, (rowOf Reg.a_STAMP_HI), by decide +kernel⟩
theorem wit_LoReadLatchesItsHiPartner_4 : ∃ (s : State) (o : Origin) (a : Nat) (row : RegRow) (is : List Nat),
    (s.emb.main = true) ∧ (a % 4 = 0) ∧ (regAt a = some (row, is)) ∧ (s.reaches o row.name = false) :=
  ⟨r0.put Reg.SEC_STATUS_LC 2, .debug, Reg.a_FC_WDT, (rowOf Reg.a_FC_WDT), [], by decide +kernel⟩
theorem wit_CommitIsCapturedAndJudged_1 : ∃ (s : State) (o : Origin) (n : Nat) (v : Word),
    (n < 3) ∧ (s.accepts o (Reg.a_CP_CTRL n) v = true) ∧ (bit v.toNat 0 = true) ∧ (s.is (Reg.CP_RESULT_BUSY n) = false) :=
  ⟨r0, .host, 0, 5#32, by decide +kernel⟩
theorem wit_CommitIsCapturedAndJudged_2 : ∃ (s : State) (o : Origin) (n : Nat) (v : Word),
    (n < 3) ∧ (s.accepts o (Reg.a_CP_CTRL n) v = true) ∧ (bit v.toNat 0 = true) ∧ (s.is (Reg.CP_RESULT_BUSY n) = true) :=
  ⟨r0.put (Reg.CP_RESULT_BUSY 2) 1, .sp, 2, 1#32, by decide +kernel⟩
theorem wit_CommitIsCapturedAndJudged_3 : ∃ (s : State) (n : Nat) (g : GoCap),
    (n < 3) ∧ (s.orbit.go.find? (fun e => e.1 == n) = some (n, g)) ∧ (s.is Reg.FC_INJ_ADM = false) :=
  ⟨{ r0 with orbit := { r0.orbit with go := [(0, { pipes := 1, target := 0, tag := 7, allOrHold := false, lateOk := true, testOnly := false })] } }, 0, { pipes := 1, target := 0, tag := 7, allOrHold := false, lateOk := true, testOnly := false }, by decide +kernel⟩
theorem wit_CommitIsCapturedAndJudged_4 : ∃ (s : State) (n : Nat) (g : GoCap),
    (n < 3) ∧ (s.orbit.go.find? (fun e => e.1 == n) = some (n, g)) ∧ (s.is Reg.FC_INJ_ADM = false) ∧ (s.safeState = true) ∧ (n < 2) :=
  ⟨({ r0 with orbit := { r0.orbit with go := [(0, { pipes := 1, target := 0, tag := 7, allOrHold := false, lateOk := true, testOnly := false })] } }).put Reg.FC_STATUS_SAFE 1, 0, { pipes := 1, target := 0, tag := 7, allOrHold := false, lateOk := true, testOnly := false }, by decide +kernel⟩
theorem wit_CommitIsCapturedAndJudged_5 : ∃ (s : State) (n : Nat) (g : GoCap),
    (n < 3) ∧ (s.orbit.go.find? (fun e => e.1 == n) = some (n, g)) ∧ (s.is Reg.FC_INJ_ADM = false) ∧ (s.safeState = false ∨ n = 2) ∧ (maskBits 12 g.pipes = []) :=
  ⟨{ r0 with orbit := { r0.orbit with go := [(2, { pipes := 0, target := 0, tag := 7, allOrHold := false, lateOk := true, testOnly := false })] } }, 2, { pipes := 0, target := 0, tag := 7, allOrHold := false, lateOk := true, testOnly := false }, by decide +kernel⟩
theorem wit_CommitIsCapturedAndJudged_6 : ∃ (s : State) (n : Nat) (g : GoCap),
    (n < 3) ∧ (s.orbit.go.find? (fun e => e.1 == n) = some (n, g)) ∧ (s.is Reg.FC_INJ_ADM = false) ∧ (g.testOnly = true) :=
  ⟨{ r0 with orbit := { r0.orbit with go := [(0, { pipes := 1, target := 0, tag := 7, allOrHold := false, lateOk := true, testOnly := true })] } }, 0, { pipes := 1, target := 0, tag := 7, allOrHold := false, lateOk := true, testOnly := true }, by decide +kernel⟩
theorem wit_CommitIsCapturedAndJudged_7 : ∃ (s : State) (n : Nat) (g : GoCap) (p : Nat),
    (n < 3) ∧ (s.orbit.go.find? (fun e => e.1 == n) = some (n, g)) ∧ (s.is Reg.FC_INJ_ADM = false) ∧ (g.testOnly = false) ∧ ((s.judgeGo n g (s.memberImgs g)).code = 0) ∧ (p < 12) ∧ (bit g.pipes p = true) ∧ ((s.idleStopped p && imgGet (shadowImg s.regs p) (Reg.TG_CTRL_RUN p) == 0) = false) :=
  ⟨{ (run0.put (Reg.OWN_OWNER 0) 3) with orbit := { run0.orbit with go := [(2, { pipes := 1, target := 0, tag := 7, allOrHold := false, lateOk := true, testOnly := false })] } }, 2, { pipes := 1, target := 0, tag := 7, allOrHold := false, lateOk := true, testOnly := false }, 0, by decide +kernel⟩
theorem wit_CommitIsCapturedAndJudged_8 : ∃ (s : State) (n : Nat) (g : GoCap) (p : Nat),
    (n < 3) ∧ (s.orbit.go.find? (fun e => e.1 == n) = some (n, g)) ∧ (s.is Reg.FC_INJ_ADM = false) ∧ (g.testOnly = false) ∧ ((s.judgeGo n g (s.memberImgs g)).code = 0) ∧ (p < 12) ∧ (bit g.pipes p = true) ∧ (s.idleStopped p = true) ∧ (imgGet (shadowImg s.regs p) (Reg.TG_CTRL_RUN p) = 0) :=
  ⟨{ (r0.put (Reg.OWN_OWNER 0) 3) with orbit := { r0.orbit with go := [(2, { pipes := 1, target := 0, tag := 7, allOrHold := false, lateOk := true, testOnly := false })] } }, 2, { pipes := 1, target := 0, tag := 7, allOrHold := false, lateOk := true, testOnly := false }, 0, by decide +kernel⟩
theorem wit_ShedStepsAreUndoneOneAtATime_1 : ∃ (s : State) (r : ShedRec) (rest : List ShedRec),
    (s.is Reg.SHED_CTRL_AUTO_RESTORE = true) ∧ (s.orbit.restored = false) ∧ (s.regained = true) ∧ (s.get Reg.SHED_CTRL_RESTORE_DELAY ≤ s.orbit.stable) ∧ ((s.pruneSheds (occs (s.world []))).orbit.shedOrder = r :: rest) ∧ (((s.pruneSheds (occs (s.world []))).figures (SMap.set 0 (s.pruneSheds (occs (s.world []))).orbit.sheds r.layer (r.step - 1)) (s.world [])).fits = true) :=
  ⟨shed1, ⟨5, 1, 8, 16, 224⟩, [], by decide +kernel⟩
theorem wit_ShedStepsAreUndoneOneAtATime_2 : ∃ (s : State),
    (s.is Reg.SHED_CTRL_AUTO_RESTORE = false) :=
  ⟨r0.put Reg.SHED_CTRL_AUTO_RESTORE 0, by decide +kernel⟩
theorem wit_ShedStepsAreUndoneOneAtATime_3 : ∃ (s : State) (o : Origin) (v : Word),
    (s.accepts o Reg.a_SHED_CTRL v = true) :=
  ⟨r0, .sp, 0x10201#32, by decide +kernel⟩
theorem wit_ShedStepsAreUndoneOneAtATime_4 : ∃ (s : State),
    (s.masterRuns = false) :=
  ⟨r0, by decide +kernel⟩
theorem wit_ShedStepsAreUndoneOneAtATime_5 : ∃ (s : State),
    (s.masterRuns = false) ∧ (s.is Reg.PWR_INJ_ARB = false) ∧ (s.get Reg.PWR_STATUS_IN_FORCE = min (s.get Reg.PWR_BUDGET_TOKENS) s.nextTl) :=
  ⟨r0, by decide +kernel⟩
theorem wit_ShedStepsAreUndoneOneAtATime_6 : ∃ (s : State),
    (s.masterRuns = true) :=
  ⟨run0, by decide +kernel⟩
theorem wit_FsyncEdgesDriveTheMaster_1 : ∃ (s : State) (dt : Nat),
    (s.masterSrc = 15) ∧ (s.is Reg.FSYNC_STATUS_PRESENT = true) ∧ (s.fsyncInWindow dt = true) :=
  ⟨(r0.put Reg.ORB_CTRL_MASTER_SRC 15).put Reg.FSYNC_STATUS_PRESENT 1, 416667, by decide +kernel⟩
theorem wit_FsyncEdgesDriveTheMaster_2 : ∃ (s : State) (dt : Nat),
    (s.masterSrc = 15) ∧ (s.is Reg.FSYNC_STATUS_PRESENT = true) ∧ (s.fsyncInWindow dt = false) :=
  ⟨(r0.put Reg.ORB_CTRL_MASTER_SRC 15).put Reg.FSYNC_STATUS_PRESENT 1, 500000, by decide +kernel⟩
theorem wit_FsyncEdgesDriveTheMaster_3 : ∃ (s : State) (dt : Nat),
    (s.masterSrc = 15) ∧ (s.is Reg.FSYNC_STATUS_PRESENT = false) ∧ (s.fsyncInWindow dt = false ∨ s.orbit.fsReturn + 1 < max 1 (s.get Reg.FSYNC_CFG_RETURN)) :=
  ⟨r0.put Reg.ORB_CTRL_MASTER_SRC 15, 500000, by decide +kernel⟩
theorem wit_FsyncEdgesDriveTheMaster_4 : ∃ (s : State) (dt : Nat),
    (s.masterSrc = 15) ∧ (s.is Reg.FSYNC_STATUS_PRESENT = false) ∧ (s.fsyncInWindow dt = true) ∧ (s.get Reg.FSYNC_CFG_RETURN ≤ s.orbit.fsReturn + 1) :=
  ⟨{ (r0.put Reg.ORB_CTRL_MASTER_SRC 15) with orbit := { r0.orbit with fsReturn := 20 } }, 416667, by decide +kernel⟩
theorem wit_FsyncEdgesDriveTheMaster_5 : ∃ (s : State),
    (s.masterSrc ≠ 15) :=
  ⟨r0, by decide +kernel⟩
theorem wit_FsyncEdgesDriveTheMaster_6 : ∃ (s : State),
    (s.masterSrc = 15) ∧ (s.is Reg.FSYNC_STATUS_PRESENT = true) :=
  ⟨(r0.put Reg.ORB_CTRL_MASTER_SRC 15).put Reg.FSYNC_STATUS_PRESENT 1, by decide +kernel⟩
theorem wit_FsyncEdgesDriveTheMaster_7 : ∃ (s : State),
    (s.masterSrc ≠ 15 ∨ s.is Reg.FSYNC_STATUS_PRESENT = false) :=
  ⟨r0, by decide +kernel⟩
theorem wit_FsyncEdgesDriveTheMaster_8 : ∃ (s : State),
    (s.masterSrc = 15) ∧ (s.is Reg.FSYNC_STATUS_COASTING = true) :=
  ⟨(r0.put Reg.ORB_CTRL_MASTER_SRC 15).put Reg.FSYNC_STATUS_COASTING 1, by decide +kernel⟩
theorem wit_FrameBoundaryStartsTheNextFrame_1 : ∃ (s : State) (p : Nat),
    (p < 12) ∧ (s.mode p = .running ∨ s.mode p = .bankEntry ∨ s.mode p = .banked ∨ s.mode p = .bankExit) ∧ (s.frameOver p = true) ∧ ((s.pipe p).next = none) :=
  ⟨(run0.put Reg.ORB_CTRL_MASTER_SRC 3).modPipe 0 fun x => { x with nextLine := 40 }, 0, by decide +kernel⟩
theorem wit_FrameBoundaryStartsTheNextFrame_2 : ∃ (s : State) (p : Nat) (n : NextState),
    (p < 12) ∧ (s.mode p = .running) ∧ (s.frameOver p = true) ∧ ((s.pipe p).next = some n) ∧ (imgGet n.img (Reg.TG_CTRL_RUN p) = 1) ∧ (clockChanges (s.pipe p).shown n.img p (s.pipe p).fNum (s.pipe p).fDen n.fNum n.fDen = false) :=
  ⟨run0.modPipe 0 fun x => { x with nextLine := 40, next := some { x.keepNext with tag := some 3 } }, 0, { (run0.pipe 0).keepNext with tag := some 3 }, by decide +kernel⟩
theorem wit_FrameBoundaryStartsTheNextFrame_3 : ∃ (s : State) (p : Nat),
    (p < 12) ∧ (s.counting p = true) ∧ (s.frameOver p = false) :=
  ⟨run0, 0, by decide +kernel⟩
theorem wit_FrameBoundaryStartsTheNextFrame_4 : ∃ (s : State) (p : Nat),
    (p < 12) ∧ (s.mode p = .stopped) :=
  ⟨r0, 0, by decide +kernel⟩
theorem wit_CommitLineFixesTheNextFrame_1 : ∃ (s : State) (p : Nat),
    (p < 12) ∧ (s.counting p = true) ∧ ((s.pipe p).commitDone = false) ∧ (s.atEndOf p (s.commitLineNow p) = true) :=
  ⟨due0.modPipe 0 fun x => { x with nextLine := 2 }, 0, by decide +kernel⟩
theorem wit_CommitLineFixesTheNextFrame_2 : ∃ (s : State) (p : Nat) (c : Pend),
    (p < 12) ∧ (s.mode p = .running) ∧ ((s.pipe p).commitDone = false) ∧ (s.atEndOf p (s.commitLineNow p) = true) ∧ ((s.pipe p).next = none) ∧ (s.bc.applyPipes.contains p = false) ∧ (s.dueCommits p = [c]) ∧ (c.allOrHold = false) ∧ (s.unready p c.img = []) ∧ (imgGet c.img (Reg.TG_CTRL_RUN p) = 1) ∧ (c.released = 0) :=
  ⟨due0.modPipe 0 fun x => { x with nextLine := 2 }, 0, pend0, by decide +kernel⟩
theorem wit_CommitLineFixesTheNextFrame_3 : ∃ (s : State) (p : Nat),
    (p < 12) ∧ ((s.pipe p).commitDone = true ∨ s.atEndOf p (s.commitLineNow p) = false) :=
  ⟨run0.modPipe 0 fun x => { x with commitDone := true }, 0, by decide +kernel⟩
theorem wit_CommitLineFixesTheNextFrame_4 : ∃ (s : State) (p : Nat) (k : Nat) (w : List (Nat × Word)),
    (p < 12) ∧ (k < 8) ∧ (s.counting p = true) ∧ ((s.pipe p).keepNext.held.find? (fun e => e.1 == k) = some (k, w)) ∧ (((s.pipe p).slot k).held = true) ∧ ((s.pipe p).keepNext.stale.contains k = false) ∧ ((declOf (withSlot (s.pipe p).shown p k w) p k).staleLimit ≠ 0) ∧ ((declOf (withSlot (s.pipe p).shown p k w) p k).staleLimit ≤ ((s.pipe p).slot k).heldFrames) :=
  ⟨stale0, 0, 0, staleW, by decide +kernel⟩
theorem wit_CommitLineFixesTheNextFrame_5 : ∃ (s : State) (p : Nat),
    (p < 12) ∧ (s.counting p = true) ∧ ((s.pipe p).beaconDone = false) ∧ (s.atEndOf p (s.beaconLineNow p) = true) :=
  ⟨run0.modPipe 0 fun x => { x with nextLine := 9 }, 0, by decide +kernel⟩
theorem wit_CommitLineFixesTheNextFrame_6 : ∃ (s : State) (p : Nat),
    (p < 12) ∧ ((s.pipe p).beaconDone = true ∨ s.atEndOf p (s.beaconLineNow p) = false) :=
  ⟨run0.modPipe 0 fun x => { x with beaconDone := true }, 0, by decide +kernel⟩
theorem wit_CommitLineFixesTheNextFrame_7 : ∃ (s : State) (p : Nat),
    (p < 12) ∧ (s.counting p = true) ∧ ((s.pipe p).nextLine + 16 = s.frameLines p) :=
  ⟨run0.modPipe 0 fun x => { x with nextLine := 24 }, 0, by decide +kernel⟩
theorem wit_CommitLineFixesTheNextFrame_8 : ∃ (s : State) (p : Nat),
    (p < 12) ∧ (s.counting p = true) ∧ (s.mode p ≠ .bankExit) ∧ ((s.pipe p).nextLine + 16 = s.frameLines p) :=
  ⟨run0.modPipe 0 fun x => { x with nextLine := 24 }, 0, by decide +kernel⟩
theorem wit_LinesAreEmittedInOrder_1 : ∃ (s : State) (p : Nat),
    (p < 12) ∧ (s.counting p = true) ∧ ((s.pipe p).nextLine < s.frameLines p) :=
  ⟨run0.modPipe 0 fun x => { x with nextLine := 20 }, 0, by decide +kernel⟩
theorem wit_LinesAreEmittedInOrder_2 : ∃ (s : State) (p : Nat),
    (p < 12) ∧ (s.counting p = true) ∧ ((timingOf (s.pipe p).shown p).vAct ≤ (s.pipe p).nextLine) ∧ ((s.pipe p).nextLine < s.frameLines p) :=
  ⟨run0.modPipe 0 fun x => { x with nextLine := 20 }, 0, by decide +kernel⟩
theorem wit_LinesAreEmittedInOrder_3 : ∃ (s : State) (p : Nat),
    (p < 12) ∧ (s.counting p = true) ∧ (s.mode p ≠ .banked) ∧ (s.mode p ≠ .bankExit) ∧ ((s.pipe p).nextLine < (timingOf (s.pipe p).shown p).vAct) ∧ ((s.pipe p).nextLine < s.frameLines p) ∧ ((s.pipe p).nextLine < 2 ^ 13) :=
  ⟨run0.modPipe 0 fun x => { x with nextLine := 3 }, 0, by decide +kernel⟩
theorem wit_LinesAreEmittedInOrder_4 : ∃ (s : State) (p : Nat),
    (p < 12) ∧ (s.frameLines p ≤ (s.pipe p).nextLine) :=
  ⟨run0.modPipe 0 fun x => { x with nextLine := 8191 }, 0, by decide +kernel⟩
theorem wit_LinesAreEmittedInOrder_5 : ∃ (s : State) (p : Nat) (i : Nat) (c : CapFrame),
    (p < 12) ∧ (i ∈ s.sessionsOn p) ∧ ((s.eses i).cap = some c) ∧ (c.slot = none ∨ c.h ≤ c.lines) :=
  ⟨capt0, 0, 1, cap0, by decide +kernel⟩
theorem wit_LinesAreEmittedInOrder_6 : ∃ (s : State) (p : Nat) (i : Nat) (c : CapFrame),
    (p < 12) ∧ (i ∈ s.sessionsOn p) ∧ ((s.eses i).cap = some c) ∧ (c.slot = none ∨ c.h ≤ c.lines) ∧ (∀ j ∈ s.sessionsOn p, ((s.eses j).cap.all fun d => d.half.isEmpty) = true) :=
  ⟨capt0, 0, 1, cap0, by decide +kernel⟩
theorem wit_StartAndStopFollowTheSequence_1 : ∃ (s : State) (p : Nat),
    (p < 12) ∧ (s.mode p = .starting) ∧ ((s.pipe p).seqStep = 1) :=
  ⟨(r0.setMode 0 .starting).modPipe 0 fun x => { x with seqStep := 1 }, 0, by decide +kernel⟩
theorem wit_StartAndStopFollowTheSequence_2 : ∃ (s : State) (p : Nat),
    (p < 12) ∧ (s.mode p ≠ .starting ∨ (s.pipe p).seqStep ≠ 1) :=
  ⟨r0, 0, by decide +kernel⟩
theorem wit_StartAndStopFollowTheSequence_3 : ∃ (s : State) (p : Nat),
    (p < 12) ∧ ((s.pipe p).seqStep = 2) ∧ (s.mode p = .starting ∧ (s.pipe p).pllOk = true ∧ (s.pipe p).trainOk = true ∨ s.mode p = .relock ∧ (s.pipe p).pllOk = true) :=
  ⟨(r0.setMode 0 .relock).modPipe 0 fun x => { x with seqStep := 2, pllOk := true }, 0, by decide +kernel⟩
theorem wit_StartAndStopFollowTheSequence_4 : ∃ (s : State) (p : Nat),
    (p < 12) ∧ ((s.pipe p).seqStep ≠ 2) :=
  ⟨r0, 0, by decide +kernel⟩
theorem wit_StartAndStopFollowTheSequence_5 : ∃ (s : State) (p : Nat),
    (p < 12) ∧ ((s.pipe p).blOnIn = some 0) ∧ (s.safeState = false ∨ s.is (Reg.PNL_CFG_SAFE_BL p) = false) :=
  ⟨run0.modPipe 0 fun x => { x with blOnIn := some 0 }, 0, by decide +kernel⟩
theorem wit_StartAndStopFollowTheSequence_6 : ∃ (s : State) (p : Nat),
    (p < 12) ∧ ((s.pipe p).blOnIn ≠ some 0) :=
  ⟨r0, 0, by decide +kernel⟩
theorem wit_StartAndStopFollowTheSequence_7 : ∃ (s : State) (p : Nat),
    (p < 12) ∧ (s.mode p = .stopping) ∧ ((s.pipe p).seqStep = 1) :=
  ⟨(r0.setMode 0 .stopping).modPipe 0 fun x => { x with seqStep := 1 }, 0, by decide +kernel⟩
theorem wit_StartAndStopFollowTheSequence_8 : ∃ (s : State) (p : Nat),
    (p < 12) ∧ (s.mode p = .stopping) ∧ ((s.pipe p).seqStep = 2) ∧ ((s.pll p).failed = true) ∧ (s.get (Reg.PNL_CFG_PWR_MODE p) = 0) :=
  ⟨((r0.setMode 0 .stopping).modPipe 0 fun x => { x with seqStep := 2 }).setPll 0 { failed := true }, 0, by decide +kernel⟩
theorem wit_StartAndStopFollowTheSequence_9 : ∃ (s : State) (p : Nat) (c : Pend),
    (p < 12) ∧ (s.mode p = .stopping) ∧ ((s.pipe p).seqStep = 2) ∧ ((s.pll p).failed = false) ∧ ((s.pipe p).pend = [c]) ∧ (imgGet c.img (Reg.TG_CTRL_RUN p) = 0) :=
  ⟨(run0.setMode 0 .stopping).modPipe 0 fun x => { x with seqStep := 2, pend := [{ pend0 with img := [] }] }, 0, { pend0 with img := [] }, by decide +kernel⟩
theorem wit_StartAndStopFollowTheSequence_10 : ∃ (s : State) (p : Nat),
    (p < 12) ∧ (s.mode p ≠ .stopping ∨ (s.pipe p).seqStep ≠ 2) :=
  ⟨r0, 0, by decide +kernel⟩
theorem wit_StartAndStopFollowTheSequence_11 : ∃ (s : State) (p : Nat),
    (p < 12) ∧ (s.mode p ≠ .stopping ∨ (s.pipe p).seqStep ≠ 1) :=
  ⟨r0, 0, by decide +kernel⟩
theorem wit_StartAndStopFollowTheSequence_12 : ∃ (s : State) (p : Nat),
    (p < 12) ∧ ((s.pipe p).pwmOn = true) :=
  ⟨run0.modPipe 0 fun x => { x with pwmOn := true }, 0, by decide +kernel⟩
theorem wit_StartAndStopFollowTheSequence_13 : ∃ (s : State) (o : Origin) (p : Nat) (v : Word),
    (p < 12) ∧ (s.accepts o (Reg.a_PNL_OUT p) v = true) ∧ (s.get (Reg.PNL_CFG_PWR_MODE p) = 1) ∧ (s.get (Reg.PNL_CFG_BL_MODE p) = 0) ∧ (o = .sp ∨ s.pnlGuard p v.toNat = false) :=
  ⟨(r0.put (Reg.PNL_CFG_PWR_MODE 0) 1).put (Reg.OWN_OWNER 0) 3, .sp, 0, 1#32, by decide +kernel⟩
theorem wit_StartAndStopFollowTheSequence_14 : ∃ (s : State) (o : Origin) (p : Nat) (v : Word),
    (p < 12) ∧ (s.accepts o (Reg.a_PNL_OUT p) v = true) ∧ (o ≠ .sp) ∧ (s.pnlGuard p v.toNat = true) ∧ (bit (s.get Reg.FC_CFG_ESCALATE) 0 = false) :=
  ⟨pnl0, .host, 0, 0#32, by decide +kernel⟩
theorem wit_HearthWindowReachesFreeCells_1 : ∃ (s : State) (o : Origin) (a : Nat) (bs : List Byte),
    (s.windowOpen o = true) ∧ (a + bs.length ≤ 2 ^ 28) ∧ (bs ≠ []) ∧ (s.safeState = false ∨ isHostPath o = false) ∧ (s.hmHeld = false) ∧ ((cellSplits a bs.length).all (fun r => !s.windowDrops (r.1 / 65536)) = true) ∧ (((cellSplits a bs.length).flatMap fun r => partialAt r.1 r.2).all (fun w => !s.forcedDouble w) = true) :=
  ⟨(r0.put Reg.HM_STATUS_READY 1), .host, 100, [1#8, 2#8, 3#8], by decide +kernel⟩
theorem wit_HearthWindowReachesFreeCells_2 : ∃ (s : State) (o : Origin) (a : Nat) (bs : List Byte),
    (s.windowOpen o = true) ∧ (a + bs.length ≤ 2 ^ 28) ∧ (bs ≠ []) ∧ (s.safeState = false ∨ isHostPath o = false) ∧ (s.hmHeld = false) :=
  ⟨(r0.put Reg.HM_STATUS_READY 1), .host, 4095 * 65536, [1#8, 2#8, 3#8], by decide +kernel⟩
theorem wit_HearthWindowReachesFreeCells_3 : ∃ (s : State) (o : Origin) (a : Nat) (bs : List Byte),
    (s.windowOpen o = true) ∧ (a + bs.length ≤ 2 ^ 28) ∧ (bs ≠ []) ∧ (s.safeState = false ∨ isHostPath o = false) ∧ (s.hmHeld = true) :=
  ⟨r0, .host, 0, [1#8], by decide +kernel⟩
theorem wit_HearthWindowReachesFreeCells_4 : ∃ (s : State) (o : Origin) (a : Nat) (n : Nat),
    (s.windowOpen o = true) ∧ (a + n ≤ 2 ^ 28) ∧ (n ≠ 0) ∧ (s.hmHeld = false) ∧ ((wordsOf a n).all (fun w => !s.forcedDouble w) = true) :=
  ⟨(r0.put Reg.HM_STATUS_READY 1), .sp, 0, 8, by decide +kernel⟩
theorem wit_HearthWindowReachesFreeCells_5 : ∃ (s : State) (o : Origin) (a : Nat) (n : Nat),
    (s.windowOpen o = true) ∧ (a + n ≤ 2 ^ 28) ∧ (n ≠ 0) ∧ (s.hmHeld = false) ∧ ((cellSplits a n).any (fun r => s.unreadable (chanOfAddr r.1)) = true) :=
  ⟨((r0.put Reg.HM_STATUS_READY 1).put Reg.HM_STATUS_FENCED 1).put Reg.HM_STATUS_UNREADABLE 1, .sp, 65532, 8, by decide +kernel⟩
theorem wit_HearthWindowReachesFreeCells_6 : ∃ (s : State) (o : Origin) (a : Nat) (n : Nat),
    (s.windowOpen o = true) ∧ (a + n ≤ 2 ^ 28) ∧ (n ≠ 0) ∧ (s.hmHeld = true) :=
  ⟨r0, .host, 0, 4, by decide +kernel⟩
theorem wit_HearthWindowReachesFreeCells_7 : ∃ (s : State) (o : Origin),
    (s.windowOpen o = false) :=
  ⟨{ r0 with emb := { r0.emb with main := false } }, .sp, by decide +kernel⟩
theorem wit_WritesByHandleStayInTheirBuffer_1 : ∃ (s : State) (i : Nat) (w : HmWrite) (a : Nat),
    (s.hm.writes[i]? = some w) ∧ ((s.handle w.handle).st = .filling) ∧ (w.writer < 160 ∨ s.pinned w.handle = false) ∧ (w.stale = false) ∧ (w.off % 32 = 0) ∧ (w.bytes.length % 32 = 0) ∧ (w.bytes ≠ []) ∧ (w.off % 65536 + w.bytes.length ≤ 65536) ∧ ((s.handle w.handle).addr w.plane w.off = some a) ∧ (s.unreadable (chanOfAddr a) = false) :=
  ⟨{ ((r0.put Reg.HM_STATUS_READY 1).setHandle 3 { alloc := true, owner := 1, sizes := [65536], cells := [[8]], st := .filling }) with hm := { ((r0.put Reg.HM_STATUS_READY 1).setHandle 3 { alloc := true, owner := 1, sizes := [65536], cells := [[8]], st := .filling }).hm with writes := [⟨5, 3, 0, 64, List.replicate 32 7#8, false⟩] } }, 0, ⟨5, 3, 0, 64, List.replicate 32 7#8, false⟩, 8 * 65536 + 64, by decide +kernel⟩
theorem wit_WritesByHandleStayInTheirBuffer_2 : ∃ (s : State) (i : Nat) (w : HmWrite),
    (s.hm.writes[i]? = some w) :=
  ⟨{ ((r0.put Reg.HM_STATUS_READY 1).setHandle 3 { alloc := true, owner := 1, sizes := [65536], cells := [[8]], st := .filling }) with hm := { ((r0.put Reg.HM_STATUS_READY 1).setHandle 3 { alloc := true, owner := 1, sizes := [65536], cells := [[8]], st := .filling }).hm with writes := [⟨5, 3, 0, 64, List.replicate 32 7#8, false⟩] } }, 0, ⟨5, 3, 0, 64, List.replicate 32 7#8, false⟩, by decide +kernel⟩
theorem wit_WritesByHandleStayInTheirBuffer_3 : ∃ (s : State) (i : Nat) (w : HmWrite),
    (s.hm.writes[i]? = some w) ∧ (s.pinned w.handle = true) ∧ ((s.handle w.handle).st ≠ .filling) ∧ (w.writer < 144) :=
  ⟨{ ((r0.put Reg.HM_STATUS_READY 1).setHandle 3 { alloc := true, owner := 1, sizes := [65536], cells := [[8]], st := .shown }) with hm := { ((r0.put Reg.HM_STATUS_READY 1).setHandle 3 { alloc := true, owner := 1, sizes := [65536], cells := [[8]], st := .shown }).hm with writes := [⟨5, 3, 0, 64, List.replicate 32 7#8, false⟩] } }, 0, ⟨5, 3, 0, 64, List.replicate 32 7#8, false⟩, by decide +kernel⟩
theorem wit_WritesByHandleStayInTheirBuffer_4 : ∃ (s : State) (i : Nat) (w : HmWrite) (p : Nat) (par : Nat),
    (s.hm.writes[i]? = some w) ∧ (p < 12) ∧ (par < 2) ∧ (w.writer = wbWriter p par) ∧ (s.pinned w.handle = true) :=
  ⟨{ ((r0.put Reg.HM_STATUS_READY 1).setHandle 3 { alloc := true, owner := 1, sizes := [65536], cells := [[8]], st := .shown }) with hm := { ((r0.put Reg.HM_STATUS_READY 1).setHandle 3 { alloc := true, owner := 1, sizes := [65536], cells := [[8]], st := .shown }).hm with writes := [⟨wbWriter 2 0, 3, 0, 64, List.replicate 32 7#8, false⟩] } }, 0, ⟨wbWriter 2 0, 3, 0, 64, List.replicate 32 7#8, false⟩, 2, 0, by decide +kernel⟩
theorem wit_HandleCommandsFollowTable_1 : ∃ (s : State) (o : Origin) (n : Nat) (cells : List (List Nat)),
    (n < 3) ∧ (s.accepts o (Reg.a_HP_CMD n) 1#32 = true) ∧ (s.is (Reg.HP_RESULT_BUSY n) = false) ∧ (s.hmHeld = false) ∧ ((s.handle (s.get (Reg.HP_SEL_HANDLE n))).alloc = false) ∧ (s.get (Reg.HP_SIZE0_BYTES n) ≠ 0) ∧ ((allocSizes (s.get (Reg.HP_SIZE0_BYTES n)) (s.get (Reg.HP_SIZE1_BYTES n)) (s.get (Reg.HP_SIZE2_BYTES n))).all (fun z => z ≤ 64 * 1024 * 1024) = true) ∧ (s.heldCells.length + sumNat ((allocSizes (s.get (Reg.HP_SIZE0_BYTES n)) (s.get (Reg.HP_SIZE1_BYTES n)) (s.get (Reg.HP_SIZE2_BYTES n))).map fun z => cdiv z 65536) ≤ s.freeLimit) ∧ (s.placePlanes s.heldCells (allocSizes (s.get (Reg.HP_SIZE0_BYTES n)) (s.get (Reg.HP_SIZE1_BYTES n)) (s.get (Reg.HP_SIZE2_BYTES n))) = some cells) :=
  ⟨(r0.put Reg.HM_STATUS_READY 1).put (Reg.HP_SIZE0_BYTES 0) 100000, .host, 0, [[0, 1]], by decide +kernel⟩
theorem wit_HandleCommandsFollowTable_2 : ∃ (s : State) (o : Origin) (n : Nat),
    (n < 3) ∧ (s.accepts o (Reg.a_HP_CMD n) 2#32 = true) ∧ (s.is (Reg.HP_RESULT_BUSY n) = false) ∧ (s.hmHeld = false) ∧ ((s.handle (s.get (Reg.HP_SEL_HANDLE n))).alloc = true) ∧ ((s.handle (s.get (Reg.HP_SEL_HANDLE n))).owner = n + 1) ∧ (s.pinned (s.get (Reg.HP_SEL_HANDLE n)) = false) ∧ (s.busyDma (s.get (Reg.HP_SEL_HANDLE n)) = false) :=
  ⟨((r0.put Reg.HM_STATUS_READY 1).put (Reg.HP_SEL_HANDLE 0) 3).setHandle 3 { alloc := true, owner := 1, sizes := [65536], cells := [[8]], st := .sealed }, .host, 0, by decide +kernel⟩
theorem wit_HandleCommandsFollowTable_3 : ∃ (s : State) (o : Origin) (n : Nat),
    (n < 3) ∧ (s.accepts o (Reg.a_HP_CMD n) 2#32 = true) ∧ (s.is (Reg.HP_RESULT_BUSY n) = false) ∧ (s.hmHeld = false) ∧ ((s.handle (s.get (Reg.HP_SEL_HANDLE n))).alloc = true) ∧ ((s.handle (s.get (Reg.HP_SEL_HANDLE n))).owner ≠ n + 1) :=
  ⟨((r0.put Reg.HM_STATUS_READY 1).put (Reg.HP_SEL_HANDLE 0) 3).setHandle 3 { ({ alloc := true, owner := 1, sizes := [65536], cells := [[8]], st := .sealed } : Handle) with owner := 3 }, .host, 0, by decide +kernel⟩
theorem wit_HandleCommandsFollowTable_4 : ∃ (s : State) (o : Origin) (n : Nat),
    (n < 3) ∧ (s.accepts o (Reg.a_HP_CMD n) 3#32 = true) ∧ (s.is (Reg.HP_RESULT_BUSY n) = false) ∧ (s.hmHeld = false) ∧ ((s.handle (s.get (Reg.HP_SEL_HANDLE n))).alloc = true) ∧ ((s.handle (s.get (Reg.HP_SEL_HANDLE n))).owner = n + 1) ∧ (s.pinned (s.get (Reg.HP_SEL_HANDLE n)) = false) ∧ ((s.handle (s.get (Reg.HP_SEL_HANDLE n))).st = .faulted ∨ (s.handle (s.get (Reg.HP_SEL_HANDLE n))).st = .released) :=
  ⟨((r0.put Reg.HM_STATUS_READY 1).put (Reg.HP_SEL_HANDLE 0) 3).setHandle 3 { alloc := true, owner := 1, sizes := [65536], cells := [[8]], st := .faulted }, .host, 0, by decide +kernel⟩
theorem wit_HandleCommandsFollowTable_5 : ∃ (s : State) (o : Origin) (n : Nat) (z : Nat) (cs : List Nat),
    (n < 3) ∧ (s.accepts o (Reg.a_HP_CMD n) 4#32 = true) ∧ (s.is (Reg.HP_RESULT_BUSY n) = false) ∧ (s.hmHeld = false) ∧ ((s.handle (s.get (Reg.HP_SEL_HANDLE n))).alloc = true) ∧ ((s.handle (s.get (Reg.HP_SEL_HANDLE n))).owner = n + 1) ∧ ((s.handle (s.get (Reg.HP_SEL_HANDLE n))).st = .sealed) ∧ (s.pinned (s.get (Reg.HP_SEL_HANDLE n)) = false) ∧ ((s.handle (s.get (Reg.HP_SEL_HANDLE n))).sizes[1]? = some z) ∧ ((s.handle (s.get (Reg.HP_SEL_HANDLE n))).cells[1]? = some cs) ∧ (s.get (Reg.HP_SIZE1_BYTES n) ≤ z) :=
  ⟨((r0.put Reg.HM_STATUS_READY 1).put (Reg.HP_SEL_HANDLE 0) 3).setHandle 3 { alloc := true, owner := 1, sizes := [65536, 131072], cells := [[8], [1, 2]], st := .sealed }, .host, 0, 131072, [1, 2], by decide +kernel⟩
theorem wit_HandleCommandsFollowTable_6 : ∃ (s : State) (o : Origin) (n : Nat),
    (n < 3) ∧ (s.accepts o (Reg.a_HP_CMD n) 5#32 = true) ∧ (s.is (Reg.HP_RESULT_BUSY n) = false) ∧ (s.hmHeld = false) ∧ ((s.handle (s.get (Reg.HP_SEL_HANDLE n))).alloc = true) ∧ ((s.handle (s.get (Reg.HP_SEL_HANDLE n))).sizes.all (fun z => z < 2 ^ 27) = true) :=
  ⟨((r0.put Reg.HM_STATUS_READY 1).put (Reg.HP_SEL_HANDLE 0) 3).setHandle 3 { alloc := true, owner := 1, sizes := [65536], cells := [[8]], st := .sealed }, .host, 0, by decide +kernel⟩
theorem wit_HandleCommandsFollowTable_7 : ∃ (s : State) (o : Origin) (n : Nat),
    (n < 3) ∧ (s.accepts o (Reg.a_HP_CMD n) 1#32 = true) ∧ (s.is (Reg.HP_RESULT_BUSY n) = true) :=
  ⟨r0.put (Reg.HP_RESULT_BUSY 0) 1, .host, 0, by decide +kernel⟩
theorem wit_HandleCommandsFollowTable_8 : ∃ (s : State) (n : Nat) (c : HpCmd),
    (n < 3) ∧ (s.hm.busy.find? (fun e => e.1 == n) = some (n, c)) ∧ (c.ran = true) ∧ (c.code < 16) :=
  ⟨{ r0 with hm := { r0.hm with busy := [(1, ⟨2, 3, 4, true⟩)] } }, 1, ⟨2, 3, 4, true⟩, by decide +kernel⟩
theorem wit_ReadErrorsFollowTheClasses_1 : ∃ (s : State) (a : Nat),
    (a % 32 = 0) ∧ (a < 2 ^ 28) ∧ (s.hmHeld = false) ∧ (s.forcedDouble a = false) :=
  ⟨(r0.put Reg.HM_STATUS_READY 1), 64, by decide +kernel⟩
theorem wit_ReadErrorsFollowTheClasses_2 : ∃ (s : State) (a : Nat),
    (a % 32 = 0) ∧ (a < 2 ^ 28) ∧ (s.hmHeld = false) ∧ (s.forcedDouble a = false) :=
  ⟨(r0.put Reg.HM_STATUS_READY 1), 64, by decide +kernel⟩
theorem wit_ReadErrorsFollowTheClasses_3 : ∃ (s : State) (a : Nat),
    (a % 32 = 0) ∧ (a < 2 ^ 28) ∧ (s.hmHeld = false) :=
  ⟨(r0.put Reg.HM_STATUS_READY 1), 64, by decide +kernel⟩
theorem wit_ReadErrorsFollowTheClasses_4 : ∃ (s : State) (r : Reader) (a : Nat) (x : Reread),
    (a % 32 = 0) ∧ (s.hm.rereads.find? (fun y => y.r == r && y.a == a) = some x) ∧ (s.hm.badWords.contains a = false) ∧ (s.unreadable (chanOfAddr a) = false) :=
  ⟨{ (r0.put Reg.HM_STATUS_READY 1) with hm := { (r0.put Reg.HM_STATUS_READY 1).hm with rereads := [⟨.functional, 64, 5, false⟩] } }, .functional, 64, ⟨.functional, 64, 5, false⟩, by decide +kernel⟩
theorem wit_ReadErrorsFollowTheClasses_5 : ∃ (s : State) (r : Reader) (a : Nat) (x : Reread),
    (a % 32 = 0) ∧ (s.hm.rereads.find? (fun y => y.r == r && y.a == a) = some x) :=
  ⟨{ (r0.put Reg.HM_STATUS_READY 1) with hm := { (r0.put Reg.HM_STATUS_READY 1).hm with rereads := [⟨.functional, 64, 5, false⟩] } }, .functional, 64, ⟨.functional, 64, 5, false⟩, by decide +kernel⟩
theorem wit_ReadErrorsFollowTheClasses_6 : ∃ (s : State) (a : Nat),
    (s.hm.pendingWb.contains a = true) :=
  ⟨{ r0 with hm := { r0.hm with pendingWb := [64] } }, 64, by decide +kernel⟩
theorem wit_ReadErrorsFollowTheClasses_7 : ∃ (s : State),
    (s.get Reg.HM_CTRL_SCRUB_PERIOD ≠ 0) ∧ (s.hmHeld = false) ∧ (s.hm.scrubAt < 2 ^ 23) ∧ (s.unreadable (chanOfAddr (s.hm.scrubAt * 32)) = false) ∧ (s.forcedDouble (s.hm.scrubAt * 32) = false) :=
  ⟨(r0.put Reg.HM_STATUS_READY 1).put Reg.HM_CTRL_SCRUB_PERIOD 1, by decide +kernel⟩
theorem wit_ReadErrorsFollowTheClasses_8 : ∃ (s : State) (o : Origin) (v : Word),
    (s.accepts o Reg.a_ECC_INJ v = true) ∧ (bit v.toNat 8 = false) :=
  ⟨r0, .sp, 5#32, by decide +kernel⟩
theorem wit_ReadErrorsFollowTheClasses_9 : ∃ (s : State) (o : Origin) (v : Word),
    (s.accepts o Reg.a_ECC_INJ v = true) ∧ (bit v.toNat 8 = true) :=
  ⟨r0, .sp, 0x105#32, by decide +kernel⟩
theorem wit_ReadErrorsFollowTheClasses_10 : ∃ (s : State) (o : Origin) (v : Word),
    (s.accepts o Reg.a_FENCE_CFG v = true) :=
  ⟨r0, .sp, 0x10000#32, by decide +kernel⟩
theorem wit_ReadErrorsFollowTheClasses_11 : ∃ (s : State) (o : Origin) (v : Word),
    (s.accepts o Reg.a_FENCE_INJ_HI v = true) :=
  ⟨r0, .sp, 1#32, by decide +kernel⟩
theorem wit_FenceBelowFourChannelsIsFatal_1 : ∃ (s : State) (c : Nat),
    (c < 8) ∧ (s.fenced c = false) ∧ (s.unreadable c = false) ∧ ((s.unfenced.filter (fun x => x != c)).length < 4) :=
  ⟨(r0.put Reg.HM_STATUS_READY 1).put Reg.HM_STATUS_FENCED 0x0F, 5, by decide +kernel⟩
theorem wit_FenceBelowFourChannelsIsFatal_2 : ∃ (s : State) (c : Nat),
    (c < 8) ∧ (s.fenced c = false) ∧ (s.get Reg.FENCE_CFG_THR ≠ 0) ∧ (s.get Reg.FENCE_CFG_THR ≤ (s.pruneUncorr c).length) ∧ ((s.unfenced.filter (fun x => x != c)).length < 4) :=
  ⟨{ (((r0.put Reg.HM_STATUS_READY 1).put Reg.FENCE_CFG_THR 8).put Reg.HM_STATUS_FENCED 0x0F) with hm := { (r0.put Reg.HM_STATUS_READY 1).hm with uncorr := [(5, [(1, 0), (2, 0), (3, 0), (4, 0), (6, 0), (7, 0), (8, 0), (9, 0)])] } }, 5, by decide +kernel⟩
theorem wit_FencedChannelsAreEvacuatedAndReturned_1 : ∃ (s : State) (c : Nat),
    (c < 8) ∧ (s.get Reg.FENCE_CFG_THR ≠ 0) ∧ (s.fenced c = false) ∧ (s.get Reg.FENCE_CFG_THR ≤ (s.pruneUncorr c).length) :=
  ⟨{ (r0.put Reg.HM_STATUS_READY 1).put Reg.FENCE_CFG_THR 8 with hm := { (r0.put Reg.HM_STATUS_READY 1).hm with uncorr := [(5, [(1, 0), (2, 0), (3, 0), (4, 0), (6, 0), (7, 0), (8, 0), (9, 0)])] } }, 5, by decide +kernel⟩
theorem wit_FencedChannelsAreEvacuatedAndReturned_2 : ∃ (s : State) (c : Nat),
    (c < 8) ∧ (s.unreadable c = false) :=
  ⟨(r0.put Reg.HM_STATUS_READY 1), 5, by decide +kernel⟩
theorem wit_FencedChannelsAreEvacuatedAndReturned_3 : ∃ (s : State) (c : Nat),
    (c < 8) ∧ (s.fenced c = false) :=
  ⟨(r0.put Reg.HM_STATUS_READY 1), 5, by decide +kernel⟩
theorem wit_FencedChannelsAreEvacuatedAndReturned_4 : ∃ (s : State) (c : Nat) (hh : Nat) (cell : Nat) (ch : Nat) (new : Nat),
    (c < 8) ∧ (s.fenced c = true) ∧ (s.nextEvac c = some (hh, cell)) ∧ ((s.handle hh).st = .empty ∨ (s.handle hh).st = .filling ∨ (s.handle hh).st = .released) ∧ (s.startChannel s.heldCells = some ch) ∧ (s.nextCell s.heldCells (cycleFrom s.unfenced ch) = some (ch, new)) :=
  ⟨evac0, 0, 3, 8, 1, 1, by decide +kernel⟩
theorem wit_FencedChannelsAreEvacuatedAndReturned_5 : ∃ (s : State) (c : Nat) (hh : Nat) (cell : Nat) (ch : Nat) (new : Nat),
    (c < 8) ∧ (Memory.wf s.hm.mem = true) ∧ (s.fenced c = true) ∧ (s.nextEvac c = some (hh, cell)) ∧ ((s.handle hh).st = .sealed ∨ (s.handle hh).st = .shown) ∧ ((wordsOf (cell * 65536) 65536).all (fun w => !s.forcedDouble w) = true) ∧ (s.startChannel s.heldCells = some ch) ∧ (s.nextCell s.heldCells (cycleFrom s.unfenced ch) = some (ch, new)) :=
  ⟨{ (evac0.setBuf 3 .sealed) with hm := { (evac0.setBuf 3 .sealed).hm with mem := [(524290, 9#8)] } }, 0, 3, 8, 1, 1, by decide +kernel⟩
theorem wit_FencedChannelsAreEvacuatedAndReturned_6 : ∃ (s : State) (o : Origin) (v : Word) (c : Nat),
    (c < 8) ∧ (s.accepts o Reg.a_HM_STATUS v = true) ∧ (v = BitVec.ofNat 32 (2 ^ (16 + c))) ∧ (s.mayUnfence c = true) :=
  ⟨unf0, .sp, 0x10000#32, 0, by decide +kernel⟩
theorem wit_FencedChannelsAreEvacuatedAndReturned_7 : ∃ (s : State) (o : Origin) (v : Word) (c : Nat),
    (c < 8) ∧ (s.accepts o Reg.a_HM_STATUS v = true) ∧ (v = BitVec.ofNat 32 (2 ^ (16 + c))) ∧ (s.mayUnfence c = false) :=
  ⟨((r0.put Reg.HM_STATUS_READY 1).put Reg.HM_STATUS_FENCED 1), .sp, 0x10000#32, 0, by decide +kernel⟩
theorem wit_FencedChannelsAreEvacuatedAndReturned_8 : ∃ (s : State) (c : Nat),
    (c < 8) ∧ (s.hm.zeroing.contains c = true) :=
  ⟨{ r0 with hm := { r0.hm with zeroing := [2], mem := [(131072, 5#8), (196608, 6#8)] } }, 2, by decide +kernel⟩
theorem wit_FencedChannelsAreEvacuatedAndReturned_9 : ∃ (s : State),
    (s.hmReady = false) ∧ (s.emb.main = true) ∧ (6 ≤ s.get (Reg.PLL_STATUS_STATE 13)) :=
  ⟨r0.put (Reg.PLL_STATUS_STATE 13) 6, by decide +kernel⟩
theorem wit_FencedChannelsAreEvacuatedAndReturned_10 : ∃ (s : State),
    (s.hmReady = false) ∧ (s.emb.main = true) ∧ (6 ≤ s.get (Reg.PLL_STATUS_STATE 13)) ∧ (s.hm.heldAcc = []) :=
  ⟨r0.put (Reg.PLL_STATUS_STATE 13) 6, by decide +kernel⟩
theorem wit_FencedChannelsAreEvacuatedAndReturned_11 : ∃ (s : State),
    (s.hmReady = true ∨ s.emb.main = false ∨ s.get (Reg.PLL_STATUS_STATE 13) < 6) :=
  ⟨(r0.put Reg.HM_STATUS_READY 1), by decide +kernel⟩
theorem wit_FencedChannelsAreEvacuatedAndReturned_12 : ∃ (s : State) (c : Nat),
    (c < 8) ∧ (max 1 (s.get Reg.STAT_CTRL_WINDOW) ≤ s.hm.winOrbits) ∧ (s.is Reg.STAT_CTRL_FREEZE = false) ∧ (SMap.get 0 s.hm.rdRun c < 2 ^ 32) :=
  ⟨{ r0 with hm := { r0.hm with winOrbits := 255, rdRun := [(3, 17)] } }, 3, by decide +kernel⟩
theorem wit_FencedChannelsAreEvacuatedAndReturned_13 : ∃ (s : State) (o : Origin) (v : Word) (c : Nat),
    (c < 8) ∧ (s.accepts o Reg.a_STAT_CTRL v = true) ∧ (bit v.toNat 9 = true) :=
  ⟨{ r0 with hm := { r0.hm with rdRun := [(3, 17)] } }, .sp, 0x200#32, 3, by decide +kernel⟩
theorem wit_TablesInUseAreKept_1 : ∃ (s : State) (o : Origin) (p : Nat) (v : Word),
    (p < 12) ∧ (s.accepts o (Reg.a_SC_COEF_DATA p) v = true) ∧ (s.get (Reg.SC_COEF_ADDR_DIR p) = 0 ∨ s.get (Reg.SC_COEF_ADDR_TAP p) < 6) ∧ (bit (s.banksInUse p) (s.get (Reg.SC_COEF_ADDR_BANK p)) = false) :=
  ⟨(r0.put (Reg.OWN_OWNER 0) 1).put (Reg.SC_COEF_ADDR_TAP 0) 2, .host, 0, 0x3FF#32, by decide +kernel⟩
theorem wit_TablesInUseAreKept_2 : ∃ (s : State) (o : Origin) (p : Nat) (v : Word),
    (p < 12) ∧ (s.accepts o (Reg.a_SC_COEF_DATA p) v = true) ∧ (s.get (Reg.SC_COEF_ADDR_DIR p) = 1) ∧ (6 ≤ s.get (Reg.SC_COEF_ADDR_TAP p)) :=
  ⟨((r0.put (Reg.OWN_OWNER 0) 1).put (Reg.SC_COEF_ADDR_DIR 0) 1).put (Reg.SC_COEF_ADDR_TAP 0) 6, .host, 0, 0x3FF#32, by decide +kernel⟩
theorem wit_TablesInUseAreKept_3 : ∃ (s : State) (o : Origin) (p : Nat) (v : Word),
    (p < 12) ∧ (s.accepts o (Reg.a_SC_COEF_DATA p) v = true) ∧ (s.get (Reg.SC_COEF_ADDR_DIR p) = 0 ∨ s.get (Reg.SC_COEF_ADDR_TAP p) < 6) ∧ (bit (s.banksInUse p) (s.get (Reg.SC_COEF_ADDR_BANK p)) = true) ∧ ((s.pipe p).coefAt (s.get (Reg.SC_COEF_ADDR_BANK p)) (s.get (Reg.SC_COEF_ADDR_DIR p)) (s.get (Reg.SC_COEF_ADDR_PHASE p)) (s.get (Reg.SC_COEF_ADDR_TAP p)) ≠ sext (bits v.toNat 9 0) 10) :=
  ⟨((r0.put (Reg.OWN_OWNER 0) 1).modPipe 0 fun x => { x with shown := imgLay true }), .host, 0, 0x3FF#32, by decide +kernel⟩
theorem wit_TablesInUseAreKept_4 : ∃ (s : State) (o : Origin) (p : Nat) (v : Word),
    (p < 12) ∧ (s.accepts o (Reg.a_SC_COEF_RESET p) v = true) ∧ (bits v.toNat 3 0 &&& s.banksInUse p = 0) :=
  ⟨(r0.put (Reg.OWN_OWNER 0) 1).modPipe 0 fun x => { x with coef := [(coefKey 1 0 0 0, 5), (coefKey 2 0 0 0, 5)] }, .host, 0, 2#32, by decide +kernel⟩
theorem wit_TablesInUseAreKept_5 : ∃ (s : State) (o : Origin) (p : Nat) (v : Word) (c : Nat),
    (p < 12) ∧ (s.accepts o (Reg.a_CL_LUT_DATA p) v = true) ∧ (bit (s.lutsInUse p) (s.get (Reg.CL_LUT_ADDR_BANK p)) = false) ∧ (c < 3) ∧ (s.get (Reg.CL_LUT_ADDR_COMP p) = 3 ∨ s.get (Reg.CL_LUT_ADDR_COMP p) = c) :=
  ⟨((r0.put (Reg.OWN_OWNER 0) 1).put (Reg.CL_LUT_ADDR_COMP 0) 3).put (Reg.CL_LUT_ADDR_INDEX 0) 1023, .host, 0, 0x1FFF#32, 1, by decide +kernel⟩
theorem wit_TablesInUseAreKept_6 : ∃ (s : State) (o : Origin) (p : Nat) (v : Word),
    (p < 12) ∧ (s.accepts o (Reg.a_CL_LUT_RESET p) v = true) ∧ (bits v.toNat 1 0 &&& s.lutsInUse p = 0) :=
  ⟨(r0.put (Reg.OWN_OWNER 0) 1).modPipe 0 fun x => { x with lut := [(lutKey 1 0 0 0, 5)] }, .host, 0, 2#32, by decide +kernel⟩
theorem wit_TablesInUseAreKept_7 : ∃ (s : State) (o : Origin) (p : Nat) (v : Word),
    (p < 12) ∧ (s.accepts o (Reg.a_CL_LUT_RESET p) v = true) ∧ (bits v.toNat 1 0 &&& s.lutsInUse p ≠ 0) :=
  ⟨(r0.put (Reg.OWN_OWNER 0) 1).modPipe 0 fun x => { x with shown := imgPut imgRun (Reg.CL_CTRL_PRE_EN 0) 1 }, .host, 0, 3#32, by decide +kernel⟩
theorem wit_TablesInUseAreKept_8 : ∃ (s : State) (o : Origin) (p : Nat) (v : Word) (c : Nat),
    (p < 12) ∧ (s.accepts o (Reg.a_CL_LUT_DATA p) v = true) ∧ (bit (s.lutsInUse p) (s.get (Reg.CL_LUT_ADDR_BANK p)) = true) ∧ (c < 3) ∧ (s.get (Reg.CL_LUT_ADDR_COMP p) = 3 ∨ s.get (Reg.CL_LUT_ADDR_COMP p) = c) ∧ ((s.pipe p).lutAt (s.get (Reg.CL_LUT_ADDR_BANK p)) (s.get (Reg.CL_LUT_ADDR_TABLE p)) c (s.lutIndex p) ≠ min (bits v.toNat 12 0) (if s.lutIndex p = 1024 then 4096 else 4095)) :=
  ⟨(r0.put (Reg.OWN_OWNER 0) 1).modPipe 0 fun x => { x with shown := imgPut imgRun (Reg.CL_CTRL_PRE_EN 0) 1 }, .host, 0, 3#32, 0, by decide +kernel⟩
theorem wit_TablesInUseAreKept_9 : ∃ (s : State) (o : Origin) (p : Nat) (v : Word),
    (p < 12) ∧ (s.accepts o (Reg.a_SC_COEF_RESET p) v = true) ∧ (bits v.toNat 3 0 &&& s.banksInUse p ≠ 0) :=
  ⟨((r0.put (Reg.OWN_OWNER 0) 1).modPipe 0 fun x => { x with shown := imgLay true }), .host, 0, 15#32, by decide +kernel⟩
theorem wit_SlotsFetchAndWritebackSeals_1 : ∃ (p : Nat) (k : Nat),
    (p < 12) ∧ (k < 8) :=
  ⟨0, 0, by decide +kernel⟩
theorem wit_SlotsFetchAndWritebackSeals_2 : ∃ (s : State) (p : Nat) (k : Nat) (y : Nat) (ahead : Bool),
    (p < 12) ∧ (k < 8) ∧ (s.hmReady = true) ∧ (s.mayFetch p y ahead = true) ∧ (s.drawsLine p k y ahead = true) ∧ (s.hasRun p k y ahead = false) ∧ (allSlots.all (fun j => j ≤ k || !s.drawsLine p j y ahead || s.hasRun p j y ahead) = true) ∧ ((s.fetchOf p k ahead (declOf (s.frameImg p ahead) p k) (y - (declOf (s.frameImg p ahead) p k).dy)).words.all (fun a => !s.forcedDouble a) = true) ∧ ((s.fetchOf p k ahead (declOf (s.frameImg p ahead) p k) (y - (declOf (s.frameImg p ahead) p k).dy)).blocks.all (fun b => !((s.is Reg.FC_INJ_GBC && s.get Reg.FC_INJ_PIPE == p) || gbcMalformed (s.gbcHeader (declOf (s.frameImg p ahead) p k) b.1 b.2) (s.plane1 (declOf (s.frameImg p ahead) p k)))) = true) :=
  ⟨fetch0, 0, 0, 2, false, by decide +kernel⟩
theorem wit_SlotsFetchAndWritebackSeals_3 : ∃ (s : State) (p : Nat) (k : Nat) (y : Nat) (ahead : Bool),
    (p < 12) ∧ (k < 8) ∧ (s.drawsLine p k y ahead = false ∨ s.mayFetch p y ahead = false) :=
  ⟨r0, 0, 7, 0, false, by decide +kernel⟩
theorem wit_SlotsFetchAndWritebackSeals_4 : ∃ (s : State) (o : Origin) (p : Nat) (v : Word),
    (p < 12) ∧ (s.accepts o (Reg.a_WB_CTRL p) v = true) ∧ (s.is (Reg.WB_STATUS_BUSY p) = false) ∧ (bits v.toNat 1 0 = 1 ∨ bits v.toNat 1 0 = 2) :=
  ⟨(r0.put (Reg.OWN_OWNER 0) 1), .host, 0, 0x12#32, by decide +kernel⟩
theorem wit_SlotsFetchAndWritebackSeals_5 : ∃ (s : State) (o : Origin) (p : Nat) (v : Word),
    (p < 12) ∧ (s.accepts o (Reg.a_WB_CTRL p) v = true) ∧ (s.is (Reg.WB_STATUS_BUSY p) = false) ∧ (bits v.toNat 1 0 = 0 ∨ bits v.toNat 1 0 = 3) :=
  ⟨(r0.put (Reg.OWN_OWNER 0) 1).put (Reg.WB_CTRL_MODE 0) 1, .host, 0, 0x10#32, by decide +kernel⟩
theorem wit_SlotsFetchAndWritebackSeals_6 : ∃ (s : State) (o : Origin) (p : Nat) (v : Word),
    (p < 12) ∧ (s.accepts o (Reg.a_WB_CTRL p) v = true) ∧ (s.is (Reg.WB_STATUS_BUSY p) = true) :=
  ⟨(r0.put (Reg.OWN_OWNER 0) 1).put (Reg.WB_STATUS_BUSY 0) 1, .host, 0, 0x12#32, by decide +kernel⟩
theorem wit_SlotsFetchAndWritebackSeals_7 : ∃ (s : State) (p : Nat) (c : WbClose),
    (p < 12) ∧ ((s.pipe p).wb.closing = [c]) ∧ (s.inFlight (wbWriter p c.par) = false) ∧ (s.wroteBad (wbWriter p c.par) = false) ∧ (s.wroteMoved (wbWriter p c.par) = false) ∧ (s.pinned c.handle = false) ∧ (s.hm.writers.all (fun x => x.2 != c.handle || x.1 == wbWriter p c.par) = true) :=
  ⟨((r0.setMode 0 .running).setHandle 5 { alloc := true, owner := 1, sizes := [65536], cells := [[8]], st := .filling }).modPipe 0 fun x => { x with wb := { x.wb with closing := [⟨0, 5, 77⟩] } }, 0, ⟨0, 5, 77⟩, by decide +kernel⟩
theorem wit_SlotsFetchAndWritebackSeals_8 : ∃ (s : State) (p : Nat) (c : WbClose),
    (p < 12) ∧ ((s.pipe p).wb.closing = [c]) ∧ (s.inFlight (wbWriter p c.par) = false) ∧ (s.wroteBad (wbWriter p c.par) = true) :=
  ⟨badw (((r0.setMode 0 .running).setHandle 5 { alloc := true, owner := 1, sizes := [65536], cells := [[8]], st := .filling }).modPipe 0 fun x => { x with wb := { x.wb with closing := [⟨0, 5, 77⟩] } }), 0, ⟨0, 5, 77⟩, by decide +kernel⟩
theorem wit_SlotsFetchAndWritebackSeals_9 : ∃ (s : State) (p : Nat) (c : WbClose),
    (p < 12) ∧ ((s.pipe p).wb.closing = [c]) ∧ (s.inFlight (wbWriter p c.par) = false) ∧ (s.wroteBad (wbWriter p c.par) = false) ∧ (s.wroteMoved (wbWriter p c.par) = false) ∧ (s.pinned c.handle = true) :=
  ⟨(((r0.setMode 0 .running).setHandle 5 { alloc := true, owner := 1, sizes := [65536], cells := [[8]], st := .filling }).modPipe 0 fun x => { x with wb := { x.wb with closing := [⟨0, 5, 77⟩] } }).modPipe 0 fun x => { x with pend := [{ pend0 with img := imgPut (imgLay false) (Reg.TG_CTRL_RUN 0) 1 }] }, 0, ⟨0, 5, 77⟩, by decide +kernel⟩
theorem wit_SlotsFetchAndWritebackSeals_10 : ∃ (s : State) (p : Nat),
    (p < 12) ∧ ((s.pipe p).wb.closing.all (fun c => s.inFlight (wbWriter p c.par)) = true) :=
  ⟨r0, 3, by decide +kernel⟩
theorem wit_BeaconApplyValidatesItsChange_1 : ∃ (s : State) (o : Origin) (v : Word),
    (s.accepts o (Reg.a_BC_CTRL) v = true) ∧ (bit v.toNat 0 = true) ∧ (s.entriesLegal = false) :=
  ⟨((r0.put (Reg.BE_CFG_EN 0) 1).put (Reg.BE_CFG_PIPE 0) 13), .sp, 1#32, by decide +kernel⟩
theorem wit_BeaconApplyValidatesItsChange_2 : ∃ (s : State) (o : Origin) (v : Word),
    (s.accepts o (Reg.a_BC_CTRL) v = true) ∧ (bit v.toNat 0 = true) ∧ (s.entriesLegal = true) ∧ ((allPipes.filter fun p => s.wantedOn p != s.targetOn p).any (fun p => !s.applyHeld p) = true) :=
  ⟨run0.modPipe 0 fun x => { x with bcn := some ⟨0, []⟩ }, .sp, 1#32, by decide +kernel⟩
theorem wit_BeaconApplyValidatesItsChange_3 : ∃ (s : State) (o : Origin) (v : Word) (p : Nat),
    (s.accepts o (Reg.a_BC_CTRL) v = true) ∧ (bit v.toNat 0 = true) ∧ (s.entriesLegal = true) ∧ ((allPipes.filter fun p => s.wantedOn p != s.targetOn p).all (fun p => s.applyHeld p) = true) ∧ (p < 12) :=
  ⟨((run0.put (Reg.BE_CFG_EN 0) 1).put (Reg.BE_CFG_PIPE 0) 0), .sp, 1#32, 0, by decide +kernel⟩
theorem wit_BeaconApplyValidatesItsChange_4 : ∃ (s : State) (o : Origin) (v : Word),
    (s.accepts o (Reg.a_BC_CTRL) v = true) ∧ (bit v.toNat 0 = false) :=
  ⟨r0, .sp, 0#32, by decide +kernel⟩
theorem wit_TellTalesFollowTheirRequests_1 : ∃ (s : State) (o : Origin) (i : Nat) (v : Word),
    (i < 64) ∧ (s.accepts o (Reg.a_TT_STATE i) v = true) ∧ (bits v.toNat 1 0 ≠ reqNone) :=
  ⟨r0, .sp, 63, 1#32, by decide +kernel⟩
theorem wit_TellTalesFollowTheirRequests_2 : ∃ (s : State) (o : Origin) (i : Nat) (v : Word),
    (i < 64) ∧ (s.accepts o (Reg.a_TT_STATE i) v = true) ∧ (bits v.toNat 1 0 = reqNone) :=
  ⟨r0, .sp, 0, BitVec.ofNat 32 reqNone, by decide +kernel⟩
theorem wit_TellTalesFollowTheirRequests_3 : ∃ (s : State) (i : Nat),
    (i < 64) ∧ (s.get (Reg.TT_MODE_TIMEOUT i) ≠ 0) :=
  ⟨r0.put (Reg.TT_MODE_TIMEOUT 2) 5, 2, by decide +kernel⟩
theorem wit_TellTalesFollowTheirRequests_4 : ∃ (s : State) (i : Nat),
    (i < 64) ∧ (s.get (Reg.TT_MODE_TIMEOUT i) = 0) :=
  ⟨r0.put (Reg.TT_MODE_TIMEOUT 2) 0, 2, by decide +kernel⟩
theorem wit_TellTalesFollowTheirRequests_5 : ∃ (s : State) (o : Origin) (v : Word),
    (s.accepts o (Reg.a_BC_INJ) v = true) :=
  ⟨r0.put Reg.BC_INJ_CRC 1, .sp, 0x20#32, by decide +kernel⟩
theorem wit_TellTalesFollowTheirRequests_6 : ∃ (s : State) (n : Nat),
    (1 ≤ n) ∧ (n ≤ 4) ∧ ((s.sig n).limit n ≠ 0) ∧ ((s.sig n).limit n < 65535) :=
  ⟨r0, 3, by decide +kernel⟩
theorem wit_TellTalesFollowTheirRequests_7 : ∃ (s : State) (n : Nat),
    (1 ≤ n) ∧ (n ≤ 4) ∧ ((s.sig n).limit n = 0) :=
  ⟨r0.setSig 3 { timeout := some 0 }, 3, by decide +kernel⟩
theorem wit_FailedProofClearsAfterQuietMatches_1 : ∃ (s : State) (o : Origin) (i : Nat) (v : Word),
    (i < 4) ∧ (s.accepts o (Reg.a_BE_E2E i) v = true) ∧ (bit v.toNat 3 = true) ∧ (s.is (Reg.BE_E2E_FAILED i) = true) ∧ (s.e2eFenced i = false ∨ s.cleared .BEACON_E2E = true) ∧ (max 1 (s.get Reg.BC_E2E_CFG_QUIET) ≤ s.get (Reg.BE_E2E_MATCH_RUN i)) :=
  ⟨(r0.put (Reg.BE_E2E_FAILED 3) 1).put (Reg.BE_E2E_MATCH_RUN 3) 200, .sp, 3, 8#32, by decide +kernel⟩
theorem wit_FailedProofClearsAfterQuietMatches_2 : ∃ (s : State) (o : Origin) (i : Nat) (v : Word),
    (i < 4) ∧ (s.accepts o (Reg.a_BE_E2E i) v = true) ∧ (s.is (Reg.BE_E2E_FAILED i) = true) ∧ (s.get (Reg.BE_E2E_MATCH_RUN i) < max 1 (s.get Reg.BC_E2E_CFG_QUIET)) :=
  ⟨(r0.put (Reg.BE_E2E_FAILED 3) 1), .sp, 3, 8#32, by decide +kernel⟩
theorem wit_ClusterStopsWithoutItsOwner_1 : ∃ (s : State),
    (s.is Reg.CLU_CTRL_EN = true) ∧ (s.bc.redraw = none) ∧ (max 1 (s.get Reg.CLU_CTRL_DIV) ≤ s.bc.sinceRedraw) ∧ (s.hmReady = true) ∧ ((s.redrawSource == s.bc.lastDrawn) = false) ∧ (s.owner s.clusterPipe ≠ 3) :=
  ⟨({ (((r0.put Reg.HM_STATUS_READY 1).put Reg.CLU_CTRL_EN 1).setSig 1 { value := [1#8] }) with bc := { (((r0.put Reg.HM_STATUS_READY 1).put Reg.CLU_CTRL_EN 1).setSig 1 { value := [1#8] }).bc with sinceRedraw := 10, lastDrawn := [[1#8]] } } : State).put (Reg.OWN_OWNER 0) 1, by decide +kernel⟩
theorem wit_ClusterStopsWithoutItsOwner_2 : ∃ (s : State) (h : Nat) (p : Nat) (k : Nat),
    (s.bc.redraw = some (h, p, k)) ∧ (h < 1024) ∧ (p < 12) ∧ (k < 8) ∧ (s.inFlight clusterWriter = false) ∧ ((s.handle h).st = .filling) ∧ (s.wroteBad clusterWriter = false) ∧ (s.wroteMoved clusterWriter = false) ∧ (s.kin.wait ≠ .draw h) ∧ (s.owner p ≠ 3) :=
  ⟨(let s := ((r0.put Reg.HM_STATUS_READY 1).put (Reg.OWN_OWNER 0) 1).setHandle 5 { alloc := true, owner := 3, sizes := [65536], cells := [[8]], st := .filling };
     { s with bc := { s.bc with redraw := some (5, 0, 0) } } : State), 5, 0, 0, by decide +kernel⟩
theorem wit_ClusterRedrawsSealsAndCommits_1 : ∃ (s : State),
    (s.is Reg.CLU_CTRL_EN = true) ∧ (s.bc.redraw = none) ∧ (max 1 (s.get Reg.CLU_CTRL_DIV) ≤ s.bc.sinceRedraw) ∧ (s.hmReady = true) ∧ ((s.redrawSource == s.bc.lastDrawn) = false) ∧ (s.owner s.clusterPipe = 3) :=
  ⟨({ (((r0.put Reg.HM_STATUS_READY 1).put Reg.CLU_CTRL_EN 1).setSig 1 { value := [1#8] }) with bc := { (((r0.put Reg.HM_STATUS_READY 1).put Reg.CLU_CTRL_EN 1).setSig 1 { value := [1#8] }).bc with sinceRedraw := 10, lastDrawn := [[1#8]] } } : State).put (Reg.OWN_OWNER 0) 3, by decide +kernel⟩
theorem wit_ClusterRedrawsSealsAndCommits_2 : ∃ (s : State),
    (s.is Reg.CLU_CTRL_EN = true) ∧ (s.bc.redraw = none) ∧ (s.hmReady = true) ∧ ((s.redrawSource == s.bc.lastDrawn) = true) :=
  ⟨((r0.put Reg.HM_STATUS_READY 1).put Reg.CLU_CTRL_EN 1), by decide +kernel⟩
theorem wit_ClusterRedrawsSealsAndCommits_3 : ∃ (s : State),
    (s.is Reg.CLU_CTRL_EN = false) :=
  ⟨r0, by decide +kernel⟩
theorem wit_ClusterRedrawsSealsAndCommits_4 : ∃ (s : State) (h : Nat) (p : Nat) (k : Nat),
    (s.bc.redraw = some (h, p, k)) ∧ (h < 1024) ∧ (p < 12) ∧ (k < 8) ∧ (s.inFlight clusterWriter = false) ∧ ((s.handle h).st = .filling) ∧ (s.wroteBad clusterWriter = false) ∧ (s.wroteMoved clusterWriter = false) ∧ (s.kin.wait ≠ .draw h) ∧ (s.owner p = 3) :=
  ⟨(let s := ((r0.put Reg.HM_STATUS_READY 1).put (Reg.OWN_OWNER 0) 3).setHandle 5 { alloc := true, owner := 3, sizes := [65536], cells := [[8]], st := .filling };
     { s with bc := { s.bc with redraw := some (5, 0, 0) } } : State), 5, 0, 0, by decide +kernel⟩
theorem wit_ClusterRedrawsSealsAndCommits_5 : ∃ (s : State) (h : Nat) (p : Nat) (k : Nat),
    (s.bc.redraw = some (h, p, k)) ∧ (h < 1024) ∧ (p < 12) ∧ (k < 8) ∧ (s.inFlight clusterWriter = false) ∧ ((s.handle h).st = .filling) ∧ (s.wroteBad clusterWriter = false) ∧ (s.wroteMoved clusterWriter = false) ∧ (s.kin.wait = .draw h) :=
  ⟨{ ((let s := ((r0.put Reg.HM_STATUS_READY 1).put (Reg.OWN_OWNER 0) 3).setHandle 5 { alloc := true, owner := 3, sizes := [65536], cells := [[8]], st := .filling };
     { s with bc := { s.bc with redraw := some (5, 0, 0) } } : State)) with kin := { r0.kin with wait := .draw 5 } }, 5, 0, 0, by decide +kernel⟩
theorem wit_ClusterRedrawsSealsAndCommits_6 : ∃ (s : State),
    (s.bc.redraw.isSome = true) ∧ (max 1 (s.get Reg.CLU_CTRL_DIV) ≤ s.bc.redrawOrbits) :=
  ⟨{ r0 with bc := { r0.bc with redraw := some (5, 0, 0), redrawOrbits := 9 } }, by decide +kernel⟩
theorem wit_ClusterRedrawsSealsAndCommits_7 : ∃ (s : State),
    (s.bc.redraw = none ∨ s.bc.redrawOrbits < max 1 (s.get Reg.CLU_CTRL_DIV)) :=
  ⟨{ r0 with bc := { r0.bc with redraw := some (5, 0, 0) } }, by decide +kernel⟩
theorem wit_DoorbellsAndChannelControl_1 : ∃ (s : State) (o : Origin) (c : Nat) (v : Word),
    (c < 112) ∧ (s.accepts o (Reg.a_CH_DB_HI c) v = true) ∧ ((s.chan c).lists.length - (s.chan c).again < 4) :=
  ⟨((r0.put (Reg.OWN_OWNER 0) 1)).put (Reg.CH_DB_LO_ADDR 3) 3, .host, 3, 1#32, by decide +kernel⟩
theorem wit_DoorbellsAndChannelControl_2 : ∃ (s : State) (o : Origin) (c : Nat) (v : Word),
    (c < 112) ∧ (s.accepts o (Reg.a_CH_DB_HI c) v = true) ∧ (4 ≤ (s.chan c).lists.length - (s.chan c).again) :=
  ⟨((r0.put (Reg.OWN_OWNER 0) 1)).setChan 3 { lists := [1, 2, 3, 4] }, .host, 3, 1#32, by decide +kernel⟩
theorem wit_DoorbellsAndChannelControl_3 : ∃ (s : State) (o : Origin) (c : Nat) (v : Word),
    (c < 112) ∧ (s.accepts o (Reg.a_CH_CTRL c) v = true) ∧ (v = 1#32 ∨ v = 0#32) :=
  ⟨(((r0.put (Reg.OWN_OWNER 0) 1)).put (Reg.CH_STATUS_STATE 3) 2).setChan 3 { lists := [64], cur := some { d := { addr := 0x1000, next := 0, host := 0x4000, ctrl := 6, target := 5, off := 0, rowBytes := 64, rows := 1, hostStride := 64, hearthStride := 64, sealWord := 0, tag := 9, rsv := 0, list := some 0x1000 } } }, .host, 3, 1#32, by decide +kernel⟩
theorem wit_DoorbellsAndChannelControl_4 : ∃ (s : State) (o : Origin) (c : Nat) (v : Word),
    (c < 112) ∧ (s.accepts o (Reg.a_CH_CTRL c) v = true) ∧ (v = 2#32) ∧ ((s.chan c).cur.isSome = true) ∧ ((s.chan c).aborting = false) :=
  ⟨(((r0.put (Reg.OWN_OWNER 0) 1)).put (Reg.CH_STATUS_STATE 3) 2).setChan 3 { lists := [64], pre := [{ addr := 0x1000, next := 0, host := 0x4000, ctrl := 6, target := 5, off := 0, rowBytes := 64, rows := 1, hostStride := 64, hearthStride := 64, sealWord := 0, tag := 9, rsv := 0, list := some 0x1000 }], cur := some { d := { addr := 0x1000, next := 0, host := 0x4000, ctrl := 6, target := 5, off := 0, rowBytes := 64, rows := 1, hostStride := 64, hearthStride := 64, sealWord := 0, tag := 9, rsv := 0, list := some 0x1000 } } }, .host, 3, 2#32, by decide +kernel⟩
theorem wit_DoorbellsAndChannelControl_5 : ∃ (s : State) (o : Origin) (c : Nat) (v : Word),
    (c < 112) ∧ (s.accepts o (Reg.a_CH_CTRL c) v = true) ∧ (v = 4#32) ∧ (s.get (Reg.CH_STATUS_STATE c) ≠ 0) :=
  ⟨(((r0.put (Reg.OWN_OWNER 0) 1)).put (Reg.CH_STATUS_STATE 3) 2).setChan 3 { lists := [64], cur := some { d := { addr := 0x1000, next := 0, host := 0x4000, ctrl := 6, target := 5, off := 0, rowBytes := 64, rows := 1, hostStride := 64, hearthStride := 64, sealWord := 0, tag := 9, rsv := 0, list := some 0x1000 } } }, .host, 3, 4#32, by decide +kernel⟩
theorem wit_DoorbellsAndChannelControl_6 : ∃ (s : State) (o : Origin) (c : Nat) (v : Word),
    (c < 112) ∧ (s.accepts o (Reg.a_CH_CTRL c) v = true) ∧ (v = 4#32) ∧ (s.get (Reg.CH_STATUS_STATE c) = 0) :=
  ⟨((r0.put (Reg.OWN_OWNER 0) 1)), .host, 3, 4#32, by decide +kernel⟩
theorem wit_DoorbellsAndChannelControl_7 : ∃ (s : State) (o : Origin) (v : Word),
    (s.accepts o (Reg.a_DMA_INJ) v = true) :=
  ⟨r0, .sp, 3#32, by decide +kernel⟩
theorem wit_DescriptorsRunToTheirOutcome_1 : ∃ (s : State) (c : Nat) (r : Reading) (bs : List Byte),
    (c < 112) ∧ ((s.chan c).reading = some r) ∧ ((s.chan c).result = some (some bs)) :=
  ⟨r0.setChan 3 { reading := some ⟨64, some 64, false⟩, result := some (some (List.replicate 64 0#8)) }, 3, ⟨64, some 64, false⟩, List.replicate 64 0#8, by decide +kernel⟩
theorem wit_DescriptorsRunToTheirOutcome_2 : ∃ (s : State) (c : Nat) (r : Reading),
    (c < 112) ∧ ((s.chan c).reading = some r) ∧ ((s.chan c).result = some none) ∧ ((s.chan c).retry = false) :=
  ⟨r0.setChan 3 { reading := some ⟨64, some 64, false⟩, result := some none }, 3, ⟨64, some 64, false⟩, by decide +kernel⟩
theorem wit_DescriptorsRunToTheirOutcome_3 : ∃ (s : State) (c : Nat) (r : Reading),
    (c < 112) ∧ ((s.chan c).reading = some r) ∧ ((s.chan c).result = some none) ∧ ((s.chan c).retry = true) :=
  ⟨r0.setChan 3 { reading := some ⟨64, some 64, false⟩, result := some none, retry := true }, 3, ⟨64, some 64, false⟩, by decide +kernel⟩
theorem wit_DescriptorsRunToTheirOutcome_4 : ∃ (s : State) (c : Nat) (d : Desc) (ds : List Desc),
    (c < 112) ∧ ((s.chan c).cur = none) ∧ ((s.chan c).pre = d :: ds) ∧ ((s.chan c).aborting = false) ∧ ((s.descInvalid c d || s.descForeign c d || d.codec) = false) ∧ ((s.chan c).fill = none) ∧ ((s.handle d.handle).st = .faulted) :=
  ⟨(((r0.put (Reg.OWN_OWNER 0) 1)).setHandle 5 { alloc := true, owner := 1, sizes := [65536], cells := [[8]], st := .faulted }).setChan 3 { pre := [{ addr := 0x1000, next := 0, host := 0x4000, ctrl := 6, target := 5, off := 0, rowBytes := 64, rows := 1, hostStride := 64, hearthStride := 64, sealWord := 0, tag := 9, rsv := 0, list := some 0x1000 }] }, 3, { addr := 0x1000, next := 0, host := 0x4000, ctrl := 6, target := 5, off := 0, rowBytes := 64, rows := 1, hostStride := 64, hearthStride := 64, sealWord := 0, tag := 9, rsv := 0, list := some 0x1000 }, [], by decide +kernel⟩
theorem wit_DescriptorsRunToTheirOutcome_5 : ∃ (s : State) (c : Nat) (d : Desc) (ds : List Desc) (code : Nat),
    (c < 112) ∧ ((s.chan c).cur = none) ∧ ((s.chan c).pre = d :: ds) ∧ ((s.chan c).aborting = false) ∧ ((s.chan c).reruns d = false) ∧ ((if d.first then s.dropFill c true else s).descOutcome c d = some code) :=
  ⟨(((r0.put (Reg.OWN_OWNER 0) 1)).setHandle 5 { alloc := true, owner := 1, sizes := [65536], cells := [[8]], st := .faulted }).setChan 3 { pre := [{ ({ addr := 0x1000, next := 0, host := 0x4000, ctrl := 6, target := 5, off := 0, rowBytes := 64, rows := 1, hostStride := 64, hearthStride := 64, sealWord := 0, tag := 9, rsv := 0, list := some 0x1000 } : Desc) with host := 0, rows := 0 }] }, 3, { ({ addr := 0x1000, next := 0, host := 0x4000, ctrl := 6, target := 5, off := 0, rowBytes := 64, rows := 1, hostStride := 64, hearthStride := 64, sealWord := 0, tag := 9, rsv := 0, list := some 0x1000 } : Desc) with host := 0, rows := 0 }, [], 6, by decide +kernel⟩
theorem wit_DescriptorsRunToTheirOutcome_6 : ∃ (s : State) (c : Nat) (d : Desc) (ds : List Desc),
    (c < 112) ∧ ((s.chan c).cur = none) ∧ ((s.chan c).pre = d :: ds) ∧ ((s.chan c).aborting = false) ∧ ((s.chan c).reruns d = false) ∧ ((if d.first then s.dropFill c true else s).descOutcome c d = none) :=
  ⟨(((r0.put (Reg.OWN_OWNER 0) 1)).setHandle 5 { alloc := true, owner := 1, sizes := [65536], cells := [[8]], st := .empty }).setChan 3 { pre := [{ addr := 0x1000, next := 0, host := 0x4000, ctrl := 6, target := 5, off := 0, rowBytes := 64, rows := 1, hostStride := 64, hearthStride := 64, sealWord := 0, tag := 9, rsv := 0, list := some 0x1000 }] }, 3, { addr := 0x1000, next := 0, host := 0x4000, ctrl := 6, target := 5, off := 0, rowBytes := 64, rows := 1, hostStride := 64, hearthStride := 64, sealWord := 0, tag := 9, rsv := 0, list := some 0x1000 }, [], by decide +kernel⟩
theorem wit_DescriptorsRunToTheirOutcome_7 : ∃ (s : State) (c : Nat) (u : Cur),
    (c < 112) ∧ ((s.chan c).cur = some u) ∧ (s.attemptDone c u = false) :=
  ⟨(((r0.put (Reg.OWN_OWNER 0) 1)).setHandle 5 { alloc := true, owner := 1, sizes := [65536], cells := [[8]], st := .empty }).setChan 3 { cur := some { d := { addr := 0x1000, next := 0, host := 0x4000, ctrl := 6, target := 5, off := 0, rowBytes := 64, rows := 1, hostStride := 64, hearthStride := 64, sealWord := 0, tag := 9, rsv := 0, list := some 0x1000 } } }, 3, { d := { addr := 0x1000, next := 0, host := 0x4000, ctrl := 6, target := 5, off := 0, rowBytes := 64, rows := 1, hostStride := 64, hearthStride := 64, sealWord := 0, tag := 9, rsv := 0, list := some 0x1000 } }, by decide +kernel⟩
theorem wit_DescriptorsRunToTheirOutcome_8 : ∃ (s : State) (c : Nat) (u : Cur),
    (c < 112) ∧ ((s.chan c).cur = some u) ∧ ((s.chan c).aborting = false) ∧ (s.attemptDone c u = true) ∧ ((u.d.fills && ((s.chan c).fill.any fun f => f.dropped)) = false) ∧ (u.conflict = false) ∧ ((u.d.toHost && u.changed) = false) ∧ (u.cause ≠ 0) ∧ (u.attempt = 1) :=
  ⟨(((r0.put (Reg.OWN_OWNER 0) 1)).setHandle 5 { alloc := true, owner := 1, sizes := [65536], cells := [[8]], st := .filling }).setChan 3 { cur := some { d := { addr := 0x1000, next := 0, host := 0x4000, ctrl := 6, target := 5, off := 0, rowBytes := 64, rows := 1, hostStride := 64, hearthStride := 64, sealWord := 0, tag := 9, rsv := 0, list := some 0x1000 }, asked := 64, cause := 1, wrote := 64, arrived := [(0, List.replicate 64 1#8)] }, fill := some { handle := 5, first := 0x1000, started := true } }, 3, { d := { addr := 0x1000, next := 0, host := 0x4000, ctrl := 6, target := 5, off := 0, rowBytes := 64, rows := 1, hostStride := 64, hearthStride := 64, sealWord := 0, tag := 9, rsv := 0, list := some 0x1000 }, asked := 64, cause := 1, wrote := 64, arrived := [(0, List.replicate 64 1#8)] }, by decide +kernel⟩
theorem wit_DescriptorsRunToTheirOutcome_9 : ∃ (s : State) (c : Nat) (u : Cur) (f : Fill),
    (c < 112) ∧ ((s.chan c).cur = some u) ∧ ((s.chan c).aborting = false) ∧ (s.attemptDone c u = true) ∧ ((s.chan c).fill = some f) ∧ (f.handle = u.d.handle) ∧ (u.d.fills = true) ∧ (u.conflict = false) ∧ (f.dropped = false) ∧ (f.started = true) ∧ (f.bad = false) ∧ (f.ended = false) ∧ (s.wroteMoved c = false) ∧ (s.wroteBad c = false) ∧ (u.cause = 0) ∧ (u.d.last = true) ∧ (u.d.sealEn = false ∨ (s.is Reg.DMA_INJ_SEAL = false ∧ f.pass = 1 ∧ crcFinal (crc32cUpdate f.crc u.ordered) = u.d.sealWord)) ∧ ((s.handle f.handle).st = .filling) ∧ (u.attempt < 256) :=
  ⟨(((r0.put (Reg.OWN_OWNER 0) 1)).setHandle 5 { alloc := true, owner := 1, sizes := [65536], cells := [[8]], st := .filling }).setChan 3 { cur := some { d := { addr := 0x1000, next := 0, host := 0x4000, ctrl := 6, target := 5, off := 0, rowBytes := 64, rows := 1, hostStride := 64, hearthStride := 64, sealWord := 0, tag := 9, rsv := 0, list := some 0x1000 }, asked := 64, wrote := 64, arrived := [(0, List.replicate 64 1#8)] }, fill := some { handle := 5, first := 0x1000, started := true } }, 3, { d := { addr := 0x1000, next := 0, host := 0x4000, ctrl := 6, target := 5, off := 0, rowBytes := 64, rows := 1, hostStride := 64, hearthStride := 64, sealWord := 0, tag := 9, rsv := 0, list := some 0x1000 }, asked := 64, wrote := 64, arrived := [(0, List.replicate 64 1#8)] }, { handle := 5, first := 0x1000, started := true }, by decide +kernel⟩
theorem wit_DescriptorsRunToTheirOutcome_10 : ∃ (s : State) (c : Nat) (u : Cur),
    (c < 112) ∧ ((s.chan c).aborting = true) ∧ (s.openReqs c = []) ∧ (s.inFlight c = false) ∧ (s.postedOpen c = false) ∧ ((s.chan c).cur = some u) :=
  ⟨(((r0.put (Reg.OWN_OWNER 0) 1)).setHandle 5 { alloc := true, owner := 1, sizes := [65536], cells := [[8]], st := .filling }).setChan 3 { aborting := true, lists := [64], cur := some { d := { addr := 0x1000, next := 0, host := 0x4000, ctrl := 6, target := 5, off := 0, rowBytes := 64, rows := 1, hostStride := 64, hearthStride := 64, sealWord := 0, tag := 9, rsv := 0, list := some 0x1000 }, asked := 64, wrote := 64, arrived := [(0, List.replicate 64 1#8)] }, fill := some { handle := 5, first := 0x1000, started := true } }, 3, { d := { addr := 0x1000, next := 0, host := 0x4000, ctrl := 6, target := 5, off := 0, rowBytes := 64, rows := 1, hostStride := 64, hearthStride := 64, sealWord := 0, tag := 9, rsv := 0, list := some 0x1000 }, asked := 64, wrote := 64, arrived := [(0, List.replicate 64 1#8)] }, by decide +kernel⟩
theorem wit_DescriptorsRunToTheirOutcome_11 : ∃ (s : State) (c : Nat),
    (c < 112) ∧ ((s.chan c).aborting = false ∨ s.openReqs c ≠ [] ∨ s.inFlight c = true ∨ s.postedOpen c = true) :=
  ⟨r0, 3, by decide +kernel⟩
theorem wit_RequestsTimeOutAndTagsAreHeld_1 : ∃ (s : State),
    (s.akUp = false) :=
  ⟨r0, by decide +kernel⟩
theorem wit_RequestsTimeOutAndTagsAreHeld_2 : ∃ (s : State) (c : Nat) (tag : Nat) (u : Cur),
    (s.akUp = true) ∧ (s.stageLevels.nextChan = some c) ∧ (s.freeTag = some tag) ∧ ((s.chan c).cur = some u) ∧ (s.wantsDesc c = none) ∧ (u.d.toHost = false) :=
  ⟨(((((r0.put (Reg.OWN_OWNER 0) 1)).setHandle 5 { alloc := true, owner := 1, sizes := [65536], cells := [[8]], st := .empty }).setChan 3 { cur := some { d := { addr := 0x1000, next := 0, host := 0x4000, ctrl := 6, target := 5, off := 0, rowBytes := 64, rows := 1, hostStride := 64, hearthStride := 64, sealWord := 0, tag := 9, rsv := 0, list := some 0x1000 } } }).put Reg.AK_STATUS_STATE 6), 3, 0, { d := { addr := 0x1000, next := 0, host := 0x4000, ctrl := 6, target := 5, off := 0, rowBytes := 64, rows := 1, hostStride := 64, hearthStride := 64, sealWord := 0, tag := 9, rsv := 0, list := some 0x1000 } }, by decide +kernel⟩
theorem wit_RequestsTimeOutAndTagsAreHeld_3 : ∃ (s : State) (c : Nat) (tag : Nat) (r : Reading),
    (s.akUp = true) ∧ (s.stageLevels.nextChan = some c) ∧ (s.freeTag = some tag) ∧ (s.wantsDesc c = some r) :=
  ⟨((r0.put Reg.AK_STATUS_STATE 6).setChan 3 { lists := [64] }), 3, 0, ⟨64, some 64, false⟩, by decide +kernel⟩
theorem wit_RequestsTimeOutAndTagsAreHeld_4 : ∃ (s : State) (tag : Nat) (r : Req) (u : Cur),
    (s.dma.reqs.find? (fun r => r.tag == tag) = some r) ∧ (s.akUp = true) ∧ ((s.chan r.chan).aborting = false) ∧ (r.dead = false) ∧ (r.desc = false) ∧ ((s.chan r.chan).cur = some u) ∧ (u.cause = 0) :=
  ⟨{ (((((r0.put (Reg.OWN_OWNER 0) 1)).setHandle 5 { alloc := true, owner := 1, sizes := [65536], cells := [[8]], st := .empty }).setChan 3 { cur := some { d := { addr := 0x1000, next := 0, host := 0x4000, ctrl := 6, target := 5, off := 0, rowBytes := 64, rows := 1, hostStride := 64, hearthStride := 64, sealWord := 0, tag := 9, rsv := 0, list := some 0x1000 } } }).put Reg.AK_STATUS_STATE 6) with dma := { (((((r0.put (Reg.OWN_OWNER 0) 1)).setHandle 5 { alloc := true, owner := 1, sizes := [65536], cells := [[8]], st := .empty }).setChan 3 { cur := some { d := { addr := 0x1000, next := 0, host := 0x4000, ctrl := 6, target := 5, off := 0, rowBytes := 64, rows := 1, hostStride := 64, hearthStride := 64, sealWord := 0, tag := 9, rsv := 0, list := some 0x1000 } } }).put Reg.AK_STATUS_STATE 6).dma with reqs := [⟨7, 3, 0x4000, 64, false, 0, [], false⟩], held := [(9, 4)] } }, 7, ⟨7, 3, 0x4000, 64, false, 0, [], false⟩, { d := { addr := 0x1000, next := 0, host := 0x4000, ctrl := 6, target := 5, off := 0, rowBytes := 64, rows := 1, hostStride := 64, hearthStride := 64, sealWord := 0, tag := 9, rsv := 0, list := some 0x1000 } }, by decide +kernel⟩
theorem wit_RequestsTimeOutAndTagsAreHeld_5 : ∃ (s : State) (tag : Nat) (r : Req),
    (s.dma.reqs.find? (fun r => r.tag == tag) = some r) ∧ (s.akUp = true) ∧ ((s.chan r.chan).aborting = false) ∧ (r.dead = false) ∧ (r.desc = true) :=
  ⟨{ (((((r0.put (Reg.OWN_OWNER 0) 1)).setHandle 5 { alloc := true, owner := 1, sizes := [65536], cells := [[8]], st := .empty }).setChan 3 { cur := some { d := { addr := 0x1000, next := 0, host := 0x4000, ctrl := 6, target := 5, off := 0, rowBytes := 64, rows := 1, hostStride := 64, hearthStride := 64, sealWord := 0, tag := 9, rsv := 0, list := some 0x1000 } } }).put Reg.AK_STATUS_STATE 6) with dma := { (((((r0.put (Reg.OWN_OWNER 0) 1)).setHandle 5 { alloc := true, owner := 1, sizes := [65536], cells := [[8]], st := .empty }).setChan 3 { cur := some { d := { addr := 0x1000, next := 0, host := 0x4000, ctrl := 6, target := 5, off := 0, rowBytes := 64, rows := 1, hostStride := 64, hearthStride := 64, sealWord := 0, tag := 9, rsv := 0, list := some 0x1000 } } }).put Reg.AK_STATUS_STATE 6).dma with reqs := [⟨7, 3, 0x4000, 64, true, 0, [], false⟩], held := [(9, 4)] } }, 7, ⟨7, 3, 0x4000, 64, true, 0, [], false⟩, by decide +kernel⟩
theorem wit_RequestsTimeOutAndTagsAreHeld_6 : ∃ (s : State),
    (s.akUp = false) :=
  ⟨{ r0 with dma := { r0.dma with reqs := [⟨7, 3, 0x4000, 64, false, 0, [], false⟩], held := [(9, 4)] } }, by decide +kernel⟩
theorem wit_RequestsTimeOutAndTagsAreHeld_8 : ∃ (s : State) (c : Nat) (f : Fill),
    (c < 112) ∧ ((s.chan c).fill = some f) ∧ ((s.pendNames f.handle || s.heldNames f.handle) = true) :=
  ⟨((r0.setMode 0 .running).modPipe 0 fun x => { x with pend := [{ pend0 with img := imgLay false }] }).setChan 3 { fill := some { handle := 5, first := 0 } }, 3, { handle := 5, first := 0 }, by decide +kernel⟩
theorem wit_RequestsTimeOutAndTagsAreHeld_9 : ∃ (s : State) (c : Nat),
    (c < 112) ∧ ((s.chan c).fill = none) :=
  ⟨r0, 3, by decide +kernel⟩
theorem wit_DecoderSessionCommands_1 : ∃ (s : State) (o : Origin) (i : Nat) (r : Nat),
    (i < 16) ∧ (s.accepts o (Reg.a_DS_CMD i) 1#32 = true) ∧ (s.is (Reg.DS_RESULT_BUSY i) = false) ∧ ((s.decTaken i).decReason i = some r) :=
  ⟨((r0.put Reg.HM_STATUS_READY 1).put (Reg.OWN_OWNER 14) 1), .host, 2, 2, by decide +kernel⟩
theorem wit_DecoderSessionCommands_2 : ∃ (s : State) (o : Origin) (i : Nat) (r : AdmResult),
    (i < 16) ∧ (s.accepts o (Reg.a_DS_CMD i) 1#32 = true) ∧ (s.is (Reg.DS_RESULT_BUSY i) = false) ∧ ((s.decTaken i).decReason i = none) ∧ (s.decAdmission i = some r) :=
  ⟨dec0.put Reg.CAPACITY_BUDGET_TOKENS 0, .host, 2, ⟨6, 53, 0, none⟩, by decide +kernel⟩
theorem wit_DecoderSessionCommands_3 : ∃ (s : State) (o : Origin) (i : Nat),
    (i < 16) ∧ (s.accepts o (Reg.a_DS_CMD i) 1#32 = true) ∧ (s.is (Reg.DS_RESULT_BUSY i) = false) ∧ ((s.decTaken i).decReason i = none) ∧ (s.decAdmission i = none) ∧ (s.placePlanes s.heldCells (s.decPlanes i) = none) :=
  ⟨{ dec0 with hm := { dec0.hm with zeroing := [0, 1, 2, 3, 4, 5, 6, 7] } }, .host, 2, by decide +kernel⟩
theorem wit_DecoderSessionCommands_4 : ∃ (s : State) (o : Origin) (i : Nat) (cs : List (List Nat)),
    (i < 16) ∧ (s.accepts o (Reg.a_DS_CMD i) 1#32 = true) ∧ (s.is (Reg.DS_RESULT_BUSY i) = false) ∧ ((s.decTaken i).decReason i = none) ∧ (s.decAdmission i = none) ∧ (s.placePlanes s.heldCells (s.decPlanes i) = some cs) :=
  ⟨dec0, .host, 2, ((dec0.placePlanes dec0.heldCells (dec0.decPlanes 2)).getD []), by decide +kernel⟩
theorem wit_DecoderSessionCommands_5 : ∃ (s : State) (o : Origin) (i : Nat),
    (i < 16) ∧ (s.accepts o (Reg.a_DS_CMD i) 2#32 = true) ∧ (s.is (Reg.DS_RESULT_BUSY i) = false) ∧ (s.get (Reg.DS_STATUS_STATE i) = 0) :=
  ⟨((r0.put Reg.HM_STATUS_READY 1).put (Reg.OWN_OWNER 14) 1), .host, 2, by decide +kernel⟩
theorem wit_DecoderSessionCommands_6 : ∃ (s : State) (o : Origin) (i : Nat),
    (i < 16) ∧ (s.accepts o (Reg.a_DS_CMD i) 3#32 = true) ∧ (s.is (Reg.DS_RESULT_BUSY i) = false) ∧ (s.get (Reg.DS_STATUS_STATE i) = 0) :=
  ⟨((r0.put Reg.HM_STATUS_READY 1).put (Reg.OWN_OWNER 14) 1), .host, 2, by decide +kernel⟩
theorem wit_DecoderSessionCommands_7 : ∃ (s : State) (o : Origin) (i : Nat),
    (i < 16) ∧ (s.accepts o (Reg.a_DS_CMD i) 4#32 = true) ∧ (s.is (Reg.DS_RESULT_BUSY i) = false) ∧ (s.get (Reg.DS_STATUS_STATE i) = 0) :=
  ⟨((r0.put Reg.HM_STATUS_READY 1).put (Reg.OWN_OWNER 14) 1), .host, 2, by decide +kernel⟩
theorem wit_DecoderSessionCommands_8 : ∃ (s : State) (o : Origin) (i : Nat),
    (i < 16) ∧ (s.accepts o (Reg.a_DS_CMD i) 2#32 = true) ∧ (s.is (Reg.DS_RESULT_BUSY i) = false) ∧ (s.get (Reg.DS_STATUS_STATE i) ≠ 0) ∧ ((s.dses i).quiet = true) :=
  ⟨decRun, .host, 2, by decide +kernel⟩
theorem wit_DecoderSessionCommands_9 : ∃ (s : State) (o : Origin) (i : Nat),
    (i < 16) ∧ (s.accepts o (Reg.a_DS_CMD i) 2#32 = true) ∧ (s.is (Reg.DS_RESULT_BUSY i) = false) ∧ (s.get (Reg.DS_STATUS_STATE i) ≠ 0) ∧ ((s.dses i).quiet = false) :=
  ⟨decRun.setDses 2 { dpb := [(pic2 0 false true)], fifo := [1#8] }, .host, 2, by decide +kernel⟩
theorem wit_DecoderSessionCommands_10 : ∃ (s : State) (o : Origin) (i : Nat),
    (i < 16) ∧ (s.accepts o (Reg.a_DS_CMD i) 3#32 = true) ∧ (s.is (Reg.DS_RESULT_BUSY i) = false) ∧ (s.get (Reg.DS_STATUS_STATE i) ≠ 0) ∧ ((s.dses i).quiet = false) :=
  ⟨decRun.setDses 2 { dpb := [(pic2 0 false true)] }, .host, 2, by decide +kernel⟩
theorem wit_DecoderSessionCommands_11 : ∃ (s : State) (o : Origin) (i : Nat),
    (i < 16) ∧ (s.accepts o (Reg.a_DS_CMD i) 3#32 = true) ∧ (s.is (Reg.DS_RESULT_BUSY i) = false) ∧ (s.get (Reg.DS_STATUS_STATE i) = 1 ∨ s.get (Reg.DS_STATUS_STATE i) = 2) ∧ ((s.dses i).quiet = true) :=
  ⟨decRun.setDses 2 { dpb := [(pic2 0 false false)] }, .host, 2, by decide +kernel⟩
theorem wit_DecoderSessionCommands_12 : ∃ (s : State) (o : Origin) (i : Nat),
    (i < 16) ∧ (s.accepts o (Reg.a_DS_CMD i) 4#32 = true) ∧ (s.is (Reg.DS_RESULT_BUSY i) = false) ∧ (s.get (Reg.DS_STATUS_STATE i) = 1 ∨ s.get (Reg.DS_STATUS_STATE i) = 2) :=
  ⟨decRun.setDses 2 { dpb := [(pic2 0 false true)], cur := some (pic2 0 false true) }, .host, 2, by decide +kernel⟩
theorem wit_DecoderSessionCommands_13 : ∃ (s : State) (o : Origin) (i : Nat),
    (i < 16) ∧ (s.accepts o (Reg.a_DS_CMD i) 1#32 = true) ∧ (s.is (Reg.DS_RESULT_BUSY i) = true) :=
  ⟨((r0.put Reg.HM_STATUS_READY 1).put (Reg.OWN_OWNER 14) 1).put (Reg.DS_RESULT_BUSY 2) 1, .host, 2, by decide +kernel⟩
theorem wit_DecoderSessionCommands_14 : ∃ (s : State) (i : Nat) (code : Nat) (detail : Nat),
    (i < 16) ∧ ((s.dses i).busy = some (code, detail)) ∧ (s.dsLost i = false) ∧ (code < 16) ∧ (detail < 2 ^ 32) :=
  ⟨((r0.put Reg.HM_STATUS_READY 1).put (Reg.OWN_OWNER 14) 1).setDses 2 { busy := some (1, 2) }, 2, 1, 2, by decide +kernel⟩
theorem wit_DecoderSessionCommands_15 : ∃ (s : State) (i : Nat) (code : Nat) (detail : Nat),
    (i < 16) ∧ ((s.dses i).busy = some (code, detail)) ∧ (s.dsLost i = true) :=
  ⟨((r0.put Reg.HM_STATUS_READY 1).put (Reg.OWN_OWNER 14) 1).setDses 2 { busy := some (0, 0), openBy := 2 }, 2, 0, 0, by decide +kernel⟩
theorem wit_PicturesAreDecodedOrConcealed_1 : ∃ (s : State) (i : Nat) (f : PicFacts),
    (i < 16) ∧ (s.is Reg.DEC_STATUS_BUSY = false) ∧ (s.is Reg.DEC_STATUS_FENCED = false) ∧ ((s.dses i).flushing = false) ∧ (s.is Reg.DEC_INJ_PAR = false) ∧ (s.get (Reg.DS_STATUS_STATE i) = 1 ∨ s.get (Reg.DS_STATUS_STATE i) = 2) ∧ (f.layer = 0) ∧ (f.irap = true) ∧ (s.spsOk i f = true) ∧ ((s.dses i).creditD ≤ (s.dses i).creditN ∨ s.get Reg.PWR_GRANT_DEC ≠ 0) :=
  ⟨((dec0.put (Reg.DS_STATUS_STATE 2) 1).setDses 2 { fifo := [1#8, 2#8, 3#8, 4#8] }).setDses 2 { creditN := 1 }, 2, irap0, by decide +kernel⟩
theorem wit_PicturesAreDecodedOrConcealed_2 : ∃ (s : State) (i : Nat) (f : PicFacts),
    (i < 16) ∧ (s.is Reg.DEC_STATUS_BUSY = false) ∧ (s.is Reg.DEC_STATUS_FENCED = false) ∧ ((s.dses i).flushing = false) ∧ (s.is Reg.DEC_INJ_PAR = false) ∧ (s.get (Reg.DS_STATUS_STATE i) = 2) ∧ ((s.dses i).spsBad = false) ∧ ((s.dses i).ignores f = false) ∧ (f.irap = false) ∧ ((s.dses i).creditD ≤ (s.dses i).creditN ∨ s.get Reg.PWR_GRANT_DEC ≠ 0) :=
  ⟨decRun.setDses 2 { creditN := 1, dpb := [pic2 3 false false] }, 2, { irap0 with irap := false, refs := [3, 4], poc := 5, keep := [3] }, by decide +kernel⟩
theorem wit_PicturesAreDecodedOrConcealed_3 : ∃ (s : State) (i : Nat) (f : PicFacts),
    (i < 16) ∧ (s.is Reg.DEC_STATUS_BUSY = false) ∧ (s.is Reg.DEC_STATUS_FENCED = false) ∧ ((s.dses i).flushing = false) ∧ (s.is Reg.DEC_INJ_PAR = false) ∧ (s.get (Reg.DS_STATUS_STATE i) = 1 ∨ s.get (Reg.DS_STATUS_STATE i) = 2) ∧ (f.layer = 0) ∧ (f.irap = true) ∧ (s.spsOk i f = false) :=
  ⟨((dec0.put (Reg.DS_STATUS_STATE 2) 1).setDses 2 { fifo := [1#8, 2#8, 3#8, 4#8] }), 2, { irap0 with chroma := 3 }, by decide +kernel⟩
theorem wit_PicturesAreDecodedOrConcealed_4 : ∃ (s : State),
    (s.is Reg.DEC_STATUS_BUSY = true ∨ s.is Reg.DEC_STATUS_FENCED = true) :=
  ⟨((dec0.put (Reg.DS_STATUS_STATE 2) 1).setDses 2 { fifo := [1#8, 2#8, 3#8, 4#8] }).put Reg.DEC_STATUS_BUSY 1, by decide +kernel⟩
theorem wit_PicturesAreDecodedOrConcealed_5 : ∃ (s : State) (i : Nat) (q : DecPic) (rd : List Nat),
    (s.is Reg.DEC_INJ_WDT = false) ∧ (s.is Reg.DEC_INJ_CACHE = false) ∧ (s.decoding = some (i, q)) ∧ ((s.dses i).expired = false) ∧ (q.hash = none ∨ s.is (Reg.DS_POLICY_HASH_EN i) = false) ∧ (rd.all (fun a => !s.forcedDouble a) = true) ∧ (s.get (Reg.DS_STATUS_STATE i) ≠ 3) ∧ ((s.dses i).flushing = false) :=
  ⟨(decRun.setDses 2 { cur := some (pic2 0 false true) }), 2, (pic2 0 false true), [], by decide +kernel⟩
theorem wit_PicturesAreDecodedOrConcealed_6 : ∃ (s : State),
    (s.decoding = none) :=
  ⟨decRun, by decide +kernel⟩
theorem wit_PicturesAreDecodedOrConcealed_7 : ∃ (s : State) (i : Nat) (q : DecPic),
    (s.is Reg.DEC_INJ_WDT = false) ∧ (s.decoding = some (i, q)) ∧ ((s.dses i).expired = false) ∧ (s.get (Reg.DS_STATUS_STATE i) ≠ 3) ∧ ((s.dses i).flushing = false) :=
  ⟨(decRun.setDses 2 { cur := some (pic2 0 false true) }), 2, (pic2 0 false true), by decide +kernel⟩
theorem wit_PicturesAreDecodedOrConcealed_8 : ∃ (s : State) (i : Nat) (q : DecPic),
    (s.is Reg.DEC_INJ_WDT = false) ∧ (s.decoding = some (i, q)) ∧ ((s.dses i).expired = true) :=
  ⟨(decRun.setDses 2 { expired := true, cur := some (pic2 0 false true) }), 2, (pic2 0 false true), by decide +kernel⟩
theorem wit_PicturesAreDecodedOrConcealed_9 : ∃ (s : State),
    (s.is Reg.DEC_INJ_WDT = false) ∧ (s.decoding = none) :=
  ⟨decRun, by decide +kernel⟩
theorem wit_PicturesAreDecodedOrConcealed_10 : ∃ (s : State) (o : Origin) (v : Word),
    (s.accepts o (Reg.a_DEC_CTRL) v = true) ∧ (bit v.toNat 0 = true) :=
  ⟨((r0.put Reg.HM_STATUS_READY 1).put (Reg.OWN_OWNER 14) 1).put Reg.DEC_STATUS_FENCED 1, .host, 1#32, by decide +kernel⟩
theorem wit_PicturesAreDecodedOrConcealed_11 : ∃ (s : State) (o : Origin) (v : Word),
    (s.accepts o (Reg.a_DEC_INJ) v = true) :=
  ⟨((r0.put Reg.HM_STATUS_READY 1).put (Reg.OWN_OWNER 14) 1), .host, 5#32, by decide +kernel⟩
theorem wit_PicturesLeaveInOutputOrder_1 : ∃ (s : State) (i : Nat),
    ((s.dses i).due = none) :=
  ⟨decRun, 2, by decide +kernel⟩
theorem wit_PicturesLeaveInOutputOrder_2 : ∃ (s : State) (i : Nat) (q : DecPic),
    ((s.dses i).due = some q) :=
  ⟨decRun.setDses 2 { dpb := [(pic2 4 false true)] }, 2, (pic2 4 false true), by decide +kernel⟩
theorem wit_PicturesLeaveInOutputOrder_3 : ∃ (s : State) (i : Nat) (q : DecPic),
    (i < 16) ∧ ((s.dses i).due = some q) ∧ ((s.dses i).writing = none) ∧ (q.taint = true) ∧ (s.is (Reg.DS_POLICY_TAINT_POLICY i) = false) :=
  ⟨decRun.setDses 2 { dpb := [(pic2 4 true true)] }, 2, (pic2 4 true true), by decide +kernel⟩
theorem wit_PicturesLeaveInOutputOrder_4 : ∃ (s : State) (i : Nat) (q : DecPic) (j : Nat),
    (i < 16) ∧ ((s.dses i).due = some q) ∧ ((s.dses i).writing = none) ∧ (s.heldClean i q = false) ∧ ((s.entryWords i q).all (fun a => !s.forcedDouble a) = true) ∧ (s.ringEntry i = some j) :=
  ⟨decRun.setDses 2 { dpb := [(pic2 4 false true)] }, 2, (pic2 4 false true), 0, by decide +kernel⟩
theorem wit_PicturesLeaveInOutputOrder_5 : ∃ (s : State) (i : Nat) (q : DecPic),
    (i < 16) ∧ ((s.dses i).due = some q) ∧ ((s.dses i).writing = none) ∧ (s.heldClean i q = false) ∧ ((s.entryWords i q).all (fun a => !s.forcedDouble a) = true) ∧ (s.ringEntry i = none) :=
  ⟨(decRun.setDses 2 { dpb := [(pic2 4 false true)] }).setHandle 0 {}, 2, (pic2 4 false true), by decide +kernel⟩
theorem wit_PicturesLeaveInOutputOrder_6 : ∃ (s : State) (i : Nat) (w : DecWr),
    (i < 16) ∧ ((s.dses i).writing = some w) ∧ (s.inFlight (128 + i) = false) ∧ (s.wroteBad (128 + i) = false) ∧ (s.wroteMoved (128 + i) = false) ∧ ((s.handle w.handle).st = .filling) :=
  ⟨decWr, 2, ⟨0, 0, pic2 0 true true⟩, by decide +kernel⟩
theorem wit_PicturesLeaveInOutputOrder_7 : ∃ (s : State) (i : Nat) (w : DecWr),
    (i < 16) ∧ ((s.dses i).writing = some w) ∧ (s.inFlight (128 + i) = false) ∧ (s.wroteBad (128 + i) = true) :=
  ⟨{ decWr with hm := { decWr.hm with writeErr := [130] } }, 2, ⟨0, 0, pic2 0 true true⟩, by decide +kernel⟩
theorem wit_PicturesLeaveInOutputOrder_8 : ∃ (s : State) (i : Nat),
    ((s.dses i).writing = none ∨ s.inFlight (128 + i) = true) :=
  ⟨decRun, 2, by decide +kernel⟩
theorem wit_EncoderSessionCommands_1 : ∃ (s : State) (o : Origin) (i : Nat) (r : Nat),
    (i < 12) ∧ (s.accepts o (Reg.a_ES_CMD i) 1#32 = true) ∧ (s.is (Reg.ES_RESULT_BUSY i) = false) ∧ ((s.encTaken i).encReason i = some r) :=
  ⟨encRun, .host, 1, 1, by decide +kernel⟩
theorem wit_EncoderSessionCommands_2 : ∃ (s : State) (o : Origin) (i : Nat),
    (i < 12) ∧ (s.accepts o (Reg.a_ES_CMD i) 1#32 = true) ∧ (s.is (Reg.ES_RESULT_BUSY i) = false) ∧ ((s.encTaken i).encReason i = none) ∧ (((s.encTaken i).figures s.orbit.sheds ((s.encTaken i).world [])).cellsAvail < ((s.encTaken i).figures s.orbit.sheds ((s.encTaken i).world [])).cells + s.encCells i) :=
  ⟨enc0.put Reg.CAPACITY_HEARTH_CH 0, .host, 1, by decide +kernel⟩
theorem wit_EncoderSessionCommands_3 : ∃ (s : State) (o : Origin) (i : Nat),
    (i < 12) ∧ (s.accepts o (Reg.a_ES_CMD i) 1#32 = true) ∧ (s.is (Reg.ES_RESULT_BUSY i) = false) ∧ ((s.encTaken i).encReason i = none) ∧ (((s.encTaken i).figures s.orbit.sheds ((s.encTaken i).world [])).cells + s.encCells i ≤ ((s.encTaken i).figures s.orbit.sheds ((s.encTaken i).world [])).cellsAvail) ∧ ((s.encTaken i).placePlanes (s.encTaken i).heldCells ((s.encTaken i).encPlanes i) = none) :=
  ⟨{ enc0 with hm := { enc0.hm with zeroing := [0, 1, 2, 3, 4, 5, 6, 7] } }, .host, 1, by decide +kernel⟩
theorem wit_EncoderSessionCommands_4 : ∃ (s : State) (o : Origin) (i : Nat) (cs : List (List Nat)),
    (i < 12) ∧ (s.accepts o (Reg.a_ES_CMD i) 1#32 = true) ∧ (s.is (Reg.ES_RESULT_BUSY i) = false) ∧ ((s.encTaken i).encReason i = none) ∧ (((s.encTaken i).figures s.orbit.sheds ((s.encTaken i).world [])).cells + s.encCells i ≤ ((s.encTaken i).figures s.orbit.sheds ((s.encTaken i).world [])).cellsAvail) ∧ ((s.encTaken i).placePlanes (s.encTaken i).heldCells ((s.encTaken i).encPlanes i) = some cs) :=
  ⟨enc0, .host, 1, (((enc0.encTaken 1).placePlanes (enc0.encTaken 1).heldCells ((enc0.encTaken 1).encPlanes 1)).getD []), by decide +kernel⟩
theorem wit_EncoderSessionCommands_5 : ∃ (s : State) (o : Origin) (i : Nat),
    (i < 12) ∧ (s.accepts o (Reg.a_ES_CMD i) 2#32 = true) ∧ (s.is (Reg.ES_RESULT_BUSY i) = false) ∧ (s.get (Reg.ES_STATUS_STATE i) = 0) :=
  ⟨enc0, .host, 1, by decide +kernel⟩
theorem wit_EncoderSessionCommands_6 : ∃ (s : State) (o : Origin) (i : Nat),
    (i < 12) ∧ (s.accepts o (Reg.a_ES_CMD i) 3#32 = true) ∧ (s.is (Reg.ES_RESULT_BUSY i) = false) ∧ (s.get (Reg.ES_STATUS_STATE i) = 0) :=
  ⟨enc0, .host, 1, by decide +kernel⟩
theorem wit_EncoderSessionCommands_7 : ∃ (s : State) (o : Origin) (i : Nat),
    (i < 12) ∧ (s.accepts o (Reg.a_ES_CMD i) 2#32 = true) ∧ (s.is (Reg.ES_RESULT_BUSY i) = false) ∧ (s.get (Reg.ES_STATUS_STATE i) ≠ 0) ∧ ((s.eses i).frames = []) ∧ ((s.eses i).coding = none) ∧ ((s.eses i).recs = []) :=
  ⟨encRun.setEses 1 { cap := some cap0 }, .host, 1, by decide +kernel⟩
theorem wit_EncoderSessionCommands_8 : ∃ (s : State) (o : Origin) (i : Nat),
    (i < 12) ∧ (s.accepts o (Reg.a_ES_CMD i) 2#32 = true) ∧ (s.is (Reg.ES_RESULT_BUSY i) = false) ∧ (s.get (Reg.ES_STATUS_STATE i) ≠ 0) ∧ ((s.eses i).frames ≠ [] ∨ (s.eses i).coding ≠ none ∨ (s.eses i).recs ≠ []) :=
  ⟨encRun.setEses 1 { recs := [16], cap := some cap0 }, .host, 1, by decide +kernel⟩
theorem wit_EncoderSessionCommands_9 : ∃ (s : State) (o : Origin) (i : Nat),
    (i < 12) ∧ (s.accepts o (Reg.a_ES_CMD i) 3#32 = true) ∧ (s.is (Reg.ES_RESULT_BUSY i) = false) ∧ (s.get (Reg.ES_STATUS_STATE i) ≠ 0) :=
  ⟨encRun, .host, 1, by decide +kernel⟩
theorem wit_EncoderSessionCommands_10 : ∃ (s : State) (o : Origin) (i : Nat),
    (i < 12) ∧ (s.accepts o (Reg.a_ES_CMD i) 1#32 = true) ∧ (s.is (Reg.ES_RESULT_BUSY i) = true) :=
  ⟨enc0.put (Reg.ES_RESULT_BUSY 1) 1, .host, 1, by decide +kernel⟩
theorem wit_EncoderSessionCommands_11 : ∃ (s : State) (i : Nat) (code : Nat) (detail : Nat),
    (i < 12) ∧ ((s.eses i).busy = some (code, detail)) ∧ (s.esLost i = false) ∧ (code < 16) ∧ (detail < 2 ^ 32) :=
  ⟨enc0.setEses 1 { busy := some (1, 2) }, 1, 1, 2, by decide +kernel⟩
theorem wit_EncoderSessionCommands_12 : ∃ (s : State) (i : Nat) (code : Nat) (detail : Nat),
    (i < 12) ∧ ((s.eses i).busy = some (code, detail)) ∧ (s.esLost i = true) :=
  ⟨enc0.setEses 1 { busy := some (0, 0), openBy := 2 }, 1, 0, 0, by decide +kernel⟩
theorem wit_PicturesAreCodedInOrder_1 : ∃ (s : State) (i : Nat) (c : CapFrame) (cs : List CapFrame) (rest : List Nat),
    (i < 12) ∧ (s.is Reg.ENC_INJ_PAR = false) ∧ (s.encCoding = none) ∧ (3 ≤ s.get Reg.PWR_GRANT_ENC) ∧ (s.enc.order = i :: rest) ∧ ((s.eses i).frames = c :: cs) :=
  ⟨encWait, 1, cap0, [], [], by decide +kernel⟩
theorem wit_PicturesAreCodedInOrder_2 : ∃ (s : State),
    (s.encCoding.isSome = true ∨ s.get Reg.PWR_GRANT_ENC < 3) :=
  ⟨r0, by decide +kernel⟩
theorem wit_PicturesAreCodedInOrder_3 : ∃ (s : State) (i : Nat) (c : CapFrame) (fs : List CtuFact) (slice : List Byte),
    (s.is Reg.ENC_INJ_WDT = false) ∧ (s.is Reg.ENC_INJ_SRAM = false) ∧ (s.encCoding = some i) ∧ ((s.eses i).coding = some c) ∧ (s.enc.expired = none) ∧ (((s.encReads i c (s.eses i).plan.idr).1 ++ (s.encReads i c (s.eses i).plan.idr).2).all (fun a => !s.forcedDouble a) = true) ∧ ((s.eses i).queued + sumNat ((s.encRecords i c ((s.encRating i c).code fs) slice).map List.length) ≤ s.encRing i) :=
  ⟨encBusy, 1, cap0, [], [2#8], by decide +kernel⟩
theorem wit_PicturesAreCodedInOrder_4 : ∃ (s : State) (i : Nat) (c : CapFrame) (fs : List CtuFact) (slice : List Byte),
    (s.is Reg.ENC_INJ_WDT = false) ∧ (s.is Reg.ENC_INJ_SRAM = false) ∧ (s.encCoding = some i) ∧ ((s.eses i).coding = some c) ∧ (s.enc.expired = none) ∧ (s.get (Reg.ES_STATUS_STATE i) = 1) ∧ (((s.encReads i c (s.eses i).plan.idr).1 ++ (s.encReads i c (s.eses i).plan.idr).2).all (fun a => !s.forcedDouble a) = true) ∧ (s.encRing i < (s.eses i).queued + sumNat ((s.encRecords i c ((s.encRating i c).code fs) slice).map List.length)) :=
  ⟨encBusy.put (Reg.ES_OUT_CELLS 1) 0, 1, cap0, [], [2#8], by decide +kernel⟩
theorem wit_PicturesAreCodedInOrder_5 : ∃ (s : State),
    (s.encCoding = none) :=
  ⟨encRun, by decide +kernel⟩
theorem wit_PicturesAreCodedInOrder_6 : ∃ (s : State) (i : Nat) (c : CapFrame),
    (s.is Reg.ENC_INJ_WDT = false) ∧ (s.encCoding = some i) ∧ ((s.eses i).coding = some c) ∧ (s.enc.expired = none) :=
  ⟨encBusy, 1, cap0, by decide +kernel⟩
theorem wit_PicturesAreCodedInOrder_7 : ∃ (s : State) (i : Nat) (c : CapFrame),
    (s.is Reg.ENC_INJ_WDT = false) ∧ (s.encCoding = some i) ∧ ((s.eses i).coding = some c) ∧ (s.enc.expired.isSome = true) :=
  ⟨{ encBusy with enc := { encBusy.enc with expired := some false } }, 1, cap0, by decide +kernel⟩
theorem wit_PicturesAreCodedInOrder_8 : ∃ (s : State),
    (s.is Reg.ENC_INJ_WDT = false) ∧ (s.encCoding = none) :=
  ⟨encRun, by decide +kernel⟩
theorem wit_PicturesAreCodedInOrder_9 : ∃ (s : State) (o : Origin) (v : Word),
    (s.accepts o (Reg.a_ENC_CTRL) v = true) ∧ (bit v.toNat 0 = true) :=
  ⟨enc0.put Reg.ENC_STATUS_FENCED 1, .host, 1#32, by decide +kernel⟩
theorem wit_PicturesAreCodedInOrder_10 : ∃ (s : State) (o : Origin) (v : Word),
    (s.accepts o (Reg.a_ENC_INJ) v = true) :=
  ⟨enc0, .host, 5#32, by decide +kernel⟩
theorem wit_LinkTrainsThroughItsStates_1 : ∃ (s : State) (k : Nat),
    (1 ≤ k) ∧ (k ≤ 4) ∧ (s.get Reg.AK_STATUS_STATE = k) ∧ (s.is Reg.AK_INJ_CLK = false) :=
  ⟨akIn 1, 1, by decide +kernel⟩
theorem wit_LinkTrainsThroughItsStates_2 : ∃ (s : State) (acc : Nat),
    (s.get Reg.AK_STATUS_STATE = 5) ∧ (inWidth (inLanes.filter fun l => !s.laneFenced l).length ≠ 0) ∧ (outWidth (outLanes.filter fun l => !s.laneFenced l && bit acc (l - 16)).length ≠ 0) :=
  ⟨akIn 5, 3, by decide +kernel⟩
theorem wit_LinkTrainsThroughItsStates_3 : ∃ (s : State) (acc : Nat),
    (s.get Reg.AK_STATUS_STATE = 5) ∧ (inWidth (inLanes.filter fun l => !s.laneFenced l).length = 0 ∨ outWidth (outLanes.filter fun l => !s.laneFenced l && bit acc (l - 16)).length = 0) :=
  ⟨akIn 5, 1, by decide +kernel⟩
theorem wit_LinkTrainsThroughItsStates_4 : ∃ (s : State),
    (s.get Reg.AK_STATUS_STATE = 1) ∧ (s.ak.fast = false) :=
  ⟨akIn 1, by decide +kernel⟩
theorem wit_LinkTrainsThroughItsStates_5 : ∃ (s : State) (missed : Nat) (k : Nat),
    (2 ≤ k) ∧ (k ≤ 5) ∧ (s.get Reg.AK_STATUS_STATE = k) ∧ ((akLanes.any fun l => bit missed l && !s.laneFenced l) = true) ∧ (inWidth (inLanes.filter fun l => !s.laneFenced l && !bit missed l).length ≠ 0) ∧ (outWidth (outLanes.filter fun l => !s.laneFenced l && !bit missed l).length ≠ 0) :=
  ⟨akIn 3, 0x20008, 3, by decide +kernel⟩
theorem wit_LinkTrainsThroughItsStates_6 : ∃ (s : State) (missed : Nat) (k : Nat),
    (2 ≤ k) ∧ (k ≤ 5) ∧ (s.get Reg.AK_STATUS_STATE = k) ∧ ((akLanes.any fun l => bit missed l && !s.laneFenced l) = true) ∧ (inWidth (inLanes.filter fun l => !s.laneFenced l && !bit missed l).length = 0 ∨ outWidth (outLanes.filter fun l => !s.laneFenced l && !bit missed l).length = 0) :=
  ⟨akIn 3, 0xE0008, 3, by decide +kernel⟩
theorem wit_LinkTrainsThroughItsStates_7 : ∃ (s : State) (missed : Nat) (k : Nat),
    (1 ≤ k) ∧ (k ≤ 5) ∧ (s.get Reg.AK_STATUS_STATE = k) ∧ (s.ak.fast = true) ∧ (missed = 0) :=
  ⟨{ akIn 4 with ak := { fast := true } }, 0, 4, by decide +kernel⟩
theorem wit_LinkTrainsThroughItsStates_8 : ∃ (s : State),
    (s.get Reg.AK_STATUS_STATE = 0 ∨ 6 ≤ s.get Reg.AK_STATUS_STATE) :=
  ⟨akIn 6, by decide +kernel⟩
theorem wit_LinkTrainsThroughItsStates_9 : ∃ (s : State) (o : Origin) (v : Word),
    (s.accepts o (Reg.a_AK_CTRL) v = true) ∧ (bit v.toNat 1 = true) :=
  ⟨akIn 6, .sp, 2#32, by decide +kernel⟩
theorem wit_LinkTrainsThroughItsStates_10 : ∃ (s : State) (o : Origin) (v : Word),
    (s.accepts o (Reg.a_AK_CTRL) v = true) ∧ (bit v.toNat 1 = false) ∧ (bit v.toNat 0 = true) ∧ (s.akLinked = true) :=
  ⟨akIn 6, .sp, 1#32, by decide +kernel⟩
theorem wit_LinkTrainsThroughItsStates_11 : ∃ (s : State),
    (s.get Reg.AK_STATUS_STATE = 0) ∧ (s.ak.begun = true) :=
  ⟨{ akIn 0 with ak := { begun := true } }, by decide +kernel⟩
theorem wit_LinkTrainsThroughItsStates_12 : ∃ (s : State),
    (s.get Reg.AK_STATUS_STATE ≠ 0 ∨ s.ak.begun = false) :=
  ⟨akIn 6, by decide +kernel⟩
theorem wit_LinkTrainsThroughItsStates_13 : ∃ (s : State) (l : Nat),
    (l < 20) ∧ (s.get Reg.AK_LANE_CFG_THR ≠ 0) ∧ (s.get Reg.AK_LANE_CFG_THR ≤ s.laneErrors l) ∧ (s.laneFenced l = false) ∧ (s.akLinked = true) ∧ (inWidth (inLanes.filter fun m => !s.laneFenced m && m != l).length ≠ 0) ∧ (outWidth (outLanes.filter fun m => !s.laneFenced m && m != l).length ≠ 0) :=
  ⟨{ ((akIn 6).put Reg.AK_LANE_CFG_THR 1).put (Reg.LN_ERR_WINDOW 3) 5 with ak := { laneErrs := [(3, 1)] } }, 3, by decide +kernel⟩
theorem wit_LinkTrainsThroughItsStates_14 : ∃ (s : State) (l : Nat),
    (s.laneErrors l < s.get Reg.AK_LANE_CFG_THR ∨ s.get Reg.AK_LANE_CFG_THR = 0) :=
  ⟨akIn 6, 3, by decide +kernel⟩
theorem wit_LinkTrainsThroughItsStates_15 : ∃ (s : State) (o : Origin) (l : Nat) (v : Word),
    (l < 20) ∧ (s.accepts o (Reg.a_LN_STATUS l) v = true) ∧ (bit v.toNat 31 = true) ∧ (s.laneFenced l = true) ∧ (s.cleared .AK_LANE_FENCE = true) :=
  ⟨(akIn 6).put (Reg.LN_STATUS_FENCED 3) 1, .sp, 3, 0x80000000#32, by decide +kernel⟩
theorem wit_LinkTrainsThroughItsStates_16 : ∃ (s : State) (o : Origin) (l : Nat) (v : Word),
    (l < 20) ∧ (s.accepts o (Reg.a_LN_STATUS l) v = true) ∧ (s.cleared .AK_LANE_FENCE = false) :=
  ⟨((akIn 6).put (Reg.LN_STATUS_FENCED 3) 1).put (Reg.FC_STAT_LATCHED (faultGroup FaultId.AK_LANE_FENCE.code)) 65535, .sp, 3, 0x80000000#32, by decide +kernel⟩
theorem wit_LinkTrainsThroughItsStates_17 : ∃ (s : State),
    (s.get Reg.AK_STATUS_STATE ≠ 0) ∧ (s.is Reg.AK_STATUS_INCK_LOCK = true) :=
  ⟨(akIn 6).put Reg.AK_STATUS_INCK_LOCK 1, by decide +kernel⟩
theorem wit_LinkTrainsThroughItsStates_18 : ∃ (s : State) (o : Origin) (v : Word),
    (s.accepts o (Reg.a_AK_INJ) v = true) ∧ (bit v.toNat 4 = false) ∧ (s.is Reg.AK_INJ_CLK = false) :=
  ⟨akIn 6, .sp, 0x230009#32, by decide +kernel⟩
theorem wit_LinkTrainsThroughItsStates_19 : ∃ (s : State) (o : Origin) (v : Word),
    (s.accepts o (Reg.a_AK_INJ) v = true) ∧ (bit v.toNat 4 = true) ∧ (s.get Reg.AK_STATUS_STATE ≠ 0) ∧ (s.is Reg.AK_STATUS_INCK_LOCK = true) :=
  ⟨(akIn 6).put Reg.AK_STATUS_INCK_LOCK 1, .sp, 0x10#32, by decide +kernel⟩
theorem wit_FlitsAreNumberedCheckedAndReplayed_1 : ∃ (s : State) (bs : List Byte),
    (s.akLinked = true) ∧ (s.ak.inq = []) ∧ (bs.length = 256) ∧ (s.is Reg.AK_INJ_SYNC = false) ∧ (s.is Reg.AK_INJ_CRC = false) ∧ ((flitCrc bs == bits (flitWord bs 248) 63 32) = false) ∧ (s.ak.failed = none) :=
  ⟨akIn 6, List.replicate 256 0#8, by decide +kernel⟩
theorem wit_FlitsAreNumberedCheckedAndReplayed_2 : ∃ (s : State) (bs : List Byte),
    (s.akLinked = true) ∧ (s.ak.inq = []) ∧ (bs.length = 256) ∧ (s.is Reg.AK_INJ_SYNC = false) ∧ (s.is Reg.AK_INJ_CRC = false) ∧ (flitCrc bs = bits (flitWord bs 248) 63 32) ∧ (s.ak.unacked = []) ∧ (s.ak.failed = none) ∧ (bit (flitWord bs 248) 7 = false) ∧ (bits (flitWord bs 0) 53 52 = 0) ∧ (bits (flitWord bs 0) 19 0 = 0) ∧ (bits (flitWord bs 248) 6 0 = 0) ∧ (bits (flitWord bs 0) 63 60 ≤ 2) ∧ ((bits (flitWord bs 248) 31 20 == s.get Reg.AK_SEQ_RX_EXPECT) = false) :=
  ⟨(akIn 6).put Reg.AK_SEQ_RX_EXPECT 3, initFlit 512, by decide +kernel⟩
theorem wit_FlitsAreNumberedCheckedAndReplayed_3 : ∃ (s : State) (bs : List Byte),
    (s.akLinked = true) ∧ (s.ak.inq = []) ∧ (bs.length = 256) ∧ (s.is Reg.AK_INJ_SYNC = false) ∧ (s.is Reg.AK_INJ_CRC = false) ∧ (flitCrc bs = bits (flitWord bs 248) 63 32) ∧ (s.ak.unacked = []) ∧ (s.ak.failed = none) ∧ (bit (flitWord bs 248) 7 = false) ∧ (bits (flitWord bs 0) 53 52 = 0) ∧ (bits (flitWord bs 0) 19 0 = 0) ∧ (bits (flitWord bs 248) 6 0 = 0) ∧ (bits (flitWord bs 0) 63 60 = 2) ∧ (bits (flitWord bs 248) 31 20 = s.get Reg.AK_SEQ_RX_EXPECT) ∧ (bs[8]? = some 1#8) ∧ (512 ≤ leNat ((bs.drop 10).take 2)) ∧ (2048 ≤ leNat ((bs.drop 12).take 2)) ∧ (leNat ((bs.drop 14).take 2) = 0xFFFF) ∧ (64 ≤ leNat ((bs.drop 16).take 2)) :=
  ⟨akIn 6, initFlit 512, by decide +kernel⟩
theorem wit_FlitsAreNumberedCheckedAndReplayed_4 : ∃ (s : State) (bs : List Byte),
    (s.akLinked = true) ∧ (s.ak.inq = []) ∧ (bs.length = 256) ∧ (s.is Reg.AK_INJ_SYNC = false) ∧ (s.is Reg.AK_INJ_CRC = false) ∧ (flitCrc bs = bits (flitWord bs 248) 63 32) ∧ (s.ak.unacked = []) ∧ (s.ak.failed = none) ∧ (bit (flitWord bs 248) 7 = false) ∧ (bits (flitWord bs 0) 53 52 = 0) ∧ (bits (flitWord bs 0) 19 0 = 0) ∧ (bits (flitWord bs 248) 6 0 = 0) ∧ (bits (flitWord bs 0) 63 60 = 2) ∧ (bits (flitWord bs 248) 31 20 = s.get Reg.AK_SEQ_RX_EXPECT) ∧ (bs[8]? = some 1#8) ∧ (leNat ((bs.drop 10).take 2) < 512) :=
  ⟨akIn 6, initFlit 100, by decide +kernel⟩
theorem wit_FlitsAreNumberedCheckedAndReplayed_5 : ∃ (s : State) (bs : List Byte) (rx : List Nat) (w : Nat),
    (s.akLinked = true) ∧ (s.ak.inq = []) ∧ (bs.length = 256) ∧ (s.is Reg.AK_INJ_SYNC = false) ∧ (s.is Reg.AK_INJ_CRC = false) ∧ (flitCrc bs = bits (flitWord bs 248) 63 32) ∧ (s.ak.unacked = []) ∧ (s.ak.failed = none) ∧ (bit (flitWord bs 248) 7 = false) ∧ (bits (flitWord bs 0) 53 52 = 0) ∧ (bits (flitWord bs 0) 19 0 = 0) ∧ (bits (flitWord bs 248) 6 0 = 0) ∧ (bits (flitWord bs 0) 63 60 = 1) ∧ (bits (flitWord bs 0) 58 54 = 0) ∧ (bits (flitWord bs 248) 31 20 = s.get Reg.AK_SEQ_RX_EXPECT) ∧ (s.ak.part = []) ∧ (s.ak.rxInit = false) ∧ (s.emb.main = true) ∧ (s.rwrWaits = false) ∧ (s.openRrds < 256) ∧ (s.is Reg.AK_INJ_PROTO = false) ∧ (s.is Reg.AK_INJ_RXB = false) ∧ (rx = []) ∧ (w = flitWord bs 8) ∧ (bits w 63 60 = 5) ∧ (bits w 51 32 = 0) ∧ (bits w 31 0 = Reg.a_GLB_ID) ∧ ((bs.drop 16).take 232 = List.replicate 232 0#8) :=
  ⟨akIn 6, rrdFlit, [], flitWord rrdFlit 8, by decide +kernel⟩
theorem wit_FlitsAreNumberedCheckedAndReplayed_6 : ∃ (s : State) (p : List Byte) (ps : List (List Byte)),
    (s.get Reg.AK_STATUS_STATE = 6) ∧ (s.ak.inq = []) ∧ (s.ak.replayAt = none) ∧ (s.ak.idleLeft = 0) ∧ (s.ak.links = p :: ps) ∧ (s.ak.unacked.length < 256) ∧ (p.length ≤ 240) ∧ (s.is Reg.AK_INJ_SYNC = false) ∧ (s.ak.got.all (fun n => n < 2 ^ 14) = true) :=
  ⟨{ akIn 6 with ak := { links := [initPayload] } }, initPayload, [], by decide +kernel⟩
theorem wit_FlitsAreNumberedCheckedAndReplayed_7 : ∃ (s : State) (f : TxFlit) (fs : List TxFlit),
    (s.get Reg.AK_STATUS_STATE = 6) ∧ (s.ak.inq = []) ∧ (s.ak.rxInit = true ∨ f.kind ≠ 1) ∧ (s.ak.replayAt = some 0) ∧ (s.ak.unacked = f :: fs) ∧ (s.ak.links = []) ∧ (f.seq < 4096) ∧ (f.payload.length ≤ 240) ∧ (s.is Reg.AK_INJ_RB = false) :=
  ⟨{ akIn 6 with ak := { unacked := [tx0], replayAt := some 0, rxInit := true } }, tx0, [], by decide +kernel⟩
theorem wit_FlitsAreNumberedCheckedAndReplayed_8 : ∃ (s : State),
    (s.get Reg.AK_STATUS_STATE = 6) ∧ (s.ak.inq = []) ∧ (s.ak.replayAt = none) ∧ (s.ak.idleLeft = 0) ∧ (s.ak.links = []) ∧ (s.ak.rxInit = false) ∧ (s.is Reg.AK_INJ_SYNC = false) ∧ (s.ak.got.all (fun n => n < 2 ^ 14) = true) :=
  ⟨akIn 6, by decide +kernel⟩
theorem wit_FlitsAreNumberedCheckedAndReplayed_9 : ∃ (s : State),
    (s.get Reg.AK_STATUS_STATE ≠ 6) :=
  ⟨r0, by decide +kernel⟩
theorem wit_FlitsAreNumberedCheckedAndReplayed_10 : ∃ (s : State),
    (s.akLinked = true) ∧ (s.ak.unacked ≠ []) ∧ (s.ak.replayAt = none) :=
  ⟨{ akIn 6 with ak := { unacked := [tx0] } }, by decide +kernel⟩
theorem wit_FlitsAreNumberedCheckedAndReplayed_11 : ∃ (s : State),
    (s.akLinked = true) ∧ (s.ak.failed.isSome = true) :=
  ⟨{ akIn 6 with ak := { failed := some ⟨0, [], [], false⟩ } }, by decide +kernel⟩
theorem wit_FlitsAreNumberedCheckedAndReplayed_12 : ∃ (s : State),
    (s.idleDue = true) :=
  ⟨{ (akIn 6) with ak := { rxInit := true } }, by decide +kernel⟩
theorem wit_FlitsAreNumberedCheckedAndReplayed_13 : ∃ (s : State),
    (s.get Reg.AK_STATUS_STATE = 7) :=
  ⟨akIn 7, by decide +kernel⟩
theorem wit_FlitsAreNumberedCheckedAndReplayed_14 : ∃ (s : State),
    (s.get Reg.AK_STATUS_STATE ≠ 7) :=
  ⟨r0, by decide +kernel⟩
theorem wit_PortsTrainThroughTheirStates_1 : ∃ (s : State) (p : Nat),
    (p < 12) ∧ (s.get (Reg.CG_STATUS_STATE p) = 1) :=
  ⟨cgIn 1, 3, by decide +kernel⟩
theorem wit_PortsTrainThroughTheirStates_2 : ∃ (s : State) (p : Nat),
    (p < 12) ∧ (s.get (Reg.CG_STATUS_STATE p) = 2) ∧ ((s.port p).capsOk = true) :=
  ⟨(cgIn 2).setPort 3 { capsOk := true }, 3, by decide +kernel⟩
theorem wit_PortsTrainThroughTheirStates_3 : ∃ (s : State) (p : Nat),
    (p < 12) ∧ (s.get (Reg.CG_STATUS_STATE p) = 3) ∧ (bits (s.port p).status 1 0 = 3) :=
  ⟨(cgIn 3).setPort 3 { status := 7 }, 3, by decide +kernel⟩
theorem wit_PortsTrainThroughTheirStates_4 : ∃ (s : State) (p : Nat),
    (p < 12) ∧ (s.get (Reg.CG_STATUS_STATE p) = 4) ∧ (bit (s.port p).status 3 = true) :=
  ⟨(cgIn 4).setPort 3 { status := 8 }, 3, by decide +kernel⟩
theorem wit_PortsTrainThroughTheirStates_5 : ∃ (s : State) (p : Nat),
    (p < 12) ∧ ((s.get (Reg.CG_STATUS_STATE p) = 2 ∧ (s.port p).capsOk = false) ∨ (s.get (Reg.CG_STATUS_STATE p) = 3 ∧ bits (s.port p).status 1 0 ≠ 3) ∨ (s.get (Reg.CG_STATUS_STATE p) = 4 ∧ bit (s.port p).status 3 = false) ∨ (s.get (Reg.CG_STATUS_STATE p) = 5 ∧ bit (s.port p).status 2 = false) ∨ s.get (Reg.CG_STATUS_STATE p) = 0 ∨ 6 ≤ s.get (Reg.CG_STATUS_STATE p)) :=
  ⟨cgIn 2, 3, by decide +kernel⟩
theorem wit_PortsTrainThroughTheirStates_6 : ∃ (s : State) (p : Nat),
    (p < 12) ∧ (s.get (Reg.CG_STATUS_STATE p) = 5) ∧ (bit (s.port p).status 2 = true) :=
  ⟨(cgIn 5).setPort 3 { retraining := true, status := 7, safe := 1 }, 3, by decide +kernel⟩
theorem wit_PortsTrainThroughTheirStates_7 : ∃ (s : State) (p : Nat),
    (p < 12) ∧ (2 ≤ s.get (Reg.CG_STATUS_STATE p)) ∧ (s.get (Reg.CG_STATUS_STATE p) ≤ 5) ∧ ((s.port p).retraining = false) ∧ (s.get (Reg.CG_STATUS_STATE p) ≠ 2 ∨ s.is (Reg.CG_STATUS_CAPS_BAD p) = false) :=
  ⟨cgIn 4, 3, by decide +kernel⟩
theorem wit_PortsTrainThroughTheirStates_8 : ∃ (s : State) (p : Nat),
    (p < 12) ∧ (1 ≤ s.get (Reg.CG_STATUS_STATE p)) ∧ (s.get (Reg.CG_STATUS_STATE p) ≤ 5) ∧ ((s.port p).retraining = true) :=
  ⟨(cgIn 4).setPort 3 { retraining := true }, 3, by decide +kernel⟩
theorem wit_PortsTrainThroughTheirStates_9 : ∃ (s : State) (p : Nat),
    (s.get (Reg.CG_STATUS_STATE p) = 0 ∨ 6 ≤ s.get (Reg.CG_STATUS_STATE p)) :=
  ⟨cgIn 6, 3, by decide +kernel⟩
theorem wit_PortsTrainThroughTheirStates_10 : ∃ (s : State) (o : Origin) (p : Nat) (v : Word),
    (p < 12) ∧ (s.accepts o (Reg.a_CG_CTRL p) v = true) ∧ (bit v.toNat 0 = true) :=
  ⟨(cgIn 6).put (Reg.OWN_OWNER 3) 1, .host, 3, 1#32, by decide +kernel⟩
theorem wit_PortsTrainThroughTheirStates_11 : ∃ (s : State) (p : Nat),
    (p < 12) ∧ (s.is (Reg.CG_INJ_LOCK p) = false) ∧ (6 ≤ s.get (Reg.CG_STATUS_STATE p)) ∧ (s.retrainedLately p = false) :=
  ⟨cgIn 6, 3, by decide +kernel⟩
theorem wit_PortsTrainThroughTheirStates_12 : ∃ (s : State) (p : Nat),
    (p < 12) ∧ (s.is (Reg.CG_INJ_LOCK p) = false) ∧ (6 ≤ s.get (Reg.CG_STATUS_STATE p)) ∧ (s.retrainedLately p = true) :=
  ⟨(cgIn 6).setPort 3 { lastRetrain := some 0 }, 3, by decide +kernel⟩
theorem wit_PortsTrainThroughTheirStates_13 : ∃ (s : State) (p : Nat),
    (s.get (Reg.CG_STATUS_STATE p) < 6) :=
  ⟨cgIn 2, 3, by decide +kernel⟩
theorem wit_PortsTrainThroughTheirStates_14 : ∃ (s : State) (p : Nat),
    (p < 12) ∧ (s.get (Reg.CG_CFG_THR p) ≠ 0) ∧ (s.get (Reg.CG_CFG_THR p) ≤ ((s.port p).errs.filter fun u => s.orbit.orbits < u + 2 ^ s.get (Reg.CG_CFG_WIN p)).length) ∧ (2 ≤ s.get (Reg.CG_STATUS_STATE p)) ∧ (s.retrainedLately p = false) :=
  ⟨((cgIn 6).put (Reg.CG_CFG_THR 3) 1).setPort 3 { errs := [0] }, 3, by decide +kernel⟩
theorem wit_PortsTrainThroughTheirStates_15 : ∃ (s : State) (p : Nat),
    (p < 12) ∧ (s.get (Reg.CG_CFG_THR p) = 0) :=
  ⟨(cgIn 6).put (Reg.CG_CFG_THR 3) 0, 3, by decide +kernel⟩
theorem wit_PortsTrainThroughTheirStates_16 : ∃ (s : State) (p : Nat),
    (p < 12) ∧ (2 ≤ s.get (Reg.CG_STATUS_STATE p)) ∧ (s.retrainedLately p = false) :=
  ⟨cgIn 6, 3, by decide +kernel⟩
theorem wit_PortsTrainThroughTheirStates_17 : ∃ (s : State) (p : Nat),
    ((s.port p).down = false) :=
  ⟨cgIn 6, 3, by decide +kernel⟩
theorem wit_PortsTrainThroughTheirStates_18 : ∃ (s : State) (p : Nat),
    (p < 12) ∧ ((s.port p).down = true) ∧ (s.get (Reg.CG_STATUS_STATE p) = 0) ∧ (s.mode p ≠ .stopped) :=
  ⟨((cgIn 0).setMode 3 .running).setPort 3 { down := true }, 3, by decide +kernel⟩
theorem wit_PortsTrainThroughTheirStates_19 : ∃ (s : State) (o : Origin) (p : Nat) (v : Word),
    (p < 12) ∧ (s.accepts o (Reg.a_CG_INJ p) v = true) :=
  ⟨(cgIn 6).put (Reg.OWN_OWNER 3) 1, .host, 3, 7#32, by decide +kernel⟩
theorem wit_BackChannelMessagesAct_1 : ∃ (s : State) (p : Nat),
    (p < 12) ∧ (s.get (Reg.CG_STATUS_STATE p) < 2) :=
  ⟨cgIn 1, 3, by decide +kernel⟩
theorem wit_BackChannelMessagesAct_2 : ∃ (s : State) (p : Nat),
    (p < 12) ∧ (s.get (Reg.CG_STATUS_STATE p) < 2) :=
  ⟨cgIn 1, 3, by decide +kernel⟩
theorem wit_BackChannelMessagesAct_3 : ∃ (s : State) (p : Nat),
    (p < 12) ∧ (2 ≤ s.get (Reg.CG_STATUS_STATE p)) ∧ (s.is (Reg.CG_INJ_BC p) = true) :=
  ⟨(cgIn 6).put (Reg.CG_INJ_BC 3) 1, 3, by decide +kernel⟩
theorem wit_BackChannelMessagesAct_4 : ∃ (s : State) (p : Nat) (seq : Nat) (bs : List Byte) (crc : Nat),
    (p < 12) ∧ (2 ≤ s.get (Reg.CG_STATUS_STATE p)) ∧ (crc16 (bcBytes 2 seq bs) ≠ crc) :=
  ⟨cgIn 6, 3, 9, [], (crc16 (bcBytes 1 9 [])), by decide +kernel⟩
theorem wit_BackChannelMessagesAct_5 : ∃ (s : State) (p : Nat) (seq : Nat) (bs : List Byte) (crc : Nat),
    (p < 12) ∧ (2 ≤ s.get (Reg.CG_STATUS_STATE p)) ∧ (crc16 (bcBytes 4 seq bs) ≠ crc) :=
  ⟨cgIn 6, 3, 9, [], (crc16 (bcBytes 1 9 [])), by decide +kernel⟩
theorem wit_BackChannelMessagesAct_6 : ∃ (s : State) (p : Nat) (seq : Nat) (bs : List Byte) (crc : Nat),
    (p < 12) ∧ (2 ≤ s.get (Reg.CG_STATUS_STATE p)) ∧ (s.is (Reg.CG_INJ_BC p) = false) ∧ (crc16 (bcBytes 1 seq bs) = crc) ∧ (s.get (Reg.CG_STATUS_STATE p) ≠ 2) :=
  ⟨cgIn 6, 3, 9, [1#8, 3#8, 7#8, 0#8, 0x1E#8, 0x40#8, 0x0B#8, 5#8, 6#8], (crc16 (bcBytes 1 9 [1#8, 3#8, 7#8, 0#8, 0x1E#8, 0x40#8, 0x0B#8, 5#8, 6#8])), by decide +kernel⟩
theorem wit_BackChannelMessagesAct_7 : ∃ (s : State) (p : Nat) (seq : Nat) (bs : List Byte) (crc : Nat),
    (p < 12) ∧ (2 ≤ s.get (Reg.CG_STATUS_STATE p)) ∧ (s.is (Reg.CG_INJ_BC p) = false) ∧ (crc16 (bcBytes 1 seq bs) = crc) ∧ (s.get (Reg.CG_STATUS_STATE p) = 2) :=
  ⟨cgIn 2, 3, 9, [1#8, 3#8, 7#8, 0#8, 0x1E#8, 0x40#8, 0x0B#8, 5#8, 6#8], (crc16 (bcBytes 1 9 [1#8, 3#8, 7#8, 0#8, 0x1E#8, 0x40#8, 0x0B#8, 5#8, 6#8])), by decide +kernel⟩
theorem wit_BackChannelMessagesAct_8 : ∃ (s : State) (p : Nat) (seq : Nat) (bs : List Byte) (crc : Nat),
    (p < 12) ∧ (2 ≤ s.get (Reg.CG_STATUS_STATE p)) ∧ (s.is (Reg.CG_INJ_BC p) = false) ∧ (crc16 (bcBytes 2 seq bs) = crc) ∧ ((bodyHalf bs 3 + 65536 - s.get (Reg.CG_ERR_LINE_ERR p)) % 65536 ≠ 0) ∧ (s.get (Reg.CG_STATUS_STATE p) ≠ 6 ∨ (bodyByte bs 2 % 4 = 3 ∧ s.is (Reg.CG_INJ_LOCK p) = false)) ∧ (s.get (Reg.CG_STATUS_STATE p) < 3 ∨ 5 < s.get (Reg.CG_STATUS_STATE p)) :=
  ⟨cgIn 6, 3, 9, [3#8, 2#8, 0#8], (crc16 (bcBytes 2 9 [3#8, 2#8, 0#8])), by decide +kernel⟩
theorem wit_BackChannelMessagesAct_9 : ∃ (s : State) (p : Nat) (seq : Nat) (bs : List Byte) (crc : Nat),
    (p < 12) ∧ (2 ≤ s.get (Reg.CG_STATUS_STATE p)) ∧ (s.is (Reg.CG_INJ_BC p) = false) ∧ (crc16 (bcBytes 2 seq bs) = crc) ∧ ((bodyHalf bs 3 + 65536 - s.get (Reg.CG_ERR_LINE_ERR p)) % 65536 = 0) ∧ (s.get (Reg.CG_STATUS_STATE p) ≠ 6 ∨ (bodyByte bs 2 % 4 = 3 ∧ s.is (Reg.CG_INJ_LOCK p) = false)) ∧ (s.get (Reg.CG_STATUS_STATE p) < 3 ∨ 5 < s.get (Reg.CG_STATUS_STATE p)) :=
  ⟨cgIn 6, 3, 9, [3#8, 0#8, 0#8], (crc16 (bcBytes 2 9 [3#8, 0#8, 0#8])), by decide +kernel⟩
theorem wit_BackChannelMessagesAct_10 : ∃ (s : State) (p : Nat) (seq : Nat) (bs : List Byte) (crc : Nat),
    (p < 12) ∧ (2 ≤ s.get (Reg.CG_STATUS_STATE p)) ∧ (s.is (Reg.CG_INJ_BC p) = false) ∧ (crc16 (bcBytes 2 seq bs) = crc) ∧ ((s.get (Reg.CG_STATUS_STATE p) = 3 ∧ bodyByte bs 2 % 4 = 3) ∨ (s.get (Reg.CG_STATUS_STATE p) = 4 ∧ bit (bodyByte bs 2) 3 = true) ∨ (s.get (Reg.CG_STATUS_STATE p) = 5 ∧ bit (bodyByte bs 2) 2 = true)) :=
  ⟨cgIn 4, 3, 9, [8#8, 0#8, 0#8], (crc16 (bcBytes 2 9 [8#8, 0#8, 0#8])), by decide +kernel⟩
theorem wit_BackChannelMessagesAct_11 : ∃ (s : State) (p : Nat) (seq : Nat) (bs : List Byte) (crc : Nat),
    (p < 12) ∧ (2 ≤ s.get (Reg.CG_STATUS_STATE p)) ∧ (s.is (Reg.CG_INJ_BC p) = false) ∧ (crc16 (bcBytes 2 seq bs) = crc) ∧ ((s.get (Reg.CG_STATUS_STATE p) = 3 ∧ bodyByte bs 2 % 4 ≠ 3) ∨ (s.get (Reg.CG_STATUS_STATE p) = 4 ∧ bit (bodyByte bs 2) 3 = false) ∨ (s.get (Reg.CG_STATUS_STATE p) = 5 ∧ bit (bodyByte bs 2) 2 = false)) :=
  ⟨cgIn 4, 3, 9, [3#8, 0#8, 0#8], (crc16 (bcBytes 2 9 [3#8, 0#8, 0#8])), by decide +kernel⟩
theorem wit_BackChannelMessagesAct_12 : ∃ (s : State) (p : Nat) (seq : Nat) (bs : List Byte) (crc : Nat),
    (p < 12) ∧ (2 ≤ s.get (Reg.CG_STATUS_STATE p)) ∧ (s.is (Reg.CG_INJ_BC p) = false) ∧ (crc16 (bcBytes 2 seq bs) = crc) ∧ (s.get (Reg.CG_STATUS_STATE p) = 6) ∧ (bodyByte bs 2 % 4 ≠ 3) ∧ (s.retrainedLately p = false) :=
  ⟨cgIn 6, 3, 9, [1#8, 0#8, 0#8], (crc16 (bcBytes 2 9 [1#8, 0#8, 0#8])), by decide +kernel⟩
theorem wit_BackChannelMessagesAct_13 : ∃ (s : State) (p : Nat) (seq : Nat) (bs : List Byte) (crc : Nat) (b : BcnForce) (k : KeptCrc),
    (p < 12) ∧ (2 ≤ s.get (Reg.CG_STATUS_STATE p)) ∧ (s.is (Reg.CG_INJ_BC p) = false) ∧ (crc16 (bcBytes 3 seq bs) = crc) ∧ (bit (bodyByte bs 3) 0 = false) ∧ (s.bcn p = some b) ∧ (b.entry < 4) ∧ ((s.entry b.entry).covered = false) ∧ ((s.entry b.entry).kept.find? (fun k => k.frame == bodyByte bs 2 && !k.decided) = some k) ∧ (bit (s.get Reg.BC_INJ_CRC) b.entry = false) :=
  ⟨((cgIn 6).modPipe 3 fun x => { x with bcn := some ⟨1, []⟩ }).setEntry 1 { kept := [⟨7, 5, false, []⟩] }, 3, 9, [7#8, 0#8, 5#8, 0#8, 0#8, 0#8], (crc16 (bcBytes 3 9 [7#8, 0#8, 5#8, 0#8, 0#8, 0#8])), ⟨1, []⟩, ⟨7, 5, false, []⟩, by decide +kernel⟩
theorem wit_BackChannelMessagesAct_14 : ∃ (s : State) (p : Nat) (seq : Nat) (bs : List Byte) (crc : Nat),
    (p < 12) ∧ (2 ≤ s.get (Reg.CG_STATUS_STATE p)) ∧ (s.is (Reg.CG_INJ_BC p) = false) ∧ (crc16 (bcBytes 4 seq bs) = crc) ∧ ((s.port p).holdOut = true) ∧ (bodyHalf bs 2 = s.get (Reg.PIPE_POS_FRAME p) % 65536) ∧ ((s.pipe p).prefetched = false) :=
  ⟨(cgIn 6).setPort 3 { holdOut := true }, 3, 9, [0#8, 0#8], (crc16 (bcBytes 4 9 [0#8, 0#8])), by decide +kernel⟩
theorem wit_BackChannelMessagesAct_15 : ∃ (s : State) (p : Nat) (seq : Nat) (bs : List Byte) (crc : Nat),
    (p < 12) ∧ (2 ≤ s.get (Reg.CG_STATUS_STATE p)) ∧ (s.is (Reg.CG_INJ_BC p) = false) ∧ (crc16 (bcBytes 4 seq bs) = crc) ∧ ((s.port p).holdOut = true) ∧ (bodyHalf bs 2 = s.get (Reg.PIPE_POS_FRAME p) % 65536) ∧ ((s.pipe p).prefetched = true) :=
  ⟨((cgIn 6).setPort 3 { holdOut := true }).modPipe 3 fun x => { x with prefetched := true }, 3, 9, [0#8, 0#8], (crc16 (bcBytes 4 9 [0#8, 0#8])), by decide +kernel⟩
theorem wit_BackChannelMessagesAct_16 : ∃ (s : State) (p : Nat) (seq : Nat) (bs : List Byte) (crc : Nat),
    (p < 12) ∧ (2 ≤ s.get (Reg.CG_STATUS_STATE p)) ∧ (s.is (Reg.CG_INJ_BC p) = false) ∧ (crc16 (bcBytes 4 seq bs) = crc) ∧ ((s.port p).holdOut = false) :=
  ⟨cgIn 6, 3, 9, [0#8, 0#8], (crc16 (bcBytes 4 9 [0#8, 0#8])), by decide +kernel⟩
theorem wit_BackChannelMessagesAct_17 : ∃ (s : State) (p : Nat) (seq : Nat) (bs : List Byte) (crc : Nat),
    (p < 12) ∧ (2 ≤ s.get (Reg.CG_STATUS_STATE p)) ∧ (s.is (Reg.CG_INJ_BC p) = false) ∧ (crc16 (bcBytes 5 seq bs) = crc) ∧ ((s.port p).holdOut = true) ∧ (bodyHalf bs 2 = s.get (Reg.PIPE_POS_FRAME p) % 65536) :=
  ⟨(cgIn 6).setPort 3 { holdOut := true }, 3, 9, [], (crc16 (bcBytes 5 9 [])), by decide +kernel⟩
theorem wit_BackChannelMessagesAct_18 : ∃ (s : State) (p : Nat) (seq : Nat) (bs : List Byte) (crc : Nat),
    (p < 12) ∧ (2 ≤ s.get (Reg.CG_STATUS_STATE p)) ∧ (s.is (Reg.CG_INJ_BC p) = false) ∧ (crc16 (bcBytes 5 seq bs) = crc) ∧ ((s.port p).holdOut = false) :=
  ⟨cgIn 6, 3, 9, [0#8, 0#8], (crc16 (bcBytes 5 9 [0#8, 0#8])), by decide +kernel⟩
theorem wit_BackChannelMessagesAct_19 : ∃ (s : State) (p : Nat) (seq : Nat) (bs : List Byte) (crc : Nat),
    (p < 12) ∧ (2 ≤ s.get (Reg.CG_STATUS_STATE p)) ∧ (s.is (Reg.CG_INJ_BC p) = false) ∧ (crc16 (bcBytes 7 seq bs) = crc) ∧ ((s.port p).holdOut = true) :=
  ⟨(cgIn 6).setPort 3 { holdOut := true }, 3, 9, [], (crc16 (bcBytes 7 9 [])), by decide +kernel⟩
theorem wit_BackChannelMessagesAct_20 : ∃ (s : State) (p : Nat) (seq : Nat) (bs : List Byte) (crc : Nat),
    (p < 12) ∧ (2 ≤ s.get (Reg.CG_STATUS_STATE p)) ∧ (s.is (Reg.CG_INJ_BC p) = false) ∧ (crc16 (bcBytes 7 seq bs) = crc) ∧ ((s.port p).holdOut = false) ∧ (s.mode p = .banked) :=
  ⟨(cgIn 7).setMode 3 .banked, 3, 9, [], (crc16 (bcBytes 7 9 [])), by decide +kernel⟩
theorem wit_BackChannelMessagesAct_21 : ∃ (s : State) (p : Nat) (seq : Nat) (bs : List Byte) (crc : Nat),
    (p < 12) ∧ (2 ≤ s.get (Reg.CG_STATUS_STATE p)) ∧ (s.is (Reg.CG_INJ_BC p) = false) ∧ (crc16 (bcBytes 6 seq bs) = crc) ∧ (s.get (Reg.CG_STATUS_STATE p) = 4 ∨ s.get (Reg.CG_STATUS_STATE p) = 6) ∧ (bodyByte bs 2 ≤ 1) ∧ (bodyByte bs 3 = 1 ∨ bodyByte bs 3 = 2) ∧ (0 ≤ (s.get (if bodyByte bs 2 = 0 then (if bodyByte bs 3 = 1 then Reg.CG_EQ_0_PRE p else Reg.CG_EQ_0_POST p) else (if bodyByte bs 3 = 1 then Reg.CG_EQ_1_PRE p else Reg.CG_EQ_1_POST p)) : Int) + sext (bodyByte bs 4) 8) ∧ ((s.get (if bodyByte bs 2 = 0 then (if bodyByte bs 3 = 1 then Reg.CG_EQ_0_PRE p else Reg.CG_EQ_0_POST p) else (if bodyByte bs 3 = 1 then Reg.CG_EQ_1_PRE p else Reg.CG_EQ_1_POST p)) : Int) + sext (bodyByte bs 4) 8 ≤ (if bodyByte bs 3 = 1 then 15 else 31)) :=
  ⟨(cgIn 4).resetTaps 3, 3, 9, [0#8, 1#8, 255#8, 9#8], (crc16 (bcBytes 6 9 [0#8, 1#8, 255#8, 9#8])), by decide +kernel⟩
theorem wit_BackChannelMessagesAct_22 : ∃ (s : State) (p : Nat) (seq : Nat) (bs : List Byte) (crc : Nat),
    (p < 12) ∧ (2 ≤ s.get (Reg.CG_STATUS_STATE p)) ∧ (s.is (Reg.CG_INJ_BC p) = false) ∧ (crc16 (bcBytes 6 seq bs) = crc) ∧ (s.get (Reg.CG_STATUS_STATE p) = 4 ∨ s.get (Reg.CG_STATUS_STATE p) = 6) ∧ (bodyByte bs 2 ≤ 1) ∧ (bodyByte bs 3 = 1 ∨ bodyByte bs 3 = 2) ∧ (¬ (0 ≤ (s.get (if bodyByte bs 2 = 0 then (if bodyByte bs 3 = 1 then Reg.CG_EQ_0_PRE p else Reg.CG_EQ_0_POST p) else (if bodyByte bs 3 = 1 then Reg.CG_EQ_1_PRE p else Reg.CG_EQ_1_POST p)) : Int) + sext (bodyByte bs 4) 8 ∧ (s.get (if bodyByte bs 2 = 0 then (if bodyByte bs 3 = 1 then Reg.CG_EQ_0_PRE p else Reg.CG_EQ_0_POST p) else (if bodyByte bs 3 = 1 then Reg.CG_EQ_1_PRE p else Reg.CG_EQ_1_POST p)) : Int) + sext (bodyByte bs 4) 8 ≤ (if bodyByte bs 3 = 1 then 15 else 31))) :=
  ⟨(cgIn 4).put (Reg.CG_EQ_0_PRE 3) 0, 3, 9, [0#8, 1#8, 255#8, 9#8], (crc16 (bcBytes 6 9 [0#8, 1#8, 255#8, 9#8])), by decide +kernel⟩
theorem wit_BackChannelMessagesAct_23 : ∃ (s : State) (p : Nat) (bs : List Byte),
    (p < 12) ∧ (2 ≤ s.get (Reg.CG_STATUS_STATE p)) ∧ (crc16 (padTo (bs.take 14) 14) ≠ leNat ((bs.drop 14).take 2)) :=
  ⟨cgIn 6, 3, [], by decide +kernel⟩
theorem wit_BackChannelMessagesAct_24 : ∃ (s : State) (p : Nat) (bs : List Byte),
    (p < 12) ∧ (2 ≤ s.get (Reg.CG_STATUS_STATE p)) ∧ (s.is (Reg.CG_INJ_BC p) = false) ∧ (crc16 (padTo (bs.take 14) 14) = leNat ((bs.drop 14).take 2)) ∧ ((bs.headD 0#8).toNat = 0 ∨ 7 < (bs.headD 0#8).toNat) :=
  ⟨cgIn 6, 3, (bcBytes 9 1 [] ++ leBytes 2 (crc16 (bcBytes 9 1 []))), by decide +kernel⟩
theorem wit_PllsLockFailAndAreLost_1 : ∃ (s : State) (i : Nat),
    (i < 12) ∧ (s.pllLocking i = true) ∧ (s.is Reg.CLK_INJ_REF = false) ∧ (s.is Reg.CLK_INJ_LOCK = false) ∧ (s.is Reg.CLK_INJ_GUARD = false) ∧ ((s.pll i).retry = false) :=
  ⟨((r0.setMode 3 .running).put (Reg.PLL_STATUS_STATE 3) 4), 3, by decide +kernel⟩
theorem wit_PllsLockFailAndAreLost_2 : ∃ (s : State) (i : Nat),
    (i < 12) ∧ (s.pllLocking i = true) ∧ (s.is Reg.CLK_INJ_REF = false) ∧ (s.is Reg.CLK_INJ_LOCK = false) ∧ (s.is Reg.CLK_INJ_GUARD = false) ∧ ((s.pll i).retry = true) :=
  ⟨(((r0.setMode 3 .running).put (Reg.PLL_STATUS_STATE 3) 4).setPll 3 { retry := true }), 3, by decide +kernel⟩
theorem wit_PllsLockFailAndAreLost_3 : ∃ (s : State) (i : Nat),
    (12 ≤ i) ∧ (i < 15) ∧ (s.pllLocking i = true) ∧ (s.is Reg.CLK_INJ_REF = false) ∧ (s.is Reg.CLK_INJ_LOCK = false) ∧ (s.is Reg.CLK_INJ_GUARD = false) ∧ (i ≠ 14 ∨ (s.pll i).retry = false) :=
  ⟨r0, 13, by decide +kernel⟩
theorem wit_PllsLockFailAndAreLost_4 : ∃ (s : State),
    (s.pllLocking 14 = true) ∧ ((s.pll 14).retry = true) ∧ (s.is Reg.CLK_INJ_REF = false) ∧ (s.is Reg.CLK_INJ_LOCK = false) ∧ (s.is Reg.CLK_INJ_GUARD = false) :=
  ⟨(((((r0.setMode 3 .running).put (Reg.PLL_STATUS_STATE 14) 4).setPll 14 { retry := true })).put (Reg.CG_STATUS_STATE 2) 6), by decide +kernel⟩
theorem wit_PllsLockFailAndAreLost_5 : ∃ (s : State) (i : Nat),
    (s.pllLocking i = false) ∧ (s.is Reg.CLK_INJ_REF = false) ∧ (s.is Reg.CLK_INJ_LOCK = false) ∧ (s.is Reg.CLK_INJ_GUARD = false) :=
  ⟨((r0.setMode 3 .running).put (Reg.PLL_STATUS_STATE 3) 6), 3, by decide +kernel⟩
theorem wit_PllsLockFailAndAreLost_6 : ∃ (s : State) (i : Nat),
    (i < 12) ∧ (s.pllLocking i = true) ∧ ((s.pll i).retry = false) :=
  ⟨((r0.setMode 3 .running).put (Reg.PLL_STATUS_STATE 3) 4), 3, by decide +kernel⟩
theorem wit_PllsLockFailAndAreLost_7 : ∃ (s : State) (i : Nat),
    (i < 12) ∧ (s.pllLocking i = true) ∧ ((s.pll i).retry = true) :=
  ⟨(((r0.setMode 3 .running).put (Reg.PLL_STATUS_STATE 3) 4).setPll 3 { retry := true }), 3, by decide +kernel⟩
theorem wit_PllsLockFailAndAreLost_8 : ∃ (s : State),
    (s.pllLocking 14 = true) ∧ ((s.pll 14).retry = true) :=
  ⟨(((r0.setMode 3 .running).put (Reg.PLL_STATUS_STATE 14) 4).setPll 14 { retry := true }), by decide +kernel⟩
theorem wit_PllsLockFailAndAreLost_9 : ∃ (s : State) (i : Nat),
    (i = 12 ∨ i = 13) ∧ (s.pllLocking i = true) :=
  ⟨r0, 13, by decide +kernel⟩
theorem wit_PllsLockFailAndAreLost_10 : ∃ (s : State),
    (s.pllLocking 14 = true) ∧ ((s.pll 14).retry = false) :=
  ⟨r0, by decide +kernel⟩
theorem wit_PllsLockFailAndAreLost_11 : ∃ (s : State) (i : Nat),
    (s.pllLocking i = false) :=
  ⟨((r0.setMode 3 .running).put (Reg.PLL_STATUS_STATE 3) 6), 3, by decide +kernel⟩
theorem wit_PllsLockFailAndAreLost_12 : ∃ (s : State) (i : Nat),
    (s.pllLocked i = false) :=
  ⟨((r0.setMode 3 .running).put (Reg.PLL_STATUS_STATE 3) 4), 3, by decide +kernel⟩
theorem wit_PllsLockFailAndAreLost_13 : ∃ (s : State) (i : Nat),
    (i < 12) ∧ (s.pllLocked i = true) ∧ ((match (s.pll i).lostAt with | some u => decide (s.now < u + 1000 * msNs) | none => false) = false) :=
  ⟨((r0.setMode 3 .running).put (Reg.PLL_STATUS_STATE 3) 6), 3, by decide +kernel⟩
theorem wit_PllsLockFailAndAreLost_14 : ∃ (s : State) (i : Nat),
    (i < 12) ∧ (s.pllLocked i = true) ∧ ((match (s.pll i).lostAt with | some u => decide (s.now < u + 1000 * msNs) | none => false) = true) :=
  ⟨(((r0.setMode 3 .running).put (Reg.PLL_STATUS_STATE 3) 6).setPll 3 { lostAt := some 0 }), 3, by decide +kernel⟩
theorem wit_PllsLockFailAndAreLost_15 : ∃ (s : State) (i : Nat),
    (i = 12 ∨ i = 13) ∧ (s.pllLocked i = true) :=
  ⟨((r0.setMode 3 .running).put (Reg.PLL_STATUS_STATE 13) 6), 13, by decide +kernel⟩
theorem wit_PllsLockFailAndAreLost_16 : ∃ (s : State),
    (s.pllLocked 14 = true) :=
  ⟨((r0.setMode 3 .running).put (Reg.PLL_STATUS_STATE 14) 6), by decide +kernel⟩
theorem wit_PllsLockFailAndAreLost_17 : ∃ (s : State) (i : Nat),
    (i < 12) ∧ (s.pllLocked i = true) :=
  ⟨((r0.setMode 3 .running).put (Reg.PLL_STATUS_STATE 3) 6), 3, by decide +kernel⟩
theorem wit_PllsLockFailAndAreLost_18 : ∃ (s : State) (i : Nat),
    (12 ≤ i) ∧ (i < 15) ∧ (s.pllLocked i = true) :=
  ⟨((r0.setMode 3 .running).put (Reg.PLL_STATUS_STATE 14) 6), 14, by decide +kernel⟩
theorem wit_PllsLockFailAndAreLost_19 : ∃ (s : State),
    (s.clk.refLost = false) :=
  ⟨((r0.setMode 3 .running).put (Reg.PLL_STATUS_STATE 3) 6), by decide +kernel⟩
theorem wit_PllsLockFailAndAreLost_20 : ∃ (s : State),
    (s.clk.refLost = true) :=
  ⟨{ r0 with clk := { r0.clk with refLost := true } }, by decide +kernel⟩
theorem wit_PllsLockFailAndAreLost_21 : ∃ (s : State) (o : Origin) (i : Nat) (v : Word),
    (i < 12) ∧ (s.accepts o (Reg.a_PLL_CTRL i) v = true) ∧ (bit v.toNat 2 = true) ∧ ((s.pll i).failed = true) ∧ (s.mode i = .stopped) ∧ (s.runShown i = true) ∧ (s.cleared .CLK_PIX_FAIL = true) ∧ (s.cleared .CLK_GUARD_PIX = true) :=
  ⟨((r0.modPipe 3 fun x => { x with shown := imgPut [] (Reg.TG_CTRL_RUN 3) 1 }).setPll 3 { failed := true }), .sp, 3, 5#32, by decide +kernel⟩
theorem wit_PllsLockFailAndAreLost_22 : ∃ (s : State) (o : Origin) (i : Nat) (v : Word),
    (i < 15) ∧ (s.accepts o (Reg.a_PLL_CTRL i) v = true) ∧ (bit v.toNat 2 = false) :=
  ⟨r0, .sp, 3, 0#32, by decide +kernel⟩
theorem wit_PllsLockFailAndAreLost_23 : ∃ (s : State) (o : Origin) (v : Word),
    (s.accepts o (Reg.a_CLK_INJ) v = true) ∧ (bit v.toNat 10 = false) ∧ (s.is Reg.CLK_INJ_REF = false) ∧ (s.get (Reg.PLL_STATUS_STATE (bits v.toNat 3 0)) = 0) ∧ (bits v.toNat 3 0 < 15) :=
  ⟨r0, .sp, 0x103#32, by decide +kernel⟩
theorem wit_PllsLockFailAndAreLost_24 : ∃ (s : State) (o : Origin) (v : Word),
    (s.accepts o (Reg.a_CLK_INJ) v = true) ∧ (bits v.toNat 10 8 = 1) ∧ (bits v.toNat 3 0 < 12) ∧ (s.is Reg.CLK_INJ_REF = false) ∧ (s.is Reg.CLK_INJ_LOCK = false) ∧ (s.is Reg.CLK_INJ_GUARD = false) ∧ (s.pllLocked (bits v.toNat 3 0) = true) ∧ ((match (s.pll (bits v.toNat 3 0)).lostAt with | some u => decide (s.now < u + 1000 * msNs) | none => false) = false) :=
  ⟨((r0.setMode 3 .running).put (Reg.PLL_STATUS_STATE 3) 6), .sp, 0x103#32, by decide +kernel⟩
theorem wit_SourcesFollowTheirInputs_1 : ∃ (n : Nat),
    (srcExists n = false) :=
  ⟨191, by decide +kernel⟩
theorem wit_SourcesFollowTheirInputs_2 : ∃ (n : Nat),
    (srcExists n = true) ∧ (srcMode n = 1) :=
  ⟨208, by decide +kernel⟩
theorem wit_SourcesFollowTheirInputs_3 : ∃ (s : State) (n : Nat),
    (srcExists n = true) ∧ (srcMode n = 0) ∧ ((s.src n).input = false) :=
  ⟨(r0.setSrc 136 { active := true }), 136, by decide +kernel⟩
theorem wit_SourcesFollowTheirInputs_4 : ∃ (n : Nat),
    (srcExists n = true) ∧ (srcMode n = 0) :=
  ⟨136, by decide +kernel⟩
theorem wit_SourcesFollowTheirInputs_5 : ∃ (s : State) (n : Nat),
    (srcExists n = true) ∧ (srcMode n = 2) ∧ ((s.src n).fifo.length < srcDepth n) :=
  ⟨r0, 5, by decide +kernel⟩
theorem wit_SourcesFollowTheirInputs_6 : ∃ (s : State) (n : Nat),
    (srcExists n = true) ∧ (srcMode n = 2) ∧ (srcDepth n ≤ (s.src n).fifo.length) :=
  ⟨(r0.setSrc 5 { fifo := List.replicate 8 ⟨1, 5, 0, 0⟩ }), 5, by decide +kernel⟩
theorem wit_SourcesFollowTheirInputs_7 : ∃ (s : State) (o : Origin) (n : Nat) (v : Word),
    (n < 8) ∧ (s.accepts o (Reg.a_SRC_PEND n) v = true) ∧ (∀ k, k ∈ pendSources n v.toNat → s.mayConfigure o k = true) :=
  ⟨r0, .sp, 6, 0x80000001#32, by decide +kernel⟩
theorem wit_SourcesFollowTheirInputs_8 : ∃ (s : State) (o : Origin) (n : Nat) (v : Word),
    (n < 8) ∧ (s.accepts o (Reg.a_SRC_PEND n) v = true) ∧ (∃ k, k ∈ pendSources n v.toNat ∧ s.mayConfigure o k = false) ∧ (s.get Reg.FC_CFG_ESCALATE = 0) :=
  ⟨r0, .host, 7, 0x10001#32, by decide +kernel⟩
theorem wit_SourcesFollowTheirInputs_9 : ∃ (s : State) (o : Origin) (n : Nat) (v : Word),
    (n < 8) ∧ (s.accepts o (Reg.a_SRC_UNPEND n) v = true) ∧ (∀ k, k ∈ pendSources n v.toNat → s.mayConfigure o k = true) :=
  ⟨((r0.setSrc 136 { pend := true }).setSrc 137 { pend := true, input := true }), .sp, 4, 0x300#32, by decide +kernel⟩
theorem wit_SourcesFollowTheirInputs_10 : ∃ (s : State) (o : Origin) (n : Nat) (v : Word),
    (n < 8) ∧ (s.accepts o (Reg.a_SRC_UNPEND n) v = true) ∧ (∃ k, k ∈ pendSources n v.toNat ∧ s.mayConfigure o k = false) ∧ (s.get Reg.FC_CFG_ESCALATE = 0) :=
  ⟨r0, .host, 7, 0x10001#32, by decide +kernel⟩
theorem wit_SourcesFollowTheirInputs_11 : ∃ (s : State) (o : Origin) (n : Nat) (v : Word),
    (srcExists n = true) ∧ (s.accepts o (Reg.a_SRC_CFG n) v = true) ∧ (s.mayConfigure o n = true) ∧ (o = .sp ∨ bits v.toNat 9 8 = 0) :=
  ⟨r0, .sp, 193, 0x85000F09#32, by decide +kernel⟩
theorem wit_SourcesFollowTheirInputs_12 : ∃ (s : State) (o : Origin) (n : Nat) (v : Word),
    (srcExists n = true) ∧ (s.accepts o (Reg.a_SRC_CFG n) v = true) ∧ (s.mayConfigure o n = false) :=
  ⟨r0, .host, 240, 0x80000F09#32, by decide +kernel⟩
theorem wit_SourcesFollowTheirInputs_13 : ∃ (s : State) (o : Origin) (v : Word),
    (s.accepts o (Reg.a_MBOX_RING) v = true) ∧ (bits v.toNat 3 0 = 0 ∨ isHostPath o = true) ∧ (bits v.toNat 7 4 = 0 ∨ isCore o = true) :=
  ⟨r0, .host, 5#32, by decide +kernel⟩
theorem wit_SourcesFollowTheirInputs_14 : ∃ (s : State) (o : Origin) (v : Word),
    (s.accepts o (Reg.a_MBOX_RING) v = true) ∧ (bits v.toNat 7 4 ≠ 0) ∧ (isCore o = false) ∧ (s.get Reg.FC_CFG_ESCALATE = 0) :=
  ⟨r0, .host, 0x11#32, by decide +kernel⟩
theorem wit_SourcesFollowTheirInputs_15 : ∃ (s : State) (o : Origin) (v : Word),
    (s.accepts o (Reg.a_INTC_INJ) v = true) ∧ (s.is Reg.INTC_INJ_CFG = false) ∧ (s.is Reg.INTC_INJ_STACK = false) ∧ (bits v.toNat 1 0 = 0) :=
  ⟨r0, .sp, 0x24#32, by decide +kernel⟩
theorem wit_SourcesFollowTheirInputs_16 : ∃ (s : State) (o : Origin) (v : Word),
    (s.accepts o (Reg.a_INTC_INJ) v = true) ∧ (s.is Reg.INTC_INJ_CFG = false) ∧ (bits v.toNat 1 0 = 2) :=
  ⟨(r0.setTgt 2 { stack := [(5, 3)] }), .sp, 0x22#32, by decide +kernel⟩
theorem wit_SourcesFollowTheirInputs_17 : ∃ (s : State) (o : Origin) (v : Word),
    (s.accepts o (Reg.a_INTC_INJ) v = true) ∧ (bit v.toNat 0 = true) :=
  ⟨r0, .sp, 1#32, by decide +kernel⟩
theorem wit_SourcesFollowTheirInputs_18 : ∃ (s : State) (o : Origin) (r : EvRec) (rest : List EvRec),
    (s.reaches o .REC_D2 = true) ∧ (o ≠ .debug) ∧ (s.mayConfigure o (s.get Reg.REC_SEL_SOURCE) = true) ∧ (s.is Reg.INTC_INJ_REC = false) ∧ ((s.src (s.get Reg.REC_SEL_SOURCE)).fifo = r :: rest) :=
  ⟨((r0.setSrc 5 { fifo := [⟨1, 5, 7, 9⟩, ⟨1, 5, 8, 10⟩], lost := 3 }).put Reg.REC_SEL_SOURCE 5), .sp, ⟨1, 5, 7, 9⟩, [⟨1, 5, 8, 10⟩], by decide +kernel⟩
theorem wit_SourcesFollowTheirInputs_19 : ∃ (s : State) (o : Origin) (r : EvRec) (rest : List EvRec),
    (s.reaches o .REC_D2 = true) ∧ (o ≠ .debug) ∧ (s.mayConfigure o (s.get Reg.REC_SEL_SOURCE) = true) ∧ (s.is Reg.INTC_INJ_REC = true) ∧ ((s.src (s.get Reg.REC_SEL_SOURCE)).fifo = r :: rest) :=
  ⟨(((r0.setSrc 5 { fifo := [⟨1, 5, 7, 9⟩, ⟨1, 5, 8, 10⟩], lost := 3 }).put Reg.REC_SEL_SOURCE 5).put Reg.INTC_INJ_REC 1), .sp, ⟨1, 5, 7, 9⟩, [⟨1, 5, 8, 10⟩], by decide +kernel⟩
theorem wit_SourcesFollowTheirInputs_20 : ∃ (s : State) (o : Origin),
    (s.reaches o .REC_D2 = true) ∧ (o ≠ .debug) ∧ (s.mayConfigure o (s.get Reg.REC_SEL_SOURCE) = false) :=
  ⟨((r0.setSrc 5 { fifo := [⟨1, 5, 7, 9⟩, ⟨1, 5, 8, 10⟩], lost := 3 }).put Reg.REC_SEL_SOURCE 5), .mc2, by decide +kernel⟩
theorem wit_SourcesFollowTheirInputs_21 : ∃ (s : State) (o : Origin),
    (s.reaches o .REC_STAT = true) ∧ (o ≠ .debug) ∧ (s.mayConfigure o (s.get Reg.REC_SEL_SOURCE) = true) :=
  ⟨((r0.setSrc 5 { fifo := [⟨1, 5, 7, 9⟩, ⟨1, 5, 8, 10⟩], lost := 3 }).put Reg.REC_SEL_SOURCE 5), .sp, by decide +kernel⟩
theorem wit_SourcesFollowTheirInputs_22 : ∃ (s : State),
    (s.reaches .debug .REC_STAT = true) :=
  ⟨((r0.setSrc 5 { fifo := [⟨1, 5, 7, 9⟩, ⟨1, 5, 8, 10⟩], lost := 3 }).put Reg.REC_SEL_SOURCE 5), by decide +kernel⟩
theorem wit_OffersAreClaimedAndEnded_1 : ∃ (s : State) (c : Nat) (n : Nat),
    (s.offer c = some n) :=
  ⟨((puts r0 [(Reg.SRC_CFG_EN 5, 1), (Reg.SRC_CFG_PRIO 5, 3), (Reg.SRC_CFG_TARGETS 5, 0xFF), (Reg.AK_STATUS_STATE, 6), (Reg.HQ_CFG_DEPTH 4, 64)]).setSrc 5 { pend := true, fifo := [⟨1, 5, 7, 9⟩, ⟨1, 5, 8, 10⟩] }), 1, 5, by decide +kernel⟩
theorem wit_OffersAreClaimedAndEnded_2 : ∃ (s : State) (c : Nat) (n : Nat),
    (c < 4) ∧ (s.offer c = some n) :=
  ⟨((puts r0 [(Reg.SRC_CFG_EN 5, 1), (Reg.SRC_CFG_PRIO 5, 3), (Reg.SRC_CFG_TARGETS 5, 0xFF), (Reg.AK_STATUS_STATE, 6), (Reg.HQ_CFG_DEPTH 4, 64)]).setSrc 5 { pend := true, fifo := [⟨1, 5, 7, 9⟩, ⟨1, 5, 8, 10⟩] }), 1, 5, by decide +kernel⟩
theorem wit_OffersAreClaimedAndEnded_3 : ∃ (s : State) (c : Nat) (n : Nat),
    (c < 4) ∧ (s.offer c ≠ some n) :=
  ⟨((puts r0 [(Reg.SRC_CFG_EN 5, 1), (Reg.SRC_CFG_PRIO 5, 3), (Reg.SRC_CFG_TARGETS 5, 0xFF), (Reg.AK_STATUS_STATE, 6), (Reg.HQ_CFG_DEPTH 4, 64)]).setSrc 5 { pend := true, fifo := [⟨1, 5, 7, 9⟩, ⟨1, 5, 8, 10⟩] }), 2, 6, by decide +kernel⟩
theorem wit_OffersAreClaimedAndEnded_4 : ∃ (s : State) (o : Origin) (c : Nat) (n : Nat),
    (c < 8) ∧ (s.reaches o .TGT_CLAIM = true) ∧ (isOwnCore o c = true) ∧ (s.offer c = some n) :=
  ⟨((puts r0 [(Reg.SRC_CFG_EN 5, 1), (Reg.SRC_CFG_PRIO 5, 3), (Reg.SRC_CFG_TARGETS 5, 0xFF), (Reg.AK_STATUS_STATE, 6), (Reg.HQ_CFG_DEPTH 4, 64)]).setSrc 5 { pend := true, fifo := [⟨1, 5, 7, 9⟩, ⟨1, 5, 8, 10⟩] }), .sp, 1, 5, by decide +kernel⟩
theorem wit_OffersAreClaimedAndEnded_5 : ∃ (s : State) (o : Origin) (c : Nat),
    (c < 8) ∧ (s.reaches o .TGT_CLAIM = true) ∧ (isOwnCore o c = false) :=
  ⟨((puts r0 [(Reg.SRC_CFG_EN 5, 1), (Reg.SRC_CFG_PRIO 5, 3), (Reg.SRC_CFG_TARGETS 5, 0xFF), (Reg.AK_STATUS_STATE, 6), (Reg.HQ_CFG_DEPTH 4, 64)]).setSrc 5 { pend := true, fifo := [⟨1, 5, 7, 9⟩, ⟨1, 5, 8, 10⟩] }), .host, 2, by decide +kernel⟩
theorem wit_OffersAreClaimedAndEnded_6 : ∃ (s : State) (o : Origin) (c : Nat) (v : Word) (n : Nat) (p : Nat),
    (c < 8) ∧ (s.accepts o (Reg.a_TGT_EOI c) v = true) ∧ (bits v.toNat 7 0 = n) ∧ ((n, p) ∈ (s.tgt c).stack) :=
  ⟨((r0.setSrc 5 { active := true, fifo := [⟨1, 5, 7, 9⟩] }).setTgt 2 { stack := [(5, 3)] }), .mc2, 2, 5#32, 5, 3, by decide +kernel⟩
theorem wit_OffersAreClaimedAndEnded_7 : ∃ (s : State) (o : Origin) (c : Nat) (v : Word),
    (c < 8) ∧ (s.accepts o (Reg.a_TGT_EOI c) v = true) ∧ (∀ e, e ∈ (s.tgt c).stack → e.1 ≠ bits v.toNat 7 0) :=
  ⟨((r0.setSrc 5 { active := true, fifo := [⟨1, 5, 7, 9⟩] }).setTgt 2 { stack := [(5, 3)] }), .mc2, 2, 6#32, by decide +kernel⟩
theorem wit_OffersAreClaimedAndEnded_8 : ∃ (s : State) (q : Nat) (n : Nat),
    (q < 4) ∧ (s.offer (4 + q) = some n) ∧ (s.is Reg.INTC_INJ_REC = false) :=
  ⟨((puts r0 [(Reg.SRC_CFG_EN 5, 1), (Reg.SRC_CFG_PRIO 5, 3), (Reg.SRC_CFG_TARGETS 5, 0xFF), (Reg.AK_STATUS_STATE, 6), (Reg.HQ_CFG_DEPTH 4, 64)]).setSrc 5 { pend := true, fifo := [⟨1, 5, 7, 9⟩, ⟨1, 5, 8, 10⟩] }), 0, 5, by decide +kernel⟩
theorem wit_OffersAreClaimedAndEnded_9 : ∃ (s : State) (q : Nat),
    (s.offer (4 + q) = none) :=
  ⟨r0, 1, by decide +kernel⟩
theorem wit_OffersAreClaimedAndEnded_10 : ∃ (s : State) (o : Origin) (c : Nat) (v : Word),
    (4 ≤ c) ∧ (c < 8) ∧ (s.accepts o (Reg.a_HQ_ACK c) v = true) ∧ (((s.get (Reg.HQ_STATUS_NEXT_SEQ c) + 65535 - v.toNat % 65536) % 65536) ≤ s.get (Reg.HQ_STATUS_OUTSTANDING c)) :=
  ⟨(puts r0 [(Reg.HQ_STATUS_NEXT_SEQ 4, 5), (Reg.HQ_STATUS_OUTSTANDING 4, 3)]), .host, 4, 3#32, by decide +kernel⟩
theorem wit_OffersAreClaimedAndEnded_11 : ∃ (s : State) (o : Origin) (c : Nat) (v : Word),
    (4 ≤ c) ∧ (c < 8) ∧ (s.accepts o (Reg.a_HQ_ACK c) v = true) ∧ (s.get (Reg.HQ_STATUS_OUTSTANDING c) < ((s.get (Reg.HQ_STATUS_NEXT_SEQ c) + 65535 - v.toNat % 65536) % 65536)) :=
  ⟨(puts r0 [(Reg.HQ_STATUS_NEXT_SEQ 4, 5), (Reg.HQ_STATUS_OUTSTANDING 4, 3)]), .host, 4, 7#32, by decide +kernel⟩
theorem wit_OffersAreClaimedAndEnded_12 : ∃ (c : Nat),
    (c < 8) :=
  ⟨2, by decide +kernel⟩
theorem wit_OffersAreClaimedAndEnded_13 : ∃ (s : State) (c : Nat),
    (c < 4) ∧ ((s.tgt c).held = false) :=
  ⟨r0, 1, by decide +kernel⟩
theorem wit_OffersAreClaimedAndEnded_14 : ∃ (c : Nat),
    (c = 2 ∨ c = 3) :=
  ⟨2, by decide +kernel⟩
theorem wit_OffersAreClaimedAndEnded_15 : ∃ (s : State) (c : Nat),
    (c = 2 ∨ c = 3) ∧ ((s.tgt c).held = true) ∧ (s.safeState = false) ∧ (s.cleared .SVC_SRAM_UNCORR = true) ∧ (s.cleared .SC_WDT = true) :=
  ⟨(r0.setTgt 3 { held := true }), 3, by decide +kernel⟩
theorem wit_RequestsAreAnsweredOnTheirBus_1 : ∃ (s : State) (fr : CanFrame) (u : Nat),
    (fr.fd = true) ∧ (s.serves fr = true) ∧ ((odHdr fr.bs).cmd = 1) ∧ (odMalformed (odHdr fr.bs) fr.bs = false) ∧ ((odHdr fr.bs).index = 0x1080 + u) ∧ ((odHdr fr.bs).sub = 1) ∧ (u < 17) ∧ (s.od.badObjs.contains (odHdr fr.bs).index = false) :=
  ⟨r0, (odFr 1 9 0x1083 1 0 [] []), 3, by decide +kernel⟩
theorem wit_RequestsAreAnsweredOnTheirBus_2 : ∃ (s : State) (fr : CanFrame) (u : Nat),
    (fr.fd = true) ∧ (s.serves fr = true) ∧ ((odHdr fr.bs).cmd = 1) ∧ (odMalformed (odHdr fr.bs) fr.bs = false) ∧ ((odHdr fr.bs).index = 0x1080 + u) ∧ ((odHdr fr.bs).sub = 2) ∧ (u < 17) ∧ (s.od.badObjs.contains (odHdr fr.bs).index = false) :=
  ⟨(r0.put (Reg.OWN_GEN 3) 0x102), (odFr 1 9 0x1083 2 0 [] []), 3, by decide +kernel⟩
theorem wit_RequestsAreAnsweredOnTheirBus_3 : ∃ (s : State) (fr : CanFrame) (g : Nat),
    (fr.fd = true) ∧ (s.serves fr = true) ∧ ((odHdr fr.bs).cmd = 1) ∧ (odMalformed (odHdr fr.bs) fr.bs = false) ∧ ((odHdr fr.bs).index = 0x1100 + g) ∧ ((odHdr fr.bs).sub = 1) ∧ (1 ≤ g) ∧ (g ≤ 14) ∧ (s.od.badObjs.contains (odHdr fr.bs).index = false) :=
  ⟨(r0.put (Reg.FC_STAT_LATCHED 3) 5), (odFr 1 9 0x1103 1 0 [] []), 3, by decide +kernel⟩
theorem wit_RequestsAreAnsweredOnTheirBus_4 : ∃ (s : State) (fr : CanFrame),
    (fr.fd = true) ∧ (s.serves fr = true) ∧ ((odHdr fr.bs).cmd = 1) ∧ (odMalformed (odHdr fr.bs) fr.bs = false) ∧ ((odHdr fr.bs).index = 0x0100) ∧ ((odHdr fr.bs).sub = 2) ∧ (s.od.badObjs.contains (odHdr fr.bs).index = false) :=
  ⟨r0, (odFr 1 9 0x0100 2 0 [] []), by decide +kernel⟩
theorem wit_RequestsAreAnsweredOnTheirBus_5 : ∃ (s : State) (fr : CanFrame),
    (fr.fd = true) ∧ (s.serves fr = true) ∧ ((odHdr fr.bs).cmd = 1) ∧ (odMalformed (odHdr fr.bs) fr.bs = false) ∧ (objKind (odHdr fr.bs).index = none) :=
  ⟨r0, (odFr 1 9 0x2006 1 0 [] []), by decide +kernel⟩
theorem wit_RequestsAreAnsweredOnTheirBus_6 : ∃ (s : State) (fr : CanFrame) (k : ObjKind),
    (fr.fd = true) ∧ (s.serves fr = true) ∧ ((odHdr fr.bs).cmd = 1) ∧ (odMalformed (odHdr fr.bs) fr.bs = false) ∧ (objKind (odHdr fr.bs).index = some k) ∧ (s.od.badObjs.contains (odHdr fr.bs).index = false) ∧ (objDesc k (odHdr fr.bs).sub = none) :=
  ⟨r0, (odFr 1 9 0x1083 4 0 [] []), .own 3, by decide +kernel⟩
theorem wit_RequestsAreAnsweredOnTheirBus_7 : ∃ (s : State) (fr : CanFrame) (k : ObjKind) (d : ObjDesc),
    (fr.fd = true) ∧ (s.serves fr = true) ∧ ((odHdr fr.bs).cmd = 1) ∧ (odMalformed (odHdr fr.bs) fr.bs = false) ∧ (objKind (odHdr fr.bs).index = some k) ∧ (s.od.badObjs.contains (odHdr fr.bs).index = false) ∧ (objDesc k (odHdr fr.bs).sub = some d) ∧ (d.acc = .wo) :=
  ⟨r0, (odFr 1 9 0x1083 3 0 [] []), .own 3, dWo 1 1 2, by decide +kernel⟩
theorem wit_RequestsAreAnsweredOnTheirBus_8 : ∃ (s : State) (fr : CanFrame) (k : ObjKind) (d : ObjDesc),
    (fr.fd = true) ∧ (s.serves fr = true) ∧ ((odHdr fr.bs).cmd = 2) ∧ (odMalformed (odHdr fr.bs) fr.bs = false) ∧ (objKind (odHdr fr.bs).index = some k) ∧ (s.od.badObjs.contains (odHdr fr.bs).index = false) ∧ (objDesc k (odHdr fr.bs).sub = some d) ∧ (d.acc = .ro ∨ d.acc = .const) :=
  ⟨r0, (odFr 2 9 0x1083 1 0 [1#8] []), .own 3, dRo 1, by decide +kernel⟩
theorem wit_RequestsAreAnsweredOnTheirBus_9 : ∃ (s : State) (fr : CanFrame) (k : ObjKind) (d : ObjDesc),
    (fr.fd = true) ∧ (s.serves fr = true) ∧ ((odHdr fr.bs).cmd = 2) ∧ (odMalformed (odHdr fr.bs) fr.bs = false) ∧ (objKind (odHdr fr.bs).index = some k) ∧ (s.od.badObjs.contains (odHdr fr.bs).index = false) ∧ (objDesc k (odHdr fr.bs).sub = some d) ∧ (d.acc = .rw ∨ d.acc = .wo) ∧ (pathRefused fr.bus k (odHdr fr.bs).sub = false) ∧ (s.safeState = true) ∧ (safeObject k (odHdr fr.bs).sub = false) :=
  ⟨(r0.put Reg.FC_STATUS_SAFE 1), (odFr 2 9 0x2030 3 0 [1#8] []), .pipe 3 0, { ty := .bool, acc := .rw }, by decide +kernel⟩
theorem wit_RequestsAreAnsweredOnTheirBus_10 : ∃ (s : State) (fr : CanFrame) (k : ObjKind) (d : ObjDesc),
    (fr.fd = true) ∧ (s.serves fr = true) ∧ ((odHdr fr.bs).cmd = 2) ∧ (odMalformed (odHdr fr.bs) fr.bs = false) ∧ (objKind (odHdr fr.bs).index = some k) ∧ (s.od.badObjs.contains (odHdr fr.bs).index = false) ∧ (objDesc k (odHdr fr.bs).sub = some d) ∧ (s.writeRefusal fr.bus k d (odHdr fr.bs).sub (odHdr fr.bs).len = none) ∧ (d.auth = true) ∧ ((odHdr fr.bs).auth = false) :=
  ⟨r0, (odFr 2 9 0x1083 3 0 [1#8] []), .own 3, dWo 1 1 2, by decide +kernel⟩
theorem wit_RequestsAreAnsweredOnTheirBus_11 : ∃ (s : State) (fr : CanFrame) (k : ObjKind) (d : ObjDesc),
    (fr.fd = true) ∧ (s.serves fr = true) ∧ ((odHdr fr.bs).cmd = 2) ∧ (odMalformed (odHdr fr.bs) fr.bs = false) ∧ (objKind (odHdr fr.bs).index = some k) ∧ (s.od.badObjs.contains (odHdr fr.bs).index = false) ∧ (objDesc k (odHdr fr.bs).sub = some d) ∧ (s.writeRefusal fr.bus k d (odHdr fr.bs).sub (odHdr fr.bs).len = none) ∧ (k ≠ .sync) ∧ ((odHdr fr.bs).auth = true) ∧ (s.streamKeyed 0 = true) ∧ (s.streamMac 0 (leBytes 4 fr.id ++ fr.bs.take 8 ++ ((fr.bs.drop 8).take (odHdr fr.bs).len) ++ (odTrailer fr.bs (odHdr fr.bs).len).1) ≠ (odTrailer fr.bs (odHdr fr.bs).len).2) :=
  ⟨key0, (odFr 2 9 0x1083 3 1 [1#8] (List.replicate 12 0#8)), .own 3, dWo 1 1 2, by decide +kernel⟩
theorem wit_RequestsAreAnsweredOnTheirBus_12 : ∃ (s : State) (fr : CanFrame),
    (fr.fd = true) ∧ (s.serves fr = true) ∧ ((odHdr fr.bs).cmd = 2) ∧ (odMalformed (odHdr fr.bs) fr.bs = false) ∧ ((odHdr fr.bs).index = 0x0200) ∧ ((odHdr fr.bs).sub = 1) ∧ (s.od.badObjs.contains (odHdr fr.bs).index = false) ∧ (s.safeState = false) ∧ ((odHdr fr.bs).len = 1) ∧ ((odHdr fr.bs).auth = true) ∧ (s.streamKeyed 0 = true) ∧ (s.streamMac 0 (leBytes 4 fr.id ++ fr.bs.take 8 ++ ((fr.bs.drop 8).take (odHdr fr.bs).len) ++ (odTrailer fr.bs (odHdr fr.bs).len).1) = (odTrailer fr.bs (odHdr fr.bs).len).2) ∧ (1 ≤ s.pastFloor 0 (leNat (odTrailer fr.bs (odHdr fr.bs).len).1)) ∧ (s.pastFloor 0 (leNat (odTrailer fr.bs (odHdr fr.bs).len).1) ≤ 65536) ∧ (1 ≤ leNat ((fr.bs.drop 8).take (odHdr fr.bs).len)) ∧ (leNat ((fr.bs.drop 8).take (odHdr fr.bs).len) ≤ 127) :=
  ⟨key0, (odMacd key0 0x0200 1 5 [40#8]), by decide +kernel⟩
theorem wit_RequestsAreAnsweredOnTheirBus_13 : ∃ (s : State) (fr : CanFrame) (u : Nat),
    (fr.fd = true) ∧ (s.serves fr = true) ∧ ((odHdr fr.bs).cmd = 2) ∧ (odMalformed (odHdr fr.bs) fr.bs = false) ∧ ((odHdr fr.bs).index = 0x1080 + u) ∧ ((odHdr fr.bs).sub = 3) ∧ (u < 12) ∧ (s.od.badObjs.contains (odHdr fr.bs).index = false) ∧ (s.safeState = false) ∧ ((odHdr fr.bs).len = 1) ∧ ((odHdr fr.bs).auth = true) ∧ (s.streamKeyed 0 = true) ∧ (s.streamMac 0 (leBytes 4 fr.id ++ fr.bs.take 8 ++ ((fr.bs.drop 8).take (odHdr fr.bs).len) ++ (odTrailer fr.bs (odHdr fr.bs).len).1) = (odTrailer fr.bs (odHdr fr.bs).len).2) ∧ (1 ≤ s.pastFloor 0 (leNat (odTrailer fr.bs (odHdr fr.bs).len).1)) ∧ (s.pastFloor 0 (leNat (odTrailer fr.bs (odHdr fr.bs).len).1) ≤ 65536) ∧ (leNat ((fr.bs.drop 8).take (odHdr fr.bs).len) = 1) ∧ (s.owner u = ownNone) :=
  ⟨(key0.put (Reg.OWN_OWNER 3) 0), (odMacd key0 0x1083 3 5 [1#8]), 3, by decide +kernel⟩
theorem wit_RequestsAreAnsweredOnTheirBus_14 : ∃ (s : State) (fr : CanFrame) (p : Nat),
    (fr.fd = true) ∧ (s.serves fr = true) ∧ ((odHdr fr.bs).cmd = 2) ∧ (odMalformed (odHdr fr.bs) fr.bs = false) ∧ ((odHdr fr.bs).index = 0x2005 + 16 * p) ∧ ((odHdr fr.bs).sub = 3) ∧ (p < 12) ∧ (s.od.badObjs.contains (odHdr fr.bs).index = false) ∧ (s.safeState = false) ∧ ((odHdr fr.bs).len = 4) ∧ ((odHdr fr.bs).auth = false) ∧ (s.owner p = ownVehicle) :=
  ⟨(r0.put (Reg.OWN_OWNER 3) 2), (odFr 2 9 0x2035 3 0 [1#8, 2#8, 0#8, 0#8] []), 3, by decide +kernel⟩
theorem wit_RequestsAreAnsweredOnTheirBus_15 : ∃ (s : State) (fr : CanFrame) (p : Nat),
    (fr.fd = true) ∧ (s.serves fr = true) ∧ ((odHdr fr.bs).cmd = 2) ∧ (odMalformed (odHdr fr.bs) fr.bs = false) ∧ ((odHdr fr.bs).index = 0x2005 + 16 * p) ∧ ((odHdr fr.bs).sub = 3) ∧ (p < 12) ∧ (s.od.badObjs.contains (odHdr fr.bs).index = false) ∧ (s.safeState = false) ∧ ((odHdr fr.bs).len = 4) ∧ ((odHdr fr.bs).auth = false) ∧ (s.owner p ≠ ownVehicle) :=
  ⟨r0, (odFr 2 9 0x2035 3 0 [1#8, 2#8, 0#8, 0#8] []), 3, by decide +kernel⟩
theorem wit_RequestsAreAnsweredOnTheirBus_16 : ∃ (s : State) (fr : CanFrame) (u : Nat),
    (fr.fd = false) ∧ (s.serves fr = true) ∧ (fr.bs.length = 8) ∧ ((odHdr fr.bs).cmd = 1) ∧ (odMalformed (odHdr fr.bs) fr.bs = false) ∧ ((odHdr fr.bs).auth = false) ∧ (s.is Reg.OD_CTRL_CLASSIC_READ = true) ∧ ((odHdr fr.bs).index = 0x1080 + u) ∧ (u < 17) ∧ ((odHdr fr.bs).sub = 1) ∧ (s.od.badObjs.contains (odHdr fr.bs).index = false) :=
  ⟨r0, { (odFr 1 9 0x1083 1 0 [] []) with fd := false }, 3, by decide +kernel⟩
theorem wit_RequestsAreAnsweredOnTheirBus_17 : ∃ (s : State) (fr : CanFrame),
    (fr.fd = false) ∧ (s.serves fr = true) ∧ (fr.bs.length ≠ 8 ∨ (odHdr fr.bs).cmd ≠ 1 ∨ s.is Reg.OD_CTRL_CLASSIC_READ = false) :=
  ⟨r0, { (odFr 2 9 0x1083 1 0 [] []) with fd := false }, by decide +kernel⟩
theorem wit_RequestsAreAnsweredOnTheirBus_18 : ∃ (s : State) (fr : CanFrame),
    (s.od.skewed = none) ∧ (fr.id ≠ s.requestId) ∧ (fr.id ≠ s.stateId) :=
  ⟨r0, { (odFr 2 9 0x1083 1 0 [] []) with id := 0x4A0 }, by decide +kernel⟩
theorem wit_SegmentedTransfersRun_1 : ∃ (s : State) (fr : CanFrame),
    (fr.fd = true) ∧ (s.serves fr = true) ∧ ((odHdr fr.bs).cmd = 3) ∧ (odMalformed (odHdr fr.bs) fr.bs = false) ∧ ((odHdr fr.bs).index = 0x0100) ∧ ((odHdr fr.bs).sub = 2) ∧ (s.od.badObjs.contains (odHdr fr.bs).index = false) ∧ ((s.seg fr.bus) = none) ∧ ((odHdr fr.bs).len = 0) :=
  ⟨r0, (odFr 3 9 0x0100 2 0 [] []), by decide +kernel⟩
theorem wit_SegmentedTransfersRun_2 : ∃ (s : State) (fr : CanFrame) (x : Seg),
    (fr.fd = true) ∧ (s.serves fr = true) ∧ ((odHdr fr.bs).cmd = 133) ∧ ((s.seg fr.bus) = some x) ∧ (x.write = false) ∧ (x.txn = (odHdr fr.bs).txn) ∧ (x.acked = 0) ∧ (x.seq = 1) ∧ (segCount fr.bus x = 1) ∧ (4 ≤ fr.bs.length) ∧ (leNat ((fr.bs.drop 2).take 1) = 0) :=
  ⟨(seg0 ({ write := false, txn := 9, index := 0x0100, sub := 2, total := 8, data := strBytes "TD96-AQ2", seq := 1, brs := false } : Seg)), (⟨0, 0x4A1, true, [133#8, 9#8, 0#8, 0#8] ++ [], false⟩ : CanFrame), ({ write := false, txn := 9, index := 0x0100, sub := 2, total := 8, data := strBytes "TD96-AQ2", seq := 1, brs := false } : Seg), by decide +kernel⟩
theorem wit_SegmentedTransfersRun_3 : ∃ (s : State) (fr : CanFrame) (k : ObjKind) (d : ObjDesc),
    (fr.fd = true) ∧ (s.serves fr = true) ∧ ((odHdr fr.bs).cmd = 4) ∧ (odMalformed (odHdr fr.bs) fr.bs = false) ∧ (objKind (odHdr fr.bs).index = some k) ∧ (s.od.badObjs.contains (odHdr fr.bs).index = false) ∧ (objDesc k (odHdr fr.bs).sub = some d) ∧ (s.writeRefusal fr.bus k d (odHdr fr.bs).sub (leNat ((fr.bs.drop 8).take 4)) = none) ∧ ((s.seg fr.bus) = none) :=
  ⟨r0, (odFr 4 9 0x3104 1 0 [3#8, 0#8, 0#8, 0#8] []), .sig 4, { ty := .str 16, acc := .rw }, by decide +kernel⟩
theorem wit_SegmentedTransfersRun_4 : ∃ (s : State) (fr : CanFrame) (x : Seg),
    (fr.fd = true) ∧ (s.serves fr = true) ∧ ((odHdr fr.bs).cmd = 4) ∧ (odMalformed (odHdr fr.bs) fr.bs = false) ∧ ((s.seg fr.bus) = some x) :=
  ⟨(seg0 segW), (odFr 4 9 0x3104 1 0 [3#8, 0#8, 0#8, 0#8] []), segW, by decide +kernel⟩
theorem wit_SegmentedTransfersRun_5 : ∃ (s : State) (fr : CanFrame) (x : Seg),
    (fr.fd = true) ∧ (s.serves fr = true) ∧ ((odHdr fr.bs).cmd = 5) ∧ ((s.seg fr.bus) = some x) ∧ (x.write = true) ∧ (x.txn = (odHdr fr.bs).txn) ∧ (leNat ((fr.bs.drop 2).take 1) = x.seq % 256) ∧ ((min 60 (x.total - x.data.length)) ≠ 0) ∧ (4 + (min 60 (x.total - x.data.length)) ≤ fr.bs.length) ∧ (x.seq + 1 - x.acked ≠ 16) ∧ (x.data.length + (min 60 (x.total - x.data.length)) ≠ x.total) :=
  ⟨(seg0 { segW with total := 100 }), (⟨0, 0x4A1, true, [5#8, 9#8, 0#8, 0#8] ++ List.replicate 60 7#8, false⟩ : CanFrame), { segW with total := 100 }, by decide +kernel⟩
theorem wit_SegmentedTransfersRun_6 : ∃ (s : State) (fr : CanFrame) (x : Seg),
    (fr.fd = true) ∧ (s.serves fr = true) ∧ ((odHdr fr.bs).cmd = 5) ∧ ((s.seg fr.bus) = some x) ∧ (x.write = true) ∧ (x.txn = (odHdr fr.bs).txn) ∧ (leNat ((fr.bs.drop 2).take 1) = x.seq % 256) ∧ ((min 60 (x.total - x.data.length)) ≠ 0) ∧ (4 + (min 60 (x.total - x.data.length)) ≤ fr.bs.length) ∧ (x.data.length + (min 60 (x.total - x.data.length)) = x.total) :=
  ⟨(seg0 segW), (⟨0, 0x4A1, true, [5#8, 9#8, 0#8, 0#8] ++ [0x41#8, 0x42#8, 0x43#8], false⟩ : CanFrame), segW, by decide +kernel⟩
theorem wit_SegmentedTransfersRun_7 : ∃ (s : State) (fr : CanFrame) (x : Seg),
    (fr.fd = true) ∧ (s.serves fr = true) ∧ ((odHdr fr.bs).cmd = 6) ∧ (odMalformed (odHdr fr.bs) fr.bs = false) ∧ ((s.seg fr.bus) = some x) ∧ (x.write = true) ∧ (x.txn = (odHdr fr.bs).txn) ∧ (x.data.length = x.total) ∧ (leNat ((fr.bs.drop 8).take 4) = crc32c x.data) ∧ (x.second = false) ∧ (x.index = 0x3104) ∧ (x.sub = 1) ∧ (s.od.badObjs.contains 0x3104 = false) ∧ (s.safeState = false) ∧ (x.total ≤ 16) ∧ ((odHdr fr.bs).auth = false) ∧ (∀ b, b ∈ x.data → 0x20 ≤ b.toNat ∧ b.toNat ≤ 0x7E) :=
  ⟨(seg0 { segW with data := [0x41#8, 0x42#8, 0x43#8], seq := 1, acked := 1 }), (odFr 6 9 0x3104 1 0 (leBytes 4 (crc32c [0x41#8, 0x42#8, 0x43#8])) []), { segW with data := [0x41#8, 0x42#8, 0x43#8], seq := 1, acked := 1 }, by decide +kernel⟩
theorem wit_SegmentedTransfersRun_8 : ∃ (s : State) (fr : CanFrame) (x : Seg),
    (fr.fd = true) ∧ (s.serves fr = true) ∧ ((odHdr fr.bs).cmd = 6) ∧ (odMalformed (odHdr fr.bs) fr.bs = false) ∧ ((s.seg fr.bus) = some x) ∧ (x.write = true) ∧ (x.txn = (odHdr fr.bs).txn) ∧ (x.data.length = x.total) ∧ (leNat ((fr.bs.drop 8).take 4) ≠ crc32c x.data) ∧ (x.second = false) :=
  ⟨(seg0 { segW with data := [0x41#8, 0x42#8, 0x43#8], seq := 1, acked := 1 }), (odFr 6 9 0x3104 1 0 [0#8, 0#8, 0#8, 0#8] []), { segW with data := [0x41#8, 0x42#8, 0x43#8], seq := 1, acked := 1 }, by decide +kernel⟩
theorem wit_SegmentedTransfersRun_9 : ∃ (s : State) (fr : CanFrame) (x : Seg),
    (fr.fd = true) ∧ (s.serves fr = true) ∧ ((odHdr fr.bs).cmd = 6) ∧ (odMalformed (odHdr fr.bs) fr.bs = false) ∧ ((s.seg fr.bus) = some x) ∧ (x.write = true) ∧ (x.txn = (odHdr fr.bs).txn) ∧ (x.data.length = x.total) ∧ (leNat ((fr.bs.drop 8).take 4) ≠ crc32c x.data) ∧ (x.second = true) :=
  ⟨(seg0 { { segW with data := [0x41#8, 0x42#8, 0x43#8], seq := 1, acked := 1 } with second := true }), (odFr 6 9 0x3104 1 0 [0#8, 0#8, 0#8, 0#8] []), { { segW with data := [0x41#8, 0x42#8, 0x43#8], seq := 1, acked := 1 } with second := true }, by decide +kernel⟩
theorem wit_SegmentedTransfersRun_10 : ∃ (s : State) (fr : CanFrame) (x : Seg),
    (fr.fd = true) ∧ (s.serves fr = true) ∧ ((odHdr fr.bs).cmd = 7) ∧ ((s.seg fr.bus) = some x) ∧ (x.txn = (odHdr fr.bs).txn) :=
  ⟨(seg0 segW), (odFr 7 9 0x3104 1 0 [0#8, 0#8, 0#8, 0#8] []), segW, by decide +kernel⟩
theorem wit_SegmentedTransfersRun_11 : ∃ (s : State) (b : Nat) (x : Seg),
    (b < 2) ∧ (s.odRuns = true) ∧ (s.canSends b = true) ∧ (s.seg b = some x) :=
  ⟨(seg0 segW), 0, segW, by decide +kernel⟩
theorem wit_SegmentedTransfersRun_12 : ∃ (s : State) (b : Nat),
    (s.seg b = none) :=
  ⟨r0, 1, by decide +kernel⟩
theorem wit_TellTaleFramesAndBusErrors_1 : ∃ (s : State) (fr : CanFrame),
    (fr.fd = true) ∧ (fr.bs.length = 32) ∧ (fr.bus < 2) ∧ (s.odRuns = true) ∧ (s.canUp fr.bus = true) ∧ (s.od.skewed = none) ∧ (fr.id = s.stateId) ∧ (s.is Reg.OD_INJ_RAM = false) ∧ (s.streamKeyed 1 = true) ∧ (s.streamMac 1 (leBytes 4 fr.id ++ fr.bs.take 20) = (fr.bs.drop 20).take 8) ∧ (1 ≤ s.pastFloor 1 (leNat ((fr.bs.drop 16).take 4))) ∧ (s.pastFloor 1 (leNat ((fr.bs.drop 16).take 4)) ≤ 65536) :=
  ⟨(keyed 1), (let b := leBytes 16 0xE4 ++ leBytes 4 5; (⟨0, 0x0C8, true, b ++ (keyed 1).streamMac 1 (leBytes 4 0x0C8 ++ b) ++ [0#8, 0#8, 0#8, 0#8], false⟩ : CanFrame)), by decide +kernel⟩
theorem wit_TellTaleFramesAndBusErrors_2 : ∃ (s : State) (fr : CanFrame),
    (fr.fd = true) ∧ (fr.bs.length = 32) ∧ (fr.bus < 2) ∧ (s.odRuns = true) ∧ (s.canUp fr.bus = true) ∧ (s.od.skewed = none) ∧ (fr.id = s.stateId) ∧ (s.is Reg.OD_INJ_RAM = false) ∧ (s.streamKeyed 1 = true) ∧ (s.streamMac 1 (leBytes 4 fr.id ++ fr.bs.take 20) ≠ (fr.bs.drop 20).take 8) :=
  ⟨(keyed 1), (⟨0, 0x0C8, true, List.replicate 32 0#8, false⟩ : CanFrame), by decide +kernel⟩
theorem wit_TellTaleFramesAndBusErrors_3 : ∃ (s : State),
    (s.odRuns = true) :=
  ⟨r0, by decide +kernel⟩
theorem wit_TellTaleFramesAndBusErrors_4 : ∃ (s : State),
    (s.odRuns = true) ∧ (s.is Reg.OD_SF_CFG_TX_EN = true) ∧ (s.streamKeyed 3 = true) ∧ (s.canSends 0 = true) ∧ (s.canSends 1 = true) :=
  ⟨(keyed 3), by decide +kernel⟩
theorem wit_TellTaleFramesAndBusErrors_5 : ∃ (s : State),
    (s.streamKeyed 3 = false) :=
  ⟨r0, by decide +kernel⟩
theorem wit_TellTaleFramesAndBusErrors_6 : ∃ (s : State),
    (s.od.skewed = none) :=
  ⟨r0, by decide +kernel⟩
theorem wit_TellTaleFramesAndBusErrors_7 : ∃ (s : State) (q : OdReq) (g : Bool) (i : Bool),
    (s.od.skewed = some (q, g, i)) ∧ (s.od.inbox = []) :=
  ⟨{ r0 with od := { r0.od with skewed := some (⟨0, 1, 0x1083, 1, 0x81, false, false⟩, false, true) } }, ⟨0, 1, 0x1083, 1, 0x81, false, false⟩, false, true, by decide +kernel⟩
theorem wit_TellTaleFramesAndBusErrors_8 : ∃ (s : State) (n : Nat),
    (n < 2) ∧ (s.canUp n = true) ∧ (SMap.get 0 s.od.busOffAt n = 0) :=
  ⟨r0, 1, by decide +kernel⟩
theorem wit_TellTaleFramesAndBusErrors_9 : ∃ (s : State) (n : Nat) (w : Nat),
    (n < 2) ∧ (s.canUp n = true) ∧ (SMap.get 0 s.od.busOffAt n = w + 1) ∧ (s.now - w ≤ 1000 * msNs) :=
  ⟨{ r0 with od := { r0.od with busOffAt := [(1, 1)] } }, 1, 0, by decide +kernel⟩
theorem wit_TellTaleFramesAndBusErrors_10 : ∃ (s : State) (n : Nat),
    (n < 2) ∧ (s.emb.main = true) ∧ (s.get (Reg.CAN_STATUS_STATE n) = 2) :=
  ⟨(r0.put (Reg.CAN_STATUS_STATE 1) 2), 1, by decide +kernel⟩
theorem wit_TellTaleFramesAndBusErrors_11 : ∃ (s : State) (n : Nat),
    (s.get (Reg.CAN_STATUS_STATE n) ≠ 2) :=
  ⟨r0, 1, by decide +kernel⟩
theorem wit_TellTaleFramesAndBusErrors_12 : ∃ (s : State) (n : Nat),
    (n < 2) ∧ (s.canUp n = true) :=
  ⟨r0, 1, by decide +kernel⟩
theorem wit_TellTaleFramesAndBusErrors_13 : ∃ (s : State) (o : Origin) (v : Word),
    (s.accepts o (Reg.a_OD_INJ) v = true) :=
  ⟨r0, .sp, 9#32, by decide +kernel⟩
theorem wit_UnitsChangeOwnersByThreeRequests_1 : ∃ (s : State) (o : Origin) (u : Nat),
    (u < 17) ∧ (s.accepts o (Reg.a_OWN u) (BitVec.ofNat 32 (1 * 256 + (s.get (Reg.OWN_ASSIGN_TO u)) * 4096)) = true) ∧ (u ≠ 12) ∧ (ownPermitted u (originPath o) = true) ∧ (s.owner u = ownNone) :=
  ⟨((r0.put (Reg.OWN_OWNER 3) 0)), .host, 3, by decide +kernel⟩
theorem wit_UnitsChangeOwnersByThreeRequests_2 : ∃ (s : State) (o : Origin) (u : Nat),
    (u < 17) ∧ (s.accepts o (Reg.a_OWN u) (BitVec.ofNat 32 (1 * 256 + (s.get (Reg.OWN_ASSIGN_TO u)) * 4096)) = true) ∧ (u ≠ 12) ∧ (ownPermitted u (originPath o) = true) ∧ (s.owner u ≠ ownNone) :=
  ⟨(r0.put (Reg.OWN_OWNER 3) 2), .host, 3, by decide +kernel⟩
theorem wit_UnitsChangeOwnersByThreeRequests_3 : ∃ (s : State) (o : Origin) (u : Nat),
    (u < 17) ∧ (s.accepts o (Reg.a_OWN u) (BitVec.ofNat 32 (1 * 256 + (s.get (Reg.OWN_ASSIGN_TO u)) * 4096)) = true) ∧ (u = 12 ∨ ownPermitted u (originPath o) = false) :=
  ⟨r0, .host, 13, by decide +kernel⟩
theorem wit_UnitsChangeOwnersByThreeRequests_4 : ∃ (s : State) (o : Origin) (u : Nat),
    (u < 17) ∧ (s.accepts o (Reg.a_OWN u) (BitVec.ofNat 32 (2 * 256 + (s.get (Reg.OWN_ASSIGN_TO u)) * 4096)) = true) ∧ (u ≠ 12) ∧ (s.owner u = originPath o) :=
  ⟨(r0.put (Reg.OWN_OWNER 16) 1), .host, 16, by decide +kernel⟩
theorem wit_UnitsChangeOwnersByThreeRequests_5 : ∃ (s : State) (o : Origin) (u : Nat),
    (u < 17) ∧ (s.accepts o (Reg.a_OWN u) (BitVec.ofNat 32 (2 * 256 + (s.get (Reg.OWN_ASSIGN_TO u)) * 4096)) = true) ∧ (u = 12 ∨ s.owner u ≠ originPath o) :=
  ⟨r0, .sp, 12, by decide +kernel⟩
theorem wit_UnitsChangeOwnersByThreeRequests_6 : ∃ (s : State) (o : Origin) (u : Nat) (w : Nat),
    (u < 17) ∧ (o = .sp) ∧ (s.accepts o (Reg.a_OWN u) (BitVec.ofNat 32 (3 * 256 + (w % 4) * 4096)) = true) ∧ (ownPermitted u (w % 4) = true) :=
  ⟨r0, .sp, 3, 2, by decide +kernel⟩
theorem wit_UnitsChangeOwnersByThreeRequests_7 : ∃ (s : State) (o : Origin) (u : Nat) (w : Nat),
    (u < 17) ∧ (o = .sp) ∧ (s.accepts o (Reg.a_OWN u) (BitVec.ofNat 32 (3 * 256 + (w % 4) * 4096)) = true) ∧ (ownPermitted u (w % 4) = false) :=
  ⟨r0, .sp, 12, 1, by decide +kernel⟩
theorem wit_UnitsChangeOwnersByThreeRequests_8 : ∃ (s : State) (o : Origin) (u : Nat) (w : Nat),
    (u < 17) ∧ (isHostPath o = true) ∧ (s.accepts o (Reg.a_OWN u) (BitVec.ofNat 32 (3 * 256 + (w % 4) * 4096)) = true) :=
  ⟨r0, .host, 3, 2, by decide +kernel⟩
theorem wit_PowerStatesAreEnteredAndLeft_1 : ∃ (s : State) (o : Origin),
    (s.accepts o (Reg.a_PWR_STATE) 0x100#32 = true) ∧ (∀ p, p < 12 → s.mode p = .stopped) ∧ (s.owner 16 = originPath o) ∧ (s.is Reg.PWR_STATE_BUSY = false) :=
  ⟨(r0.put (Reg.DS_STATUS_STATE 2) 2), .sp, by decide +kernel⟩
theorem wit_PowerStatesAreEnteredAndLeft_2 : ∃ (s : State) (o : Origin) (p : Nat),
    (s.accepts o (Reg.a_PWR_STATE) 0x100#32 = true) ∧ (p < 12) ∧ (s.mode p ≠ .stopped) :=
  ⟨run0, .sp, 0, by decide +kernel⟩
theorem wit_PowerStatesAreEnteredAndLeft_3 : ∃ (s : State) (o : Origin),
    (s.accepts o (Reg.a_PWR_STATE) 0x100#32 = true) ∧ (∀ p, p < 12 → s.mode p = .stopped) ∧ (s.owner 16 ≠ originPath o) :=
  ⟨(r0.put (Reg.OWN_OWNER 16) 1), .sp, by decide +kernel⟩
theorem wit_PowerStatesAreEnteredAndLeft_4 : ∃ (s : State) (o : Origin),
    (s.accepts o (Reg.a_PWR_STATE) 0x200#32 = true) ∧ (∀ p, p < 12 → s.mode p = .stopped) ∧ (s.owner 16 = originPath o) ∧ (s.is Reg.PWR_STATE_BUSY = false) :=
  ⟨(r0.put (Reg.DS_STATUS_STATE 2) 2), .sp, by decide +kernel⟩
theorem wit_PowerStatesAreEnteredAndLeft_5 : ∃ (s : State) (o : Origin) (p : Nat),
    (s.accepts o (Reg.a_PWR_STATE) 0x200#32 = true) ∧ (p < 12) ∧ (s.mode p ≠ .stopped) :=
  ⟨run0, .sp, 0, by decide +kernel⟩
theorem wit_PowerStatesAreEnteredAndLeft_6 : ∃ (s : State) (o : Origin),
    (s.accepts o (Reg.a_PWR_STATE) 0x200#32 = true) ∧ (∀ p, p < 12 → s.mode p = .stopped) ∧ (s.owner 16 ≠ originPath o) :=
  ⟨(r0.put (Reg.OWN_OWNER 16) 1), .sp, by decide +kernel⟩
theorem wit_PowerStatesAreEnteredAndLeft_7 : ∃ (s : State),
    (s.emb.target ≠ 0) ∧ (s.emb.waking = false) ∧ (s.emb.parked = false) ∧ (s.emb.main = true) ∧ (s.emb.seen = 0) :=
  ⟨{ r0 with emb := { target := 1 } }, by decide +kernel⟩
theorem wit_PowerStatesAreEnteredAndLeft_8 : ∃ (s : State),
    (s.emb.target ≠ 0) ∧ (s.emb.waking = false) ∧ (s.emb.parked = false) ∧ (s.emb.main = true) ∧ (s.emb.seen ≠ 0) :=
  ⟨{ r0 with emb := { target := 2, seen := 5 } }, by decide +kernel⟩
theorem wit_PowerStatesAreEnteredAndLeft_9 : ∃ (s : State),
    (s.emb.target = 0) :=
  ⟨r0, by decide +kernel⟩
theorem wit_PowerStatesAreEnteredAndLeft_10 : ∃ (s : State),
    (s.emb.target ≠ 0) ∧ (s.emb.parked = false) :=
  ⟨{ r0 with emb := { target := 2 } }, by decide +kernel⟩
theorem wit_PowerStatesAreEnteredAndLeft_11 : ∃ (s : State) (m : Nat),
    (s.emb.target ≠ 0) ∧ (s.emb.resetN = true) ∧ (s.emb.supply = true) ∧ (s.emb.waking = false) ∧ (s.emb.parked = true) ∧ ((m % 64 &&& s.get Reg.EMB_WAKE_MASK_MASK) ≠ 0) :=
  ⟨{ r0 with emb := { main := false, pgood := false, pmicEn := false, retEn := true, parked := true, target := 1 } }, 3, by decide +kernel⟩
theorem wit_PowerStatesAreEnteredAndLeft_12 : ∃ (s : State),
    (s.emb.target ≠ 0) ∧ (s.emb.resetN = true) ∧ (s.emb.supply = true) ∧ (s.emb.waking = false) ∧ (s.emb.parked = false) :=
  ⟨{ r0 with emb := { target := 1, seen := 1 } }, by decide +kernel⟩
theorem wit_PowerStatesAreEnteredAndLeft_13 : ∃ (s : State) (m : Nat),
    ((m % 64 &&& s.get Reg.EMB_WAKE_MASK_MASK) = 0 ∨ s.emb.target = 0 ∨ s.emb.resetN = false) :=
  ⟨{ r0 with emb := { main := false, pgood := false, pmicEn := false, retEn := true, parked := true, target := 1 } }, 8, by decide +kernel⟩
theorem wit_PowerStatesAreEnteredAndLeft_14 : ∃ (s : State),
    (s.emb.pgood = false) ∧ (s.emb.pmicEn = true) :=
  ⟨{ r0 with emb := { pgood := false, main := false } }, by decide +kernel⟩
theorem wit_PowerStatesAreEnteredAndLeft_15 : ∃ (s : State),
    (s.emb.pgood = true ∨ s.emb.pmicEn = false) :=
  ⟨r0, by decide +kernel⟩
theorem wit_PowerStatesAreEnteredAndLeft_16 : ∃ (s : State),
    (s.emb.main = false) ∧ (s.emb.pgood = true) ∧ (s.emb.pmicEn = true) ∧ (s.emb.resetN = true) ∧ (s.emb.supply = true) ∧ ((s.src 190).active = false) ∧ (s.emb.retained = false) :=
  ⟨({ (r0.put Reg.EMB_WAKE_SEEN_SEEN 3) with emb := { main := false, waking := true, target := 2 }, kin := { cause := 2 }, intc := { tgts := resetTgts } }), by decide +kernel⟩
theorem wit_PowerStatesAreEnteredAndLeft_17 : ∃ (s : State) (b : Nat) (hs : List (Nat × Handle)),
    (s.emb.main = false) ∧ (s.emb.pgood = true) ∧ (s.emb.pmicEn = true) ∧ (s.emb.resetN = true) ∧ (s.emb.supply = true) ∧ (s.emb.retained = true) ∧ (s.hm.metaCopies = [(true, hs), (true, hs)]) ∧ (b % 4 = 0) ∧ (s.hm.heldAcc = []) :=
  ⟨({ r0 with emb := { main := false, waking := true, target := 1, retained := true, fences := 2 }, kin := { cause := 1 }, hm := { r0.hm with metaCopies := [(true, [(3, { alloc := true, owner := 1, st := .sealed })]), (true, [(3, { alloc := true, owner := 1, st := .sealed })])], mem := [(64, 5#8)] } }), 0, [(3, { alloc := true, owner := 1, st := .sealed })], by decide +kernel⟩
theorem wit_PowerStatesAreEnteredAndLeft_18 : ∃ (s : State),
    (s.emb.main = true ∨ s.emb.pgood = false ∨ s.emb.resetN = false) :=
  ⟨r0, by decide +kernel⟩
theorem wit_PowerStatesAreEnteredAndLeft_19 : ∃ (s : State),
    (s.emb.pgood = true) ∧ (s.emb.main = true) ∧ (s.emb.target = 0) :=
  ⟨r0, by decide +kernel⟩
theorem wit_PowerStatesAreEnteredAndLeft_20 : ∃ (s : State),
    (s.emb.resetN = true) ∧ (s.emb.supply = true) :=
  ⟨run0, by decide +kernel⟩
theorem wit_PowerStatesAreEnteredAndLeft_21 : ∃ (s : State),
    (s.emb.resetN = false) ∧ (s.emb.supply = true) :=
  ⟨{ r0 with emb := { resetN := false, main := false } }, by decide +kernel⟩
theorem wit_PowerStatesAreEnteredAndLeft_22 : ∃ (s : State),
    (s.emb.supply = true) :=
  ⟨(r0.put Reg.EMB_WAKE_MASK_MASK 1), by decide +kernel⟩
theorem wit_PowerStatesAreEnteredAndLeft_23 : ∃ (s : State),
    (s.emb.supply = false) :=
  ⟨{ r0 with emb := { supply := false, main := false }, flash := { r0.flash with floors := [(1, 7)] } }, by decide +kernel⟩
theorem wit_PowerStatesAreEnteredAndLeft_24 : ∃ (s : State),
    (s.emb.supply = true) :=
  ⟨r0, by decide +kernel⟩
theorem wit_BudgetSensorsAndSupplyFollow_1 : ∃ (s : State) (o : Origin) (v : Word),
    (s.accepts o (Reg.a_PWR_BUDGET) v = true) :=
  ⟨(r0.put Reg.PWR_STATUS_THERMAL_LIMIT 100), .sp, 511#32, by decide +kernel⟩
theorem wit_BudgetSensorsAndSupplyFollow_2 : ∃ (s : State) (ts : List Int) (x : Int) (n : Nat),
    (s.is Reg.PWR_INJ_SENSOR = false) ∧ (s.is Reg.PWR_INJ_CRIT = false) ∧ (validAt ts none = rangeFrom 0 16) ∧ (hottest ts (rangeFrom 0 16) = some (x, n)) ∧ (x < 488) ∧ (s.fc.conds.contains FaultId.TH_CRIT.code = false) :=
  ⟨r0, (List.replicate 16 100), 100, 0, by decide +kernel⟩
theorem wit_BudgetSensorsAndSupplyFollow_3 : ∃ (s : State) (ts : List Int) (x : Int) (n : Nat),
    (s.is Reg.PWR_INJ_SENSOR = false) ∧ (s.is Reg.PWR_INJ_CRIT = false) ∧ (validAt ts none = rangeFrom 0 16) ∧ (hottest ts (rangeFrom 0 16) = some (x, n)) ∧ (488 ≤ x) ∧ (s.fc.conds.contains FaultId.TH_CRIT.code = false) :=
  ⟨r0, (List.replicate 16 488), 488, 0, by decide +kernel⟩
theorem wit_BudgetSensorsAndSupplyFollow_4 : ∃ (s : State) (ts : List Int) (i : Nat),
    (s.is Reg.PWR_INJ_SENSOR = false) ∧ (s.is Reg.PWR_INJ_CRIT = false) ∧ (i < 16) ∧ (bit (s.get Reg.TH_VALID_VALID) i = true) ∧ ((validAt ts none).contains i = false) :=
  ⟨r0, (List.replicate 15 100 ++ [200]), 15, by decide +kernel⟩
theorem wit_BudgetSensorsAndSupplyFollow_5 : ∃ (s : State),
    (s.pwr.avsStopped = true ∨ s.pllLocked 12 = false) :=
  ⟨r0, by decide +kernel⟩
theorem wit_BudgetSensorsAndSupplyFollow_6 : ∃ (s : State) (m : Nat) (r1 : Option Nat),
    (s.pwr.avsStopped = false) ∧ (s.pllLocked 12 = true) ∧ (s.is Reg.PWR_INJ_MARGIN = false) ∧ (s.pwr.avsInj = 0) ∧ (10 ≤ m) ∧ (m < s.get Reg.AVS_CFG_MLO) ∧ (avsGood r1 (min 850 (s.get Reg.AVS_STATUS_TARGET_MV + 10)) = true) :=
  ⟨(r0.put (Reg.PLL_STATUS_STATE 12) 6), 20, some 760, by decide +kernel⟩
theorem wit_BudgetSensorsAndSupplyFollow_7 : ∃ (s : State) (m : Nat) (r1 : Option Nat),
    (s.pwr.avsStopped = false) ∧ (s.pllLocked 12 = true) ∧ (s.is Reg.PWR_INJ_MARGIN = false) ∧ (s.pwr.avsInj = 0) ∧ (10 ≤ m) ∧ (s.get Reg.AVS_CFG_MLO ≤ m) ∧ (m ≤ (if s.get Reg.AVS_CFG_MHI ≤ s.get Reg.AVS_CFG_MLO then s.get Reg.AVS_CFG_MLO + 1 else s.get Reg.AVS_CFG_MHI)) ∧ (avsGood r1 (s.get Reg.AVS_STATUS_TARGET_MV) = true) :=
  ⟨(r0.put (Reg.PLL_STATUS_STATE 12) 6), 60, some 750, by decide +kernel⟩
theorem wit_BudgetSensorsAndSupplyFollow_8 : ∃ (s : State) (m : Nat) (r1 : Option Nat),
    (s.pwr.avsStopped = false) ∧ (s.pllLocked 12 = true) ∧ (s.is Reg.PWR_INJ_MARGIN = false) ∧ (s.pwr.avsInj = 0) ∧ (10 ≤ m) ∧ (s.get Reg.AVS_CFG_MLO ≤ m) ∧ ((if s.get Reg.AVS_CFG_MHI ≤ s.get Reg.AVS_CFG_MLO then s.get Reg.AVS_CFG_MLO + 1 else s.get Reg.AVS_CFG_MHI) < m) ∧ (s.pwr.easy + 1 = 8) ∧ (avsGood r1 (max 650 (s.get Reg.AVS_STATUS_TARGET_MV - 5)) = true) :=
  ⟨{ (r0.put (Reg.PLL_STATUS_STATE 12) 6) with pwr := { easy := 7 } }, 100, some 745, by decide +kernel⟩
theorem wit_BudgetSensorsAndSupplyFollow_9 : ∃ (s : State) (m : Nat) (r1 : Option Nat),
    (s.pwr.avsStopped = false) ∧ (s.pllLocked 12 = true) ∧ (s.is Reg.PWR_INJ_MARGIN = false) ∧ (s.pwr.avsInj = 0) ∧ (10 ≤ m) ∧ (s.get Reg.AVS_CFG_MLO ≤ m) ∧ ((if s.get Reg.AVS_CFG_MHI ≤ s.get Reg.AVS_CFG_MLO then s.get Reg.AVS_CFG_MLO + 1 else s.get Reg.AVS_CFG_MHI) < m) ∧ (s.pwr.easy + 1 ≠ 8) ∧ (avsGood r1 (s.get Reg.AVS_STATUS_TARGET_MV) = true) :=
  ⟨{ (r0.put (Reg.PLL_STATUS_STATE 12) 6) with pwr := { easy := 3 } }, 100, some 750, by decide +kernel⟩
theorem wit_BudgetSensorsAndSupplyFollow_10 : ∃ (s : State) (m : Nat) (r1 : Option Nat) (r2 : Option Nat),
    (s.pwr.avsStopped = false) ∧ (s.pllLocked 12 = true) ∧ (s.is Reg.PWR_INJ_MARGIN = false) ∧ (s.pwr.avsInj = 0) ∧ (10 ≤ m) ∧ (s.get Reg.AVS_CFG_MLO ≤ m) ∧ (m ≤ (if s.get Reg.AVS_CFG_MHI ≤ s.get Reg.AVS_CFG_MLO then s.get Reg.AVS_CFG_MLO + 1 else s.get Reg.AVS_CFG_MHI)) ∧ (avsGood r1 (s.get Reg.AVS_STATUS_TARGET_MV) = false) ∧ (avsGood r2 (s.get Reg.AVS_STATUS_TARGET_MV) = true) :=
  ⟨(r0.put (Reg.PLL_STATUS_STATE 12) 6), 60, none, some 765, by decide +kernel⟩
theorem wit_BudgetSensorsAndSupplyFollow_11 : ∃ (s : State) (m : Nat) (r1 : Option Nat) (r2 : Option Nat),
    (s.pwr.avsStopped = false) ∧ (s.pllLocked 12 = true) ∧ (s.is Reg.PWR_INJ_MARGIN = false) ∧ (s.pwr.avsInj = 0) ∧ (10 ≤ m) ∧ (s.get Reg.AVS_CFG_MLO ≤ m) ∧ (m ≤ (if s.get Reg.AVS_CFG_MHI ≤ s.get Reg.AVS_CFG_MLO then s.get Reg.AVS_CFG_MLO + 1 else s.get Reg.AVS_CFG_MHI)) ∧ (avsGood r1 (s.get Reg.AVS_STATUS_TARGET_MV) = false) ∧ (avsGood r2 (s.get Reg.AVS_STATUS_TARGET_MV) = false) :=
  ⟨(r0.put (Reg.PLL_STATUS_STATE 12) 6), 60, some 766, none, by decide +kernel⟩
theorem wit_BudgetSensorsAndSupplyFollow_12 : ∃ (s : State) (m : Nat),
    (s.pwr.avsStopped = false) ∧ (s.pllLocked 12 = true) ∧ (m < 10) ∧ (s.get Reg.AVS_STATUS_TARGET_MV = 850) :=
  ⟨((r0.put (Reg.PLL_STATUS_STATE 12) 6).put Reg.AVS_STATUS_TARGET_MV 850), 9, by decide +kernel⟩
theorem wit_BudgetSensorsAndSupplyFollow_13 : ∃ (s : State) (o : Origin) (v : Word),
    (s.accepts o (Reg.a_PWR_INJ) v = true) :=
  ⟨r0, .sp, 0x512#32, by decide +kernel⟩
theorem wit_KindlingRunsItsList_1 : ∃ (s : State),
    (s.emb.main = false ∨ s.kin.halted = true ∨ s.is Reg.FC_STATUS_PAIR_HELD = true ∨ s.kin.ended = true) :=
  ⟨{ r0 with kin := { ended := true } }, by decide +kernel⟩
theorem wit_KindlingRunsItsList_2 : ∃ (s : State),
    (s.emb.main = true) ∧ (s.kin.halted = false) ∧ (s.is Reg.FC_STATUS_PAIR_HELD = false) ∧ (s.kin.ended = false) ∧ (s.kin.phase = 0) ∧ (s.kindlingImage = none) ∧ (packageCheck (s.flashRead 0) slotBytes (s.get Reg.SEC_STATUS_ROLLBACK) ≠ 1) ∧ (packageCheck (s.flashRead 1) slotBytes (s.get Reg.SEC_STATUS_ROLLBACK) ≠ 1) :=
  ⟨r0, by decide +kernel⟩
theorem wit_KindlingRunsItsList_3 : ∃ (s : State),
    (s.emb.main = true) ∧ (s.kin.halted = false) ∧ (s.is Reg.FC_STATUS_PAIR_HELD = false) ∧ (s.kin.ended = false) ∧ (s.kin.phase ≠ 0) ∧ (s.kin.phase < 4) ∧ (s.kin.wait = .none) ∧ (s.kin.pos < s.kinCount) ∧ (kinBarred (s.kinWord s.kin.pos 0) = true) :=
  ⟨({ r0 with kin := { phase := 1, header := (leBytes 4 0x4B504B47 ++ leBytes 4 3 ++ leBytes 4 1 ++ leBytes 4 0 ++ leBytes 4 2 ++ leBytes 4 0 ++ leBytes 4 16 ++ leBytes 4 0x10C00000 ++ List.replicate 32 0#8) }, sram := storeBytes [] 0x10C00000 (leBytes 4 0x20700008 ++ leBytes 4 3) }), by decide +kernel⟩
theorem wit_KindlingRunsItsList_4 : ∃ (s : State),
    (s.emb.main = true) ∧ (s.kin.halted = false) ∧ (s.is Reg.FC_STATUS_PAIR_HELD = false) ∧ (s.kin.ended = false) ∧ (s.kin.phase ≠ 0) ∧ (s.kin.phase < 4) ∧ (s.kin.wait = .none) ∧ (s.kin.pos < s.kinCount) ∧ (7 ≤ s.kinWord s.kin.pos 0) ∧ (s.kinWord s.kin.pos 0 < 256) :=
  ⟨({ r0 with kin := { phase := 1, header := (leBytes 4 0x4B504B47 ++ leBytes 4 3 ++ leBytes 4 1 ++ leBytes 4 0 ++ leBytes 4 2 ++ leBytes 4 0 ++ leBytes 4 16 ++ leBytes 4 0x10C00000 ++ List.replicate 32 0#8) }, sram := storeBytes [] 0x10C00000 (leBytes 4 9 ++ leBytes 4 3) }), by decide +kernel⟩
theorem wit_KindlingRunsItsList_5 : ∃ (s : State),
    (s.emb.main = true) ∧ (s.kin.halted = false) ∧ (s.is Reg.FC_STATUS_PAIR_HELD = false) ∧ (s.kin.ended = false) ∧ (s.kin.phase ≠ 0) ∧ (s.kin.phase < 4) ∧ (s.kin.wait = .none) ∧ (s.kin.pos < s.kinCount) ∧ (s.kinWord s.kin.pos 0 = 0) :=
  ⟨({ r0 with kin := { phase := 1, header := (leBytes 4 0x4B504B47 ++ leBytes 4 3 ++ leBytes 4 1 ++ leBytes 4 0 ++ leBytes 4 2 ++ leBytes 4 0 ++ leBytes 4 16 ++ leBytes 4 0x10C00000 ++ List.replicate 32 0#8) }, sram := storeBytes [] 0x10C00000 (leBytes 4 0 ++ leBytes 4 0) }), by decide +kernel⟩
theorem wit_KindlingRunsItsList_6 : ∃ (s : State),
    (s.emb.main = true) ∧ (s.kin.halted = false) ∧ (s.is Reg.FC_STATUS_PAIR_HELD = false) ∧ (s.kin.ended = false) ∧ (s.kin.phase ≠ 0) ∧ (s.kin.phase < 4) ∧ (s.kin.wait = .none) ∧ (s.kin.pos < s.kinCount) ∧ (s.kinWord s.kin.pos 0 = 6) ∧ (s.kinWord s.kin.pos 1 % 32 < 17) ∧ (ownPermitted (s.kinWord s.kin.pos 1 % 32) (bits (s.kinWord s.kin.pos 1) 9 8) = true) :=
  ⟨({ r0 with kin := { phase := 1, header := (leBytes 4 0x4B504B47 ++ leBytes 4 3 ++ leBytes 4 1 ++ leBytes 4 0 ++ leBytes 4 2 ++ leBytes 4 0 ++ leBytes 4 16 ++ leBytes 4 0x10C00000 ++ List.replicate 32 0#8) }, sram := storeBytes [] 0x10C00000 (leBytes 4 6 ++ leBytes 4 0x103) }), by decide +kernel⟩
theorem wit_KindlingRunsItsList_7 : ∃ (s : State),
    (s.emb.main = true) ∧ (s.kin.halted = false) ∧ (s.is Reg.FC_STATUS_PAIR_HELD = false) ∧ (s.kin.ended = false) ∧ (s.kin.phase ≠ 0) ∧ (s.kin.phase < 4) ∧ (s.kin.wait = .none) ∧ (s.kin.pos < s.kinCount) ∧ (s.kinWord s.kin.pos 0 = Reg.a_FW_VERSION) ∧ (s.kin.bad3 = false) :=
  ⟨({ r0 with kin := { phase := 1, header := (leBytes 4 0x4B504B47 ++ leBytes 4 3 ++ leBytes 4 1 ++ leBytes 4 0 ++ leBytes 4 2 ++ leBytes 4 0 ++ leBytes 4 16 ++ leBytes 4 0x10C00000 ++ List.replicate 32 0#8) }, sram := storeBytes [] 0x10C00000 (leBytes 4 Reg.a_FW_VERSION ++ leBytes 4 0x01020304) }), by decide +kernel⟩
theorem wit_KindlingRunsItsList_8 : ∃ (s : State),
    (s.emb.main = false ∨ s.kin.ended = false ∨ s.kin.phase = 0 ∨ 4 ≤ s.kin.phase ∨ s.kin.pipes.any (fun p => !s.counting p) = true) :=
  ⟨{ r0 with kin := { phase := 3, ended := true, pipes := [2] } }, by decide +kernel⟩
theorem wit_KindlingRunsItsList_9 : ∃ (s : State),
    (s.emb.main = true) ∧ (s.kin.halted = false) ∧ (s.is Reg.FC_STATUS_PAIR_HELD = false) ∧ (s.kin.ended = true) ∧ (s.kin.phase ≠ 0) ∧ (s.kin.phase < 4) ∧ (s.kin.pipes.any (fun p => !s.counting p) = false) ∧ (headerFind s.kin.header 5 = none) ∧ (s.kin.cause ≠ 3) ∧ (s.kin.pgoodLoss = false) :=
  ⟨{ r0 with kin := { phase := 3, ended := true, header := (leBytes 4 0x4B504B47 ++ leBytes 4 3 ++ leBytes 4 1 ++ leBytes 4 0 ++ leBytes 4 2 ++ leBytes 4 0 ++ leBytes 4 16 ++ leBytes 4 0x10C00000 ++ List.replicate 32 0#8) } }, by decide +kernel⟩
theorem wit_KindlingRunsItsList_10 : ∃ (s : State),
    (s.emb.main = true) ∧ (s.kin.halted = false) ∧ (s.is Reg.FC_STATUS_PAIR_HELD = false) ∧ (s.kin.ended = true) ∧ (s.kin.phase ≠ 0) ∧ (s.kin.phase < 4) ∧ (s.kin.pipes.any (fun p => !s.counting p) = false) ∧ (headerFind s.kin.header 5 = none) ∧ (s.kin.cause = 3) ∧ (s.kin.pgoodLoss = false) :=
  ⟨{ (r0.put Reg.FC_STATUS_SAFE 1) with kin := { phase := 3, ended := true, cause := 3, header := (leBytes 4 0x4B504B47 ++ leBytes 4 3 ++ leBytes 4 1 ++ leBytes 4 0 ++ leBytes 4 2 ++ leBytes 4 0 ++ leBytes 4 16 ++ leBytes 4 0x10C00000 ++ List.replicate 32 0#8) } }, by decide +kernel⟩
theorem wit_KindlingRunsItsList_11 : ∃ (s : State),
    (s.emb.main = true) ∧ (s.kin.halted = false) ∧ (s.is Reg.FC_STATUS_PAIR_HELD = false) ∧ (s.kin.ended = true) ∧ (s.kin.phase ≠ 0) ∧ (s.kin.phase < 4) ∧ (s.kin.pipes.any (fun p => !s.counting p) = false) ∧ (headerFind s.kin.header 5 = none) ∧ (s.kin.pgoodLoss = true) :=
  ⟨{ r0 with kin := { phase := 3, ended := true, pgoodLoss := true, header := (leBytes 4 0x4B504B47 ++ leBytes 4 3 ++ leBytes 4 1 ++ leBytes 4 0 ++ leBytes 4 2 ++ leBytes 4 0 ++ leBytes 4 16 ++ leBytes 4 0x10C00000 ++ List.replicate 32 0#8) } }, by decide +kernel⟩
theorem wit_KeysAndDebugAccessAreGuarded_1 : ∃ (s : State) (o : Origin) (v : Word),
    (s.accepts o (Reg.a_SEC_LC) v = true) ∧ (bits v.toNat 31 16 = 0xA5C3) ∧ (s.is Reg.SEC_STATUS_LC_PEND = false) ∧ (s.lcAllowed o (bits v.toNat 1 0) = true) :=
  ⟨(r0.put Reg.SEC_STATUS_LC 1), .sp, 0xA5C30003#32, by decide +kernel⟩
theorem wit_KeysAndDebugAccessAreGuarded_2 : ∃ (s : State) (o : Origin) (v : Word),
    (s.accepts o (Reg.a_SEC_LC) v = true) ∧ (bits v.toNat 31 16 = 0xA5C3) ∧ (s.is Reg.SEC_STATUS_LC_PEND = true ∨ s.lcAllowed o (bits v.toNat 1 0) = false) :=
  ⟨(r0.put Reg.SEC_STATUS_LC 2), .sp, 0xA5C30003#32, by decide +kernel⟩
theorem wit_KeysAndDebugAccessAreGuarded_3 : ∃ (s : State) (o : Origin) (v : Word),
    (s.accepts o (Reg.a_SEC_LC) v = true) ∧ (bits v.toNat 31 16 ≠ 0xA5C3) :=
  ⟨(r0.put Reg.SEC_STATUS_LC 1), .sp, 0xA5C40003#32, by decide +kernel⟩
theorem wit_KeysAndDebugAccessAreGuarded_4 : ∃ (s : State) (o : Origin),
    (s.accepts o (Reg.a_SEC_DBG_CTRL) 1#32 = true) ∧ (s.is Reg.SEC_STATUS_DBG_LOCKED = false) :=
  ⟨(r0.put Reg.SEC_STATUS_LC 2), .debug, by decide +kernel⟩
theorem wit_KeysAndDebugAccessAreGuarded_5 : ∃ (s : State) (o : Origin),
    (s.accepts o (Reg.a_SEC_DBG_CTRL) 1#32 = true) ∧ (s.is Reg.SEC_STATUS_DBG_LOCKED = true) :=
  ⟨((r0.put Reg.SEC_STATUS_LC 2).put Reg.SEC_STATUS_DBG_LOCKED 1), .debug, by decide +kernel⟩
theorem wit_KeysAndDebugAccessAreGuarded_6 : ∃ (s : State) (o : Origin),
    (s.accepts o (Reg.a_SEC_DBG_CTRL) 2#32 = true) ∧ (s.is Reg.SEC_STATUS_DBG_LOCKED = false) ∧ (s.lifecycle = lcDevelop) ∧ (s.sec.pwd = some (s.dataBytes (Reg.a_SEC_DBG_RESP 0) 4)) :=
  ⟨{ (r0.put Reg.SEC_STATUS_LC 1) with sec := { r0.sec with pwd := some (List.replicate 16 0#8) } }, .debug, by decide +kernel⟩
theorem wit_KeysAndDebugAccessAreGuarded_7 : ∃ (s : State) (o : Origin),
    (s.accepts o (Reg.a_SEC_DBG_CTRL) 2#32 = true) ∧ (s.is Reg.SEC_STATUS_DBG_LOCKED = false) ∧ (s.lifecycle = lcDevelop) ∧ (s.sec.pwd ≠ some (s.dataBytes (Reg.a_SEC_DBG_RESP 0) 4)) :=
  ⟨((r0.put Reg.SEC_STATUS_LC 1).put Reg.SEC_STATUS_DBG_FAIL 2), .debug, by decide +kernel⟩
theorem wit_KeysAndDebugAccessAreGuarded_8 : ∃ (s : State) (o : Origin) (c : List Byte),
    (s.accepts o (Reg.a_SEC_DBG_CTRL) 2#32 = true) ∧ (s.is Reg.SEC_STATUS_DBG_LOCKED = false) ∧ (s.lifecycle = lcField) ∧ (s.sec.chal = some c) ∧ (s.slotValid 7 = false) :=
  ⟨{ ((r0.put Reg.SEC_STATUS_LC 2).put (keyStateField 7) 0) with sec := { r0.sec with chal := some [] } }, .debug, [], by decide +kernel⟩
theorem wit_KeysAndDebugAccessAreGuarded_9 : ∃ (s : State) (o : Origin),
    (s.accepts o (Reg.a_SEC_DBG_CTRL) 2#32 = true) ∧ (s.is Reg.SEC_STATUS_DBG_LOCKED = false) ∧ (s.lifecycle = lcField) ∧ (s.sec.chal = none) :=
  ⟨(r0.put Reg.SEC_STATUS_LC 2), .debug, by decide +kernel⟩
theorem wit_KeysAndDebugAccessAreGuarded_10 : ∃ (s : State) (o : Origin),
    (s.accepts o (Reg.a_SEC_DBG_CTRL) 4#32 = true) :=
  ⟨{ (r0.put Reg.SEC_STATUS_LC 2) with sec := { r0.sec with session := true } }, .debug, by decide +kernel⟩
theorem wit_KeysAndDebugAccessAreGuarded_11 : ∃ (s : State) (o : Origin) (n : Nat),
    (s.accepts o (Reg.a_SEC_KEY_CMD) (BitVec.ofNat 32 (256 * 1 + n % 8)) = true) ∧ (s.is Reg.SEC_KEY_CMD_BUSY = false) ∧ ((s.lifecycle = lcBlank ∨ s.lifecycle = lcDevelop)) ∧ (n % 8 < 7) ∧ (s.get (keyStateField (n % 8)) = keyEmpty) :=
  ⟨(r0.put Reg.SEC_STATUS_LC 1), .sp, 2, by decide +kernel⟩
theorem wit_KeysAndDebugAccessAreGuarded_12 : ∃ (s : State) (o : Origin) (n : Nat),
    (s.accepts o (Reg.a_SEC_KEY_CMD) (BitVec.ofNat 32 (256 * 1 + n % 8)) = true) ∧ (s.is Reg.SEC_KEY_CMD_BUSY = false) ∧ ((s.lifecycle = lcBlank ∨ s.lifecycle = lcDevelop)) ∧ (n % 8 < 7) ∧ (s.get (keyStateField (n % 8)) ≠ keyEmpty) :=
  ⟨((r0.put Reg.SEC_STATUS_LC 1).put (keyStateField 2) keyValid), .sp, 2, by decide +kernel⟩
theorem wit_KeysAndDebugAccessAreGuarded_13 : ∃ (s : State) (o : Origin) (n : Nat),
    (s.accepts o (Reg.a_SEC_KEY_CMD) (BitVec.ofNat 32 (256 * 1 + n % 8)) = true) ∧ (s.is Reg.SEC_KEY_CMD_BUSY = false) ∧ (s.lifecycle = lcField) :=
  ⟨(r0.put Reg.SEC_STATUS_LC 2), .sp, 2, by decide +kernel⟩
theorem wit_KeysAndDebugAccessAreGuarded_14 : ∃ (s : State) (o : Origin) (n : Nat),
    (s.accepts o (Reg.a_SEC_KEY_CMD) (BitVec.ofNat 32 (256 * 1 + n % 8)) = true) ∧ (s.is Reg.SEC_KEY_CMD_BUSY = false) ∧ ((s.lifecycle = lcBlank ∨ s.lifecycle = lcDevelop)) ∧ (n % 8 = 7) :=
  ⟨(r0.put Reg.SEC_STATUS_LC 1), .sp, 7, by decide +kernel⟩
theorem wit_KeysAndDebugAccessAreGuarded_15 : ∃ (s : State) (o : Origin) (n : Nat),
    (s.accepts o (Reg.a_SEC_KEY_CMD) (BitVec.ofNat 32 (256 * 1 + n % 8)) = true) ∧ (s.is Reg.SEC_KEY_CMD_BUSY = true) :=
  ⟨((r0.put Reg.SEC_STATUS_LC 1).put Reg.SEC_KEY_CMD_BUSY 1), .sp, 2, by decide +kernel⟩
theorem wit_KeysAndDebugAccessAreGuarded_16 : ∃ (s : State) (o : Origin) (n : Nat),
    (s.accepts o (Reg.a_SEC_KEY_CMD) (BitVec.ofNat 32 (256 * 2 + n % 8)) = true) ∧ (s.is Reg.SEC_KEY_CMD_BUSY = false) ∧ ((s.lifecycle = lcBlank ∨ s.lifecycle = lcDevelop)) ∧ (n % 8 < 7) :=
  ⟨(r0.put Reg.SEC_STATUS_LC 1), .sp, 2, by decide +kernel⟩
theorem wit_KeysAndDebugAccessAreGuarded_17 : ∃ (s : State) (o : Origin) (n : Nat),
    (s.accepts o (Reg.a_SEC_KEY_CMD) (BitVec.ofNat 32 (256 * 2 + n % 8)) = true) ∧ (s.is Reg.SEC_KEY_CMD_BUSY = false) ∧ (s.lifecycle = lcField) :=
  ⟨(r0.put Reg.SEC_STATUS_LC 2), .sp, 2, by decide +kernel⟩
theorem wit_KeysAndDebugAccessAreGuarded_18 : ∃ (s : State) (o : Origin) (n : Nat),
    (s.accepts o (Reg.a_SEC_KEY_CMD) (BitVec.ofNat 32 (256 * 3 + n % 8)) = true) ∧ (s.is Reg.SEC_KEY_CMD_BUSY = false) ∧ ((s.lifecycle = lcBlank ∨ s.lifecycle = lcDevelop)) ∧ (n % 8 < 2) ∧ (s.get (keyStateField (8 + n % 8)) = keyEmpty) :=
  ⟨(r0.put Reg.SEC_STATUS_LC 1), .sp, 1, by decide +kernel⟩
theorem wit_KeysAndDebugAccessAreGuarded_19 : ∃ (s : State) (o : Origin) (n : Nat),
    (s.accepts o (Reg.a_SEC_KEY_CMD) (BitVec.ofNat 32 (256 * 3 + n % 8)) = true) ∧ (s.is Reg.SEC_KEY_CMD_BUSY = false) ∧ ((s.lifecycle = lcBlank ∨ s.lifecycle = lcDevelop)) ∧ (2 ≤ n % 8) :=
  ⟨(r0.put Reg.SEC_STATUS_LC 1), .sp, 2, by decide +kernel⟩
theorem wit_KeysAndDebugAccessAreGuarded_20 : ∃ (s : State) (o : Origin),
    (s.accepts o (Reg.a_SEC_KEY_CMD) (BitVec.ofNat 32 (256 * 4 + 0)) = true) ∧ (s.is Reg.SEC_KEY_CMD_BUSY = false) ∧ (s.lifecycle = lcBlank) ∧ (s.sec.pwd = none) :=
  ⟨(r0.put Reg.SEC_STATUS_LC 0), .sp, by decide +kernel⟩
theorem wit_KeysAndDebugAccessAreGuarded_21 : ∃ (s : State) (o : Origin),
    (s.accepts o (Reg.a_SEC_KEY_CMD) (BitVec.ofNat 32 (256 * 4 + 0)) = true) ∧ (s.is Reg.SEC_KEY_CMD_BUSY = false) ∧ (s.lifecycle ≠ lcBlank) :=
  ⟨(r0.put Reg.SEC_STATUS_LC 1), .sp, by decide +kernel⟩
theorem wit_KeysAndDebugAccessAreGuarded_22 : ∃ (s : State) (i : Nat) (k : List Byte),
    (i < 7) ∧ (s.sec.job = some (.key i k)) :=
  ⟨(let s := r0.put Reg.SEC_KEY_CMD_BUSY 1; { s with sec := { s.sec with job := some (.key 2 (List.replicate 16 7#8)) } }), 2, (List.replicate 16 7#8), by decide +kernel⟩
theorem wit_KeysAndDebugAccessAreGuarded_23 : ∃ (s : State) (i : Nat),
    (i < 7) ∧ (s.sec.job = some (.revoke i)) :=
  ⟨(let s := r0.put Reg.SEC_KEY_CMD_BUSY 1; { s with sec := { s.sec with job := some (.revoke 2) } }), 2, by decide +kernel⟩
theorem wit_KeysAndDebugAccessAreGuarded_24 : ∃ (s : State) (i : Nat) (k : List Byte),
    (i < 7) ∧ (s.sec.job = some (.key i k)) :=
  ⟨(let s := r0.put Reg.SEC_KEY_CMD_BUSY 1; { s with sec := { s.sec with job := some (.key 2 (List.replicate 16 7#8)) } }), 2, (List.replicate 16 7#8), by decide +kernel⟩
theorem wit_KeysAndDebugAccessAreGuarded_25 : ∃ (s : State),
    (s.sec.job = none) :=
  ⟨r0, by decide +kernel⟩
theorem wit_KeysAndDebugAccessAreGuarded_26 : ∃ (s : State) (o : Origin),
    (s.accepts o (Reg.a_SEC_RECOVER) 1#32 = true) ∧ (s.is Reg.SEC_RECOVER_ACTIVE = true) :=
  ⟨(r0.put Reg.SEC_RECOVER_ACTIVE 1), .host, by decide +kernel⟩
theorem wit_KeysAndDebugAccessAreGuarded_27 : ∃ (s : State) (o : Origin),
    (s.accepts o (Reg.a_SEC_RECOVER) 1#32 = true) ∧ (s.is Reg.SEC_RECOVER_ACTIVE = false) :=
  ⟨r0, .host, by decide +kernel⟩
theorem wit_KeysAndDebugAccessAreGuarded_28 : ∃ (s : State),
    (s.is Reg.SEC_RECOVER_BUSY = true) ∧ (packageCheck s.hearthPackage (s.get Reg.SEC_RECOVER_LEN_BYTES) (s.get Reg.SEC_STATUS_ROLLBACK) ≠ 1) :=
  ⟨((r0.put Reg.SEC_RECOVER_ACTIVE 1).put Reg.SEC_RECOVER_BUSY 1), by decide +kernel⟩
theorem wit_KeysAndDebugAccessAreGuarded_29 : ∃ (s : State),
    (s.is Reg.SEC_RECOVER_BUSY = false) :=
  ⟨r0, by decide +kernel⟩
theorem wit_EveryStepKeepsPinsRight_1 : ∃ (s : State) (t : State), (s.PinsRight) ∧ (step s = .next t) :=
  ⟨{ r0 with pending := [.lockmonHoldExpiry] }, (r0.fresh).settled, by unfold State.PinsRight; decide +kernel, by rfl⟩
theorem wit_EveryStepKeepsMemoryCanonical_1 : ∃ (s : State) (t : State),
    (Memory.wf s.hm.mem = true) ∧ (Memory.wf s.sram = true) ∧ (Memory.wf s.flash.cells = true) ∧ (step s = .next t) :=
  ⟨{ r0 with pending := [.lockmonHoldExpiry], sram := [(0x10000000, 5#8)] }, ({ r0 with sram := [(0x10000000, 5#8)] } : State).fresh.settled,
    by decide +kernel, by decide +kernel, by decide +kernel, by rfl⟩

end Sys2Proof.Tests
end

section
/-! SUPPORT. A register write from the command to the effect of its register, said once for the registers that only store their fields; what
the report of a CE, the advance of a generation and the store leave alone. -/
namespace Sys2Proof.Machine

/-! ### From the command to the effect -/

/-- A write of a requester that access control admits, at the aligned address of a register, is a register write (R471). -/
theorem exec_registerWrite_register {s : State} {o : Origin} {a : Nat} {r : RegRow × List Nat} (v : Word) (hw : s.windowOpen o = true)
    (ha : a % 4 = 0) (hr : regAt a = some r) : exec (.registerWrite o a v) s = done (s.fresh.regWrite o a v) := by
  have hw' : s.fresh.windowOpen o = true := hw
  change done (s.fresh.wordWrite o a v) = _
  simp [State.wordWrite, hw', ha, hr]

/-- A write of a requester that access control keeps out changes nothing (Table 19.1). -/
theorem exec_registerWrite_closed {s : State} {o : Origin} (a : Nat) (v : Word) (hw : s.windowOpen o = false) :
    exec (.registerWrite o a v) s = done s.fresh := by
  have hw' : s.fresh.windowOpen o = false := hw
  change done (s.fresh.wordWrite o a v) = _
  simp [State.wordWrite, hw']

/-- A register outside `commandRegs` only stores what it accepts. -/
theorem applyWrite_storing (s : State) (o : Origin) (a : Nat) {row : RegRow} (is : List Nat) (w : Nat) (hn : row.name ∉ commandRegs) :
    s.applyWrite o a row is w = s.storeShadow a row w := by
  unfold State.applyWrite
  split
  case h_66 => rfl
  all_goals
    rename_i h
    exact absurd (h ▸ by decide) hn

/-- A write of a register outside `commandRegs` that no BUSY commit port holds is judged at once (R111, R476). -/
theorem regWrite_storing {s : State} {a : Nat} {row : RegRow} {is : List Nat} (o : Origin) (v : Word) (hr : regAt a = some (row, is))
    (hn : row.name ∉ commandRegs) (hh : s.shadowHeld a = false) :
    s.regWrite o a v =
      s.written o a (BitVec.ofNat 32 (clampWord row.name v.toNat)) fun row is w s => s.applyWrite o a row is w := by
  unfold State.regWrite
  rw [hr]
  dsimp only
  split
  case h_5 => rw [hh, if_neg Bool.false_ne_true]
  all_goals
    rename_i h
    exact absurd (h ▸ by decide) hn

/-- A write by a requester whom the writer rules keep out is ACC_REFUSED and nothing else (R11). -/
theorem written_unadmitted {s : State} {o : Origin} {a : Nat} {row : RegRow} {is : List Nat} (v : Word)
    (f : RegRow → List Nat → Nat → State → State) (hr : regAt a = some (row, is)) (hreach : s.reaches o row.name = true)
    (hsafe : s.safeState = false) (hw : s.writerOk o a row.name is = false) : s.written o a v f = s.fault .ACC_REFUSED := by
  have hs : s.is Reg.FC_STATUS_SAFE = false := hsafe
  simp [State.written, hr, hreach, hs, hw]

/-- A write by an admitted requester outside the safe state raises the faults of its fields and takes effect with the accepted word (R476). -/
theorem written_admitted {s : State} {o : Origin} {a : Nat} {row : RegRow} {is : List Nat} (v : Word)
    (f : RegRow → List Nat → Nat → State → State) (hr : regAt a = some (row, is)) (hreach : s.reaches o row.name = true)
    (hsafe : s.safeState = false) (hw : s.writerOk o a row.name is = true) :
    s.written o a v f =
      f row is (s.acceptedWord row is (s.reg a).toNat v.toNat) ((s.writeFaults row is (s.reg a).toNat v.toNat).genWrite a row) := by
  have hs : s.is Reg.FC_STATUS_SAFE = false := hsafe
  simp [State.written, hr, hreach, hs, hw]

/-- In the safe state a write of the HOST path to a register that is not kept open for it does nothing (R448). -/
theorem written_safeBlocked {s : State} {o : Origin} {a : Nat} {row : RegRow} {is : List Nat} (v : Word)
    (f : RegRow → List Nat → Nat → State → State) (hr : regAt a = some (row, is)) (hsafe : s.safeState = true)
    (ho : isHostPath o = true) (hk : safeWritable row.name is = false) : s.written o a v f = s := by
  have hs : s.is Reg.FC_STATUS_SAFE = true := hsafe
  simp [State.written, hr, hs, ho, hk]

/-- The registers that the HOST path still writes in the safe state are commands. -/
theorem safeWritable_storing {r : RegName} (is : List Nat) (hn : r ∉ commandRegs) : safeWritable r is = false := by
  unfold safeWritable
  split
  case h_6 => rfl
  all_goals simp [commandRegs] at hn

/-! ### The report of a CE -/

/-- A report of a CE neither starts nor ends the safe state (R447). -/
theorem fault_ce_safeState (s : State) (f : FaultId) (inj : Bool) (h : f.cls = .ce) : (s.fault f inj).safeState = s.safeState := by
  simp only [State.safeState, State.is]
  rw [fault_ce s f inj h, faultLines_status _ _ rfl (by decide) (by decide), latch_get _ _ _ _ _ _ (by decide)]

/-- `bit` is the library's test of a bit. -/
theorem bit_eq_testBit (n i : Nat) : bit n i = n.testBit i := by
  simp [bit, Nat.testBit, Nat.and_comm]

/-- Setting bits in a field keeps the bits that are set in that field, and in a field apart from it. -/
theorem orBits_keeps_bit (s : State) (f g : FRef) (m i : Nat) (hf : f.ok = true) (hg : g.ok = true) (hi : i < g.hi - g.lo + 1)
    (hfg : f = g ∨ f.apart g = true) (hb : bit (s.get g) i = true) : bit ((s.orBits f m).get g) i = true := by
  rcases hfg with rfl | hap
  · rw [State.orBits, State.get_put_self _ _ _ hf, bit_eq_testBit, Nat.testBit_mod_two_pow, Nat.testBit_or, ← bit_eq_testBit, hb]
    simp [hi]
  · rwa [State.orBits, State.get_put_apart _ _ _ _ hf ((FRef.ok_iff g).mp hg).1 hap]

/-- The LATCHED and ACTIVE fields of the groups are the same field or share no bit. -/
theorem stat_fields_apart (g k : Nat) :
    (Reg.FC_STAT_LATCHED g = Reg.FC_STAT_LATCHED k ∨ (Reg.FC_STAT_LATCHED g).apart (Reg.FC_STAT_LATCHED k) = true) ∧
      (Reg.FC_STAT_ACTIVE g = Reg.FC_STAT_ACTIVE k ∨ (Reg.FC_STAT_ACTIVE g).apart (Reg.FC_STAT_ACTIVE k) = true) ∧
      (Reg.FC_STAT_LATCHED g).apart (Reg.FC_STAT_ACTIVE k) = true ∧ (Reg.FC_STAT_ACTIVE g).apart (Reg.FC_STAT_LATCHED k) = true := by
  by_cases h : g = k
  · subst h
    have hLA : (Reg.FC_STAT_LATCHED g).apart (Reg.FC_STAT_ACTIVE g) = true := by
      simp only [FRef.apart, Reg.FC_STAT_LATCHED, Reg.FC_STAT_ACTIVE, Nat.reduceLT, decide_true, Bool.or_true]
    have hAL : (Reg.FC_STAT_ACTIVE g).apart (Reg.FC_STAT_LATCHED g) = true := by
      simp only [FRef.apart, Reg.FC_STAT_LATCHED, Reg.FC_STAT_ACTIVE, Nat.reduceLT, decide_true, Bool.or_true, Bool.true_or]
    exact ⟨.inl rfl, .inl rfl, hLA, hAL⟩
  · have haddr : 0x20900100 + 0x4 * g ≠ 0x20900100 + 0x4 * k := by omega
    have hap : ∀ f r : FRef, f.addr = 0x20900100 + 0x4 * g → r.addr = 0x20900100 + 0x4 * k → f.apart r = true := by
      intro f r hf hr
      rw [FRef.apart, hf, hr, bne_iff_ne.mpr haddr, Bool.true_or, Bool.true_or]
    exact ⟨.inr (hap _ _ rfl rfl), .inr (hap _ _ rfl rfl), hap _ _ rfl rfl, hap _ _ rfl rfl⟩

/-- The latch of a report sets status bits and clears none (R440). -/
theorem latch_keeps_reported (s : State) (f k : FaultId) (c : FClass) (inj esc : Bool) (h : s.reported f) :
    (s.latch k c inj esc).reported f := by
  have hf := fault_codes f
  have hk := fault_codes k
  obtain ⟨hLL, hAA, hLA, hAL⟩ := stat_fields_apart (faultGroup k.code) (faultGroup f.code)
  have okL (g : Nat) := (latched_ok g).1
  have okA (g : Nat) := (latched_ok g).2
  have before (r : FRef) (hr : r.addr = Reg.a_FC_STAT (faultGroup f.code)) :
      (((s.count (if c == .ce then Reg.FC_CNT_CE (faultGroup k.code) else Reg.FC_CNT_CC_FT (faultGroup k.code)) 1).stampReport k).logFault
        ⟨k.code, c, inj, esc, s.orbit.stamp % 2 ^ 32⟩).get r = s.get r := by
    simp only [Reg.a_FC_STAT] at hr
    rw [logFault_get _ _ _ (by simp only [Reg.FC_LOG_CNT_COUNT]; omega), State.stampReport_get, State.count]
    refine get_put_of_ne _ _ _ _ ?_
    split
    · simp only [Reg.FC_CNT_CE]; omega
    · simp only [Reg.FC_CNT_CC_FT]; omega
  have hrow : faultRow f.code - 1 < 16 := by omega
  obtain ⟨hl, ha⟩ := h
  constructor
  · refine orBits_keeps_bit _ _ _ _ _ (okA _) (okL _) hrow (.inr hAL) (orBits_keeps_bit _ _ _ _ _ (okL _) (okL _) hrow hLL ?_)
    exact (congrArg (bit · _) (before _ rfl)).trans hl
  · refine orBits_keeps_bit _ _ _ _ _ (okA _) (okA _) hrow hAA (orBits_keeps_bit _ _ _ _ _ (okL _) (okA _) hrow (.inr hLA) ?_)
    exact (congrArg (bit · _) (before _ rfl)).trans ha

/-- `reported` reads the STAT register of the fault's group alone. -/
theorem reported_congr {s t : State} {f : FaultId}
    (h : ∀ r : FRef, r.addr = Reg.a_FC_STAT (faultGroup f.code) → t.get r = s.get r) (hs : s.reported f) : t.reported f := by
  simpa only [State.reported, h (Reg.FC_STAT_LATCHED _) rfl, h (Reg.FC_STAT_ACTIVE _) rfl] using hs

/-- A report of a CE keeps what other reports have set (R440). -/
theorem fault_ce_keeps_reported (s : State) (f k : FaultId) (inj : Bool) (hk : k.cls = .ce) (h : s.reported f) :
    (s.fault k inj).reported f := by
  rw [fault_ce s k inj hk]
  refine reported_congr (fun r hr => faultLines_get _ r ?_) (latch_keeps_reported s f k .ce inj false h)
  have hf := fault_codes f
  simp only [Reg.a_FC_STAT] at hr
  simp only [Reg.a_FC_STATUS]
  omega

/-! ### The faults of a write, the generation, the store -/

/-- A write with a field that a lock refuses raises ACC_REFUSED (R476, R478). -/
theorem writeFaults_reported (s : State) (row : RegRow) (is : List Nat) (cur v : Nat) (f : FieldRow) (hf : f ∈ row.fields)
    (h : s.fieldRefusal row.name is f (bits cur f.hi f.lo) (bits v f.hi f.lo) = some .ACC_REFUSED) :
    (s.writeFaults row is cur v).reported .ACC_REFUSED := by
  have hmem : (row.fields.filterMap fun f =>
      s.fieldRefusal row.name is f (bits cur f.hi f.lo) (bits v f.hi f.lo)).contains .ACC_REFUSED = true :=
    List.contains_iff_mem.mpr (List.mem_filterMap.mpr ⟨f, hf, h⟩)
  unfold State.writeFaults
  dsimp only
  rw [hmem, State.when_true]
  generalize List.contains _ FaultId.CFG_VIOLATION = b
  cases b
  · exact fault_reported s .ACC_REFUSED false
  · rw [State.when_true]
    exact fault_ce_keeps_reported _ .ACC_REFUSED .CFG_VIOLATION false rfl (fault_reported s .ACC_REFUSED false)

/-- The advance of a generation writes an OWN register alone (R386). -/
theorem genWrite_get (s : State) (a : Nat) (row : RegRow) (g : FRef) (h : ∀ u, g.addr ≠ Reg.a_OWN u) :
    (s.genWrite a row).get g = s.get g := by
  unfold State.genWrite
  split
  case h_1 u _ =>
    split
    · exact get_put_of_ne _ _ _ _ (h u)
    · rfl
  case h_2 => rfl

/-! ### The store -/

/-- What a store of the word `w` over the register `cur` makes of one field (R475). -/
def storeField (cur w x : Nat) (f : FieldRow) : Nat :=
  match f.acc with
  | .rw | .rwl => setBits x f.hi f.lo (bits w f.hi f.lo)
  | .w1c => setBits x f.hi f.lo (bits cur f.hi f.lo - (bits cur f.hi f.lo &&& bits w f.hi f.lo))
  | _ => x

/-- A store takes the fields of the row one after the other. -/
theorem storeRow_eq (s : State) (a : Nat) (row : RegRow) (w : Nat) :
    s.storeRow a row w = s.setReg a (BitVec.ofNat 32 (row.fields.foldl (storeField (s.reg a).toNat w) (s.reg a).toNat)) := rfl

/-- A store touches no bit outside the field it takes. -/
theorem storeField_cases (cur w x : Nat) (f : FieldRow) : storeField cur w x f = x ∨ ∃ v, storeField cur w x f = setBits x f.hi f.lo v := by
  unfold storeField
  split
  case h_4 => exact .inl rfl
  all_goals exact .inr ⟨_, rfl⟩

/-- An RW or RWL field takes its bits of the word. -/
theorem storeField_rw (cur w x : Nat) {f : FieldRow} (h : f.acc = .rw ∨ f.acc = .rwl) :
    storeField cur w x f = setBits x f.hi f.lo (bits w f.hi f.lo) := by
  unfold storeField
  rcases h with h | h <;> rw [h]

/-- The fields of a register lie in its 32 bits. -/
theorem fieldsApart_inside {fs : List FieldRow} (h : fieldsApart fs = true) : ∀ f ∈ fs, f.lo ≤ f.hi ∧ f.hi < 32 := by
  induction fs with
  | nil => simp
  | cons x fs ih =>
    simp only [fieldsApart, Bool.and_eq_true, decide_eq_true_eq] at h
    obtain ⟨⟨⟨hle, hlt⟩, -⟩, hfs⟩ := h
    exact List.forall_mem_cons.mpr ⟨⟨hle, hlt⟩, ih hfs⟩

/-- Storing other fields leaves a field alone. -/
theorem bits_storeFields_apart (cur w : Nat) (fs : List FieldRow) (x hi lo : Nat) (hlo : lo ≤ hi)
    (h : ∀ f ∈ fs, f.lo ≤ f.hi ∧ (hi < f.lo ∨ f.hi < lo)) : bits (fs.foldl (storeField cur w) x) hi lo = bits x hi lo := by
  induction fs generalizing x with
  | nil => rfl
  | cons f fs ih =>
    obtain ⟨⟨hf, hap⟩, hfs⟩ := List.forall_mem_cons.mp h
    rw [List.foldl_cons, ih _ hfs]
    rcases storeField_cases cur w x f with e | ⟨v, e⟩
    · rw [e]
    · rw [e, bits_setBits_apart _ _ _ _ _ _ hf hlo hap]

/-- A store leaves every RW and RWL field as the word has it. -/
theorem bits_storeFields (cur w : Nat) {fs : List FieldRow} (x : Nat) (hap : fieldsApart fs = true) {f : FieldRow} (hf : f ∈ fs)
    (hacc : f.acc = .rw ∨ f.acc = .rwl) : bits (fs.foldl (storeField cur w) x) f.hi f.lo = bits w f.hi f.lo := by
  induction fs generalizing x with
  | nil => simp at hf
  | cons y fs ih =>
    simp only [fieldsApart, Bool.and_eq_true, decide_eq_true_eq, List.all_eq_true, Bool.or_eq_true] at hap
    obtain ⟨⟨⟨hle, -⟩, hy⟩, hfs⟩ := hap
    rw [List.foldl_cons]
    rcases List.mem_cons.mp hf with rfl | hm
    · rw [bits_storeFields_apart _ _ _ _ _ _ hle fun z hz => ⟨(fieldsApart_inside hfs z hz).1, (hy z hz).symm⟩, storeField_rw _ _ _ hacc,
        bits_setBits_self _ _ _ _ hle]
      exact Nat.mod_mod _ _
    · exact ih _ hfs hm

/-- A store leaves a 32-bit word. -/
theorem storeFields_lt (cur w : Nat) {fs : List FieldRow} (x : Nat) (hap : fieldsApart fs = true) (hx : x < 2 ^ 32) :
    fs.foldl (storeField cur w) x < 2 ^ 32 := by
  refine List.foldlRecOn (motive := (· < 2 ^ 32)) fs _ hx fun y hy f hf => ?_
  obtain ⟨hle, hlt⟩ := fieldsApart_inside hap f hf
  rcases storeField_cases cur w y f with e | ⟨v, e⟩
  · rwa [e]
  · rw [e]
    exact setBits_lt _ _ _ _ hle hlt hy

/-- The count of matrix writes is no register. -/
theorem storeShadow_get (s : State) (a : Nat) (row : RegRow) (w : Nat) (g : FRef) :
    (s.storeShadow a row w).get g = (s.storeRow a row w).get g := by
  unfold State.storeShadow
  dsimp only
  split
  · split <;> rfl
  · rfl

/-- A store changes no other register. -/
theorem storeShadow_get_of_ne (s : State) (a : Nat) (row : RegRow) (w : Nat) (g : FRef) (h : g.addr ≠ a) :
    (s.storeShadow a row w).get g = s.get g := by
  rw [storeShadow_get, storeRow_eq]
  exact congrArg (fun w : Word => bits w.toNat g.hi g.lo) (State.reg_setReg_ne _ _ h)

/-- A stored RW or RWL field reads as the word has it (R475). -/
theorem storeShadow_get_field (s : State) {a : Nat} {row : RegRow} {is : List Nat} (w : Nat) (hr : regAt a = some (row, is)) {f : FieldRow}
    (hf : f ∈ row.fields) (hacc : f.acc = .rw ∨ f.acc = .rwl) : (s.storeShadow a row w).get ⟨a, f.hi, f.lo⟩ = bits w f.hi f.lo := by
  have hap := regAt_fieldsApart hr
  rw [storeShadow_get, storeRow_eq]
  refine (congrArg (fun w : Word => bits w.toNat f.hi f.lo) (State.reg_setReg_self _ _ _)).trans ?_
  rw [BitVec.toNat_ofNat, Nat.mod_eq_of_lt (storeFields_lt _ _ _ hap (s.reg a).isLt)]
  exact bits_storeFields _ _ _ hap hf hacc

/-! ### Locked fields -/

/-- With LOCK.CFG set a write that would change an RWL field is ACC_REFUSED (R478). -/
theorem fieldRefusal_locked {s : State} (r : RegName) (is : List Nat) {f : FieldRow} {cur new : Nat} (hlock : s.is Reg.GLB_LOCK_CFG = true)
    (hacc : f.acc = .rwl) (hne : new ≠ cur) : s.fieldRefusal r is f cur new = some .ACC_REFUSED := by
  have hch : isChange f cur new = true := by simpa [isChange, hacc] using hne.symm
  simp [State.fieldRefusal, hch, hacc, hlock]

/-- The accepted word holds a refused RWL field at its present value (R476). -/
theorem acceptedWord_refused (s : State) {a : Nat} {row : RegRow} {is : List Nat} (cur v : Nat) (hr : regAt a = some (row, is))
    {f : FieldRow} (hf : f ∈ row.fields) (hacc : f.acc = .rwl)
    (h : (s.fieldRefusal row.name is f (bits cur f.hi f.lo) (bits v f.hi f.lo)).isSome = true) :
    bits (s.acceptedWord row is cur v) f.hi f.lo = bits cur f.hi f.lo := by
  rw [State.acceptedWord, bits_foldl_mem _ _ _ (regAt_fieldsApart hr) f hf]
  simp only [hacc, h, if_true]
  exact Nat.mod_mod _ _

/-- The STAT registers are commands: they clear what they are written. -/
theorem statRegister_name : (regAt (Reg.a_FC_STAT 1)).map (·.1.name) = some .FC_STAT := by decide +kernel

/-- A storing register is not the STAT register of group 1. -/
theorem storing_ne_stat {a : Nat} {row : RegRow} {is : List Nat} (hr : regAt a = some (row, is)) (hn : row.name ∉ commandRegs) :
    a ≠ Reg.a_FC_STAT 1 := by
  rintro rfl
  have h := statRegister_name
  rw [hr, Option.map_some, Option.some.injEq] at h
  exact absurd (h ▸ by decide) hn

/-- A write by an admitted requester of a storing register: the faults of its fields, the generation of its unit, the store. -/
theorem regWrite_storing_admitted {s : State} {o : Origin} {a : Nat} {v : Word} {row : RegRow} {is : List Nat}
    (hr : regAt a = some (row, is)) (hn : row.name ∉ commandRegs) (hc : clampWord row.name v.toNat = v.toNat)
    (hh : s.shadowHeld a = false) (hreach : s.reaches o row.name = true) (hsafe : s.safeState = false)
    (hw : s.writerOk o a row.name is = true) :
    s.regWrite o a v = ((s.writeFaults row is (s.reg a).toNat v.toNat).genWrite a row).storeShadow a row
      (s.acceptedWord row is (s.reg a).toNat v.toNat) := by
  rw [regWrite_storing o v hr hn hh, hc, BitVec.ofNat_toNat, BitVec.setWidth_eq, written_admitted v _ hr hreach hsafe hw,
    applyWrite_storing _ _ _ _ _ hn]

/-- A write that would change a locked field raises ACC_REFUSED, and the field keeps its value (R476, R478). -/
theorem regWrite_locked {s : State} {o : Origin} {a : Nat} {v : Word} {row : RegRow} {is : List Nat} {f : FieldRow}
    (hr : regAt a = some (row, is)) (hn : row.name ∉ commandRegs) (hc : clampWord row.name v.toNat = v.toNat)
    (hh : s.shadowHeld a = false) (hreach : s.reaches o row.name = true) (hsafe : s.safeState = false)
    (hw : s.writerOk o a row.name is = true) (hlock : s.is Reg.GLB_LOCK_CFG = true) (hf : f ∈ row.fields) (hacc : f.acc = .rwl)
    (hne : bits v.toNat f.hi f.lo ≠ s.get ⟨a, f.hi, f.lo⟩) :
    (s.regWrite o a v).reported .ACC_REFUSED ∧ (s.regWrite o a v).get ⟨a, f.hi, f.lo⟩ = s.get ⟨a, f.hi, f.lo⟩ := by
  have href : s.fieldRefusal row.name is f (bits (s.reg a).toNat f.hi f.lo) (bits v.toNat f.hi f.lo) = some .ACC_REFUSED :=
    fieldRefusal_locked _ _ hlock hacc hne
  rw [regWrite_storing_admitted hr hn hc hh hreach hsafe hw]
  constructor
  · refine reported_congr (fun r (hstat : r.addr = Reg.a_FC_STAT 1) => ?_)
      (writeFaults_reported s row is (s.reg a).toNat v.toNat f hf href)
    have hown : ∀ u, r.addr ≠ Reg.a_OWN u := by
      intro u
      simp only [hstat, Reg.a_FC_STAT, Reg.a_OWN]
      omega
    rw [storeShadow_get_of_ne _ _ _ _ _ (hstat ▸ (storing_ne_stat hr hn).symm), genWrite_get _ _ _ _ hown]
  · rw [storeShadow_get_field _ _ hr hf (.inr hacc), acceptedWord_refused s _ _ hr hf hacc (by rw [href]; rfl)]
    rfl

/-! ### The statement -/

/-- Settles O15: the write is one `written`, which stops at the writer rules, at the lock of a field, or at the safe state. -/
theorem refusedWriteChangesNoRegister : Obligations.RefusedWriteChangesNoRegister := by
  unfold Obligations.RefusedWriteChangesNoRegister
  refine ⟨?_, ?_, ?_⟩
  · intro s o a v row is hopen ha hr hn hh hreach hsafe hw _
    refine ⟨_, exec_registerWrite_register v hopen ha hr, ?_⟩
    have hwr : s.fresh.regWrite o a v = s.fresh.fault .ACC_REFUSED :=
      (regWrite_storing (s := s.fresh) o v hr hn hh).trans (written_unadmitted _ _ hr hreach hsafe hw)
    rw [hwr]
    exact ⟨fault_reported s.fresh .ACC_REFUSED false, (fault_ce_safeState s.fresh .ACC_REFUSED false rfl).trans hsafe,
      fault_ce_get s.fresh .ACC_REFUSED false rfl⟩
  · intro s o a v row is f hopen ha hr hn hc hh hreach hsafe hw hlock hf hacc hne _
    exact ⟨_, exec_registerWrite_register v hopen ha hr,
      regWrite_locked (s := s.fresh) hr hn hc hh hreach hsafe hw hlock hf hacc hne⟩
  · intro s o a v row is hsafe ho ha hr hn hh
    cases hopen : s.windowOpen o with
    | false => exact exec_registerWrite_closed a v hopen
    | true =>
      rw [exec_registerWrite_register v hopen ha hr]
      have hwr : s.fresh.regWrite o a v = s.fresh :=
        (regWrite_storing (s := s.fresh) o v hr hn hh).trans (written_safeBlocked _ _ hr hsafe ho (safeWritable_storing is hn))
      rw [hwr]
      rfl

end Sys2Proof.Machine
end
